-- ==== Sys2Proof/Word.lean ====
section
/-! DEFINITION. The words of the Hokutrix parts: bytes, 32-bit and 64-bit words, 56-bit frame headers and
ordered sets, and the bit fields the manual writes as [msb:lsb] (00_scope.md, Numbers, units and bits). -/

namespace Sys2Proof

/-- A byte. -/
abbrev Byte := BitVec 8
/-- A 32-bit word: an engine register, a check, a PU32 as software sees it. -/
abbrev Word := BitVec 32
/-- A 64-bit block of a frame (09 R230). -/
abbrev Block := BitVec 64
/-- A 56-bit frame header or ordered set payload (09 R230, 08 R205). -/
abbrev Header := BitVec 56

/-- The field [msb:lsb] of a natural number, as the manual writes bit ranges. -/
def bits (x msb lsb : Nat) : Nat := (x >>> lsb) % 2 ^ (msb + 1 - lsb)

/-- Bit n of a natural number. -/
def bitOf (x n : Nat) : Bool := x.testBit n

/-- The number with bit n set or cleared. -/
def setBit (x n : Nat) (b : Bool) : Nat :=
  if x.testBit n = b then x else if b then x + 2 ^ n else x - 2 ^ n

/-- The two's complement reading of the low w bits. -/
def signed (w x : Nat) : Int :=
  let y := x % 2 ^ w
  if 2 * y < 2 ^ w then (y : Int) else (y : Int) - 2 ^ w

/-- The low w bits of an integer, in two's complement. -/
def unsigned (w : Nat) (x : Int) : Nat := (x % (2 ^ w : Nat)).toNat

end Sys2Proof
end

