-- ==== Sys2Proof/Syntax.lean ====
section
/-! DEFINITION. The commands the block takes: one constructor of Instr for each row of spec/opcode_table.json, in the
table's order, with the operands that the row's event brings with it. -/

namespace Sys2Proof

/-- An arm: 6 × side + 2 × phase + pole (00_scope.md, Glossary). -/
abbrev Arm := Fin 12
/-- A control engine (05). -/
abbrev Eng := Fin 16
/-- A register number of an engine instruction. -/
abbrev RegNo := Fin 32
/-- A Vat slot number (05 R112). -/
abbrev Slot := BitVec 12
/-- An input, output or channel number of a cell. -/
abbrev Pin4 := Fin 4
/-- A gate output or feedback number of a cell. -/
abbrev Pin8 := Fin 8
/-- A host port (15 R405). -/
abbrev HostPort := Fin 5
/-- A string (01 R18). -/
abbrev StringNo := Fin 192
/-- A GDP source number or fault number. -/
abbrev Source := Fin 128

/-- A cell identifier: string × 64 + position (00_scope.md, Glossary). -/
structure CellId where
  str : Fin 192
  pos : Fin 48
  deriving DecidableEq, Repr

/-- A part of the station: the CVC, a hub or a cell controller (01 R16, R18). -/
inductive Part where
  | cvc
  | hub (n : Fin 8)
  | cell (c : CellId)
  deriving DecidableEq, Repr

/-- A lane end: a part and its lane number as 08 R225 counts lanes. -/
structure Port where
  part : Part
  lane : Fin 52
  deriving DecidableEq, Repr

/-- A Tamlek frame as received: header, data blocks, first bad hop and check (09 R230). -/
structure Frame where
  hdr : Header
  data : List Block
  fbh : Byte
  chk : Word
  deriving DecidableEq, Repr

/-- The addressing of a GDP request: port of arrival and the header fields SEQ, RID, INC and NODE (15 R407). -/
structure Req where
  port : HostPort
  seq : BitVec 32
  rid : BitVec 64
  inc : BitVec 16
  node : BitVec 16
  deriving DecidableEq, Repr

/-- Where a write that has a row of its own comes from: a GDP WRITE, or a service WRITE at a hub or cell (09 R244). -/
inductive WSrc where
  | host (r : Req)
  | service (p : Part)
  deriving DecidableEq, Repr

/-- What a part finds when its reset is released: its straps (01 R17, 06 R132, 14 R378), the firmware slot that
verifies (16 R445, R447: 0 the one named, 1 the other, 2 none), the hard-trip self-test (06 R157), and whether the
stored engine package and each channel's stored safety image verify (05 R127, 11 R317). -/
structure Boot where
  strap : BitVec 3
  fwPath : Fin 3
  selfX : Bool
  selfY : Bool
  package : Bool
  imageA : Bool
  imageB : Bool
  deriving DecidableEq, Repr, Inhabited

/-- What arrives on a host port, as far as 15 R405 tells kinds apart. -/
inductive HostFrame where
  /-- a UDP datagram: the bytes after the UDP header, with the address it came from -/
  | udp (dport sport : BitVec 16) (src : BitVec 32) (ckOk frag opts : Bool) (bytes : List Byte)
  /-- a frame whose FCS or IP checksum fails -/
  | damaged
  /-- traffic of any other kind -/
  | other
  deriving DecidableEq, Repr

/-- An Announce message, as far as the best master clock algorithm compares it (10 R284). -/
structure Announce where
  gm : BitVec 64
  prio1 : Byte
  cls : Byte
  acc : Byte
  var : BitVec 16
  prio2 : Byte
  steps : BitVec 16
  sender : BitVec 64
  domain : Byte
  utcValid : Bool
  utc : BitVec 16
  deriving DecidableEq, Repr

/-- What ends an item or is found while it runs (05 R103, R105): an exception with its mcause, a memory error that the ECC corrects,
or an uncorrectable one in the Vat's slot, operand or report storage. -/
inductive ItemEvent where
  | trap (cause : BitVec 8)
  | corrected
  | vatStorage
  deriving DecidableEq, Repr

/-- The commands. -/
inductive Instr where
  -- 16_reset_startup_persistence.md
  | powerOnReset (p : Part)
  | resetNAssert (p : Part)
  | resetNRelease (p : Part) (b : Boot)
  | longReset (p : Part)
  | watchdogExpire (p : Part)
  | softReset (w : WSrc) (v : BitVec 16)
  | rindRequestedReset (by_ : BitVec 2)
  | startupComplete
  | hubWaitExpire
  | ptpWaitExpire
  | startWaitExpire
  -- 02_control_cycle.md
  | cycleBoundary
  | chargeTimeout
  | charge (r : Req)
  | deblock (r : Req)
  | block (r : Req)
  | stop (r : Req)
  | resetTrip (r : Req)
  -- 03_harp_cell_selection.md, 04_arm_loop_engines.md
  | harpLaunch
  | harpComplete (a : Arm)
  | armLoopLaunch (a : Arm)
  | armLoopOutput (a : Arm)
  | loopSkip (a : Arm)
  | loopApplyKeep (r : Req) (a : Arm)
  | loopApplyBqReset (r : Req) (a : Arm)
  | loopApplyFullReset (r : Req) (a : Arm)
  | harpApply (r : Req) (side : Fin 2)
  | harpFlagsClear (r : Req) (a : Arm) (m : BitVec 16)
  | loopFlagsClear (r : Req) (a : Arm) (m : BitVec 16)
  | injStart (r : Req)
  | injStop (r : Req)
  | injStep
  | injEnd
  -- 05_control_engines_and_vat.md
  | padd (e : Eng) (rd rs1 rs2 : RegNo)
  | psub (e : Eng) (rd rs1 rs2 : RegNo)
  | pmul (e : Eng) (rd rs1 rs2 : RegNo)
  | pmac (e : Eng) (rd rs1 rs2 : RegNo)
  | vput (e : Eng) (rd rs1 rs2 : RegNo)
  | vputp (e : Eng) (rs1 rs2 : RegNo)
  | vget (e : Eng) (rd rs1 : RegNo)
  | vqry (e : Eng) (rd rs1 rs2 : RegNo)
  | vstat (e : Eng) (rd rs1 : RegNo)
  | vdone (e : Eng) (rs1 : RegNo)
  | tnow (e : Eng) (rd : RegNo)
  | tnowh (e : Eng) (rd : RegNo)
  | tsamp (e : Eng) (rd : RegNo)
  | tleft (e : Eng) (rd : RegNo)
  | tcyc (e : Eng) (rd : RegNo)
  | itemException (e : Eng) (cause : ItemEvent)
  | itemLimit (e : Eng)
  | itemDispatch (slot : Slot) (inst : Fin 2) (e : Eng)
  | itemResume (e : Eng)
  | reportsCutoff (slot : Slot) (tag : Pin8)
  | bitstreamTag (ch : Fin 16)
  | timerTag (slot : Slot) (tag : Pin8)
  | vatMove (r : Req) (v : BitVec 32)
  | vatRearm (r : Req) (v : BitVec 16)
  | vatFlagsClear (r : Req) (v : BitVec 16)
  | enginePackage (r : Req) (bytes : List Byte)
  -- 06_cell_switching_and_pwm.md and the cycle of strings
  | cellSample (c : CellId) (vcode : BitVec 16) (icode : BitVec 16)
  | adcComplete (c : CellId)
  | planLatch (p : Part)
  | collectLaunch (c : CellId)
  | planSend (h : Fin 8)
  | applyInstant (c : CellId)
  | lossAction (c : CellId)
  | gateTurnOn (c : CellId) (n : Pin8)
  | pwmValley (c : CellId)
  | trimEdge (c : CellId) (up : Bool)
  -- 09_tamlek_frames_and_integrity.md
  | command (port : Port) (f : Frame)
  | collect (port : Port) (f : Frame)
  | collectLand (lane : Fin 16) (f : Frame)
  | emptyFrameEnd (h : Fin 8) (lane : Fin 48)
  | abortBlock (port : Port)
  | trip (port : Port) (f : Frame)
  | tripPreempt (port : Port)
  | arbiterGrant (port : Port)
  -- 10_time_base.md
  | sync (port : Port) (f : Frame) (tap : Fin 64)
  | syncUp (port : Port) (f : Frame) (tap : Fin 64)
  | syncSend (p : Part)
  | timeFrameMissed (p : Part)
  | holdoverExpire (p : Part)
  | counterWrap (p : Part)
  | delayReqSend (port : Port)
  | delayReq (port : Port) (f : Frame) (tap : Fin 64)
  | delayResp (port : Port) (f : Frame) (tap : Fin 64)
  | closureRead (str : StringNo)
  | ptpAnnounce (port : HostPort) (m : Announce)
  | ptpSync (port : HostPort) (offset : BitVec 64) (twoStep : Bool)
  | ptpFollowUp (port : HostPort) (offset : BitVec 64)
  | pdelayReq (port : HostPort) (id : BitVec 64) (seq : BitVec 16)
  | ptpManagement (port : HostPort)
  | announceTimeout
  | calApply (r : Req)
  | calSRead (r : Req)
  -- 08_string_lanes.md
  | laneLost (port : Port) (cause : Fin 7)
  | trainTimeout (port : Port)
  | laneUp (port : Port)
  | lstateReq (port : Port) (os : Header)
  | lstateAck (port : Port) (os : Header)
  | lstateNak (port : Port) (os : Header)
  | lstateUp (port : Port) (os : Header)
  | lstateDown (port : Port) (os : Header)
  | lstateReqTimeout (port : Port)
  | lstateReqRetry (port : Port)
  | laneWake (port : Port)
  | eyeEstimate (port : Port) (eye coef : BitVec 16)
  | noticeBreak (port : Port) (os : Header)
  | noticeMend (port : Port) (os : Header)
  | noticePass (port : Port) (os : Header)
  | noticeServe (port : Port) (os : Header)
  | plan (port : Port) (os : Header)
  | mendCountReached (port : Port)
  | passThroughEntry (c : CellId)
  | prbsSecond (port : Port) (errors : BitVec 32)
  | prbsClear (w : WSrc) (lane : Fin 52) (v : BitVec 8)
  -- 09: slot tables and service
  | slotSwitchAt (w : WSrc) (t : Fin 4) (v : BitVec 32)
  | serviceRead (port : Port) (f : Frame)
  | serviceWrite (port : Port) (f : Frame)
  | serviceReadSeg (port : Port) (f : Frame)
  | serviceWriteSeg (port : Port) (f : Frame)
  | discover (port : Port) (f : Frame)
  | serviceResponse (lane : Fin 18) (f : Frame)
  | serviceTimeout (tag : Byte)
  -- 16: discovery
  | discoveryPass
  | discoveryPassEnd (str : StringNo) (fin_ : Fin 2)
  -- 14_redundant_pair.md
  | idle (port : Port) (f : Frame)
  | idleSend
  | relayIdleSend (h : Fin 8)
  | pathLost (path : Fin 2)
  | peerSilence
  | allegianceChange (h : Fin 8)
  | overlapEnd (h : Fin 8)
  | takeover
  -- 11_rind_safety.md
  | rindEvaluation
  | safetyFilterOutput (input : Fin 16) (code : BitVec 32) (bad : Bool)
  | crosslinkTrip (ch : Fin 2)
  | heartbeatLoss (ch : Fin 2)
  | clockCompare (offBy : Bool) (sOff : BitVec 2)
  | readbackMismatch (ch : Fin 2)
  | faultClearTimeout (ch : Fin 2)
  | tripHoldExpire (ch : Fin 2)
  | degradedTimeout
  | imageStage (r : Req) (bytes : List Byte)
  | signatureVerified (kind : Fin 4) (p : Part) (ok : Bool)
  | imageArm (r : Req) (v : BitVec 32)
  | imageCommit (r : Req) (v : BitVec 16)
  | commitTimeout
  | checkScanDone (p : Part) (u : Fin 4) (result : BitVec 32)
  | checkStall (p : Part) (u : Fin 4)
  -- 12_faults_and_cave.md
  | graceExpire (src : Source)
  | noteExpire (p : Part) (src : Source)
  | faultAck (w : WSrc) (v : BitVec 16)
  | emergClear (r : Req) (v : BitVec 16)
  | hubPoll
  | caveWrite (p : Part) (ok : Bool)
  | caveClear (w : WSrc) (v : BitVec 32)
  | caveClearDone (p : Part)
  | caveRecRead (w : WSrc)
  -- 13_acquisition.md
  | acqArm (r : Req)
  | acqStop (r : Req)
  | acqForce (r : Req)
  | acqRelease (r : Req)
  | sequencerStep
  | sequencerTimeout
  | acqTrigIn (edge : Bool)
  | acqTrigOutEnd
  | controlBitstreamOutput (ch : Fin 16) (code : BitVec 32) (stuck : Bool)
  | captureSample (ch : Fin 64) (val : BitVec 32)
  | objectSample
  | recordClose
  | capArm (w : WSrc)
  | capStop (w : WSrc)
  | capForce (w : WSrc)
  | cellCaptureSample (c : CellId) (vcode icode : BitVec 16) (fb : BitVec 8)
  -- 06: hard trips, bypass, feedback, inputs, bench
  | htTrip (c : CellId) (n : Pin4) (x y : Bool)
  | blankExpire (c : CellId) (n : Pin4)
  | pathDisagree (c : CellId) (n : Pin4)
  | tripClear (w : WSrc) (m : BitVec 8)
  | fireDelayExpire (c : CellId)
  | bypFire (w : WSrc) (v : BitVec 16)
  | bypStatClosed (c : CellId)
  | firePulseEnd (c : CellId)
  | bypConfirmTimeout (c : CellId)
  | bypUnfire (w : WSrc) (v : BitVec 16)
  | fbWindowExpire (c : CellId) (n : Pin8)
  | gfMismatch (c : CellId) (n : Pin8)
  | fbClear (w : WSrc) (m : BitVec 8)
  | diChange (c : CellId) (n : Pin8) (level : Bool)
  | bench (w : WSrc) (v : BitVec 8)
  | prdWr (w : WSrc) (v : BitVec 16)
  | cmpWr (w : WSrc) (v : BitVec 32)
  -- 07_cell_energy_and_sleep.md
  | ledgerSample (c : CellId) (vin : BitVec 16) (shunt : BitVec 32)
  | rcMeasure (c : CellId) (hz : BitVec 32)
  | activityRequest (c : CellId) (act : Fin 8)
  | activityEnd (c : CellId) (act : Fin 8)
  | bootComplete (c : CellId)
  | bootLaneTimeout (c : CellId) (lane : Fin 2)
  | bypassOnResetExpire (c : CellId)
  | pwrRequest (w : WSrc) (v : BitVec 8)
  | powerStateEnter (c : CellId)
  -- 16: stores, images, keys
  | storeSave (w : WSrc) (v : BitVec 16)
  | storeDone (p : Part) (ok : Bool)
  | storeRestore (w : WSrc) (v : BitVec 16)
  | storeImage (w : WSrc) (bytes : List Byte)
  | fwLoad (w : WSrc) (bytes : List Byte)
  | keyProg (w : WSrc) (slot : Fin 2) (hash : List Byte)
  | keyRevoke (w : WSrc) (v : BitVec 8)
  -- 17_pins_electrical_ordering.md
  | railOutOfRange (p : Part) (rail : Fin 8) (below : Bool)
  | corePgRise (c : CellId)
  | corePgTimeout (c : CellId)
  | corePgFall (c : CellId)
  | junctionTemperature (p : Part) (tenths : BitVec 16)
  | referenceClockLost (p : Part)
  -- 15_dictionary_and_hosts.md
  | hostLinkChange (port : HostPort) (up : Bool)
  | noLinkTimeout
  | hostDatagram (port : HostPort) (f : HostFrame)
  | arpRequest (port : HostPort) (target : BitVec 32) (vlan : BitVec 16)
  | icmpEcho (port : HostPort) (target : BitVec 32) (vlan : BitVec 16) (data : List Byte)
  | read (r : Req) (idx : BitVec 16) (sub : Byte) (off : BitVec 32) (maxLen : BitVec 16)
  | readDescriptor (r : Req) (idx : BitVec 16) (sub : Byte)
  | write (r : Req) (idx : BitVec 16) (sub ty : Byte) (off : BitVec 32) (fin_ : Bool) (val : List Byte)
  | batchedWrite (r : Req) (idx : BitVec 16) (sub ty : Byte) (val : List Byte)
  | readBlock (r : Req) (idx : BitVec 16) (sub count : Byte) (off : BitVec 32) (maxLen : BitVec 16)
  | batchOpen (r : Req)
  | batchCommit (r : Req) (bseq : BitVec 32)
  | batchAbort (r : Req) (bseq : BitVec 32)
  | claim (r : Req) (prio : Byte)
  | renew (r : Req)
  | yield (r : Req) (succ : BitVec 64)
  | subscribe (r : Req) (idx : BitVec 16) (sub mode : Byte) (period : BitVec 16)
  | leaseExpire
  | subLifeExpire (rid : BitVec 64)
  | notify
  | periodicNotify (subid : BitVec 16)
  | domainTimeout
  | railInRange (p : Part) (rail : Fin 8)
  | blockLock (port : Port)
  | prbsSync (port : Port)
  | prbsSyncLoss (port : Port)
  | firmwareWriteDone (p : Part)
  | parameterStoreScan (ch : Fin 2) (crc : BitVec 32)
  | modulatorClockLost (input : Fin 16)
  | rv32imafcInstruction (e : Eng)
  deriving DecidableEq, Repr

end Sys2Proof
end

