-- ==== Sys2Proof/Decode.lean ====
section
/-! DEFINITION. The block decodes no words: the rows of the opcode table give no bits (log entry 10). -/

namespace Sys2Proof

/-- The command a word spells by the table's bits: no row of the table gives bits, so no word spells one. -/
def decodeTableWord (_nbits _w : Nat) : Option Instr := none

end Sys2Proof
end

