-- ==== Sys2Proof/Config.lean ====
section
/-! DEFINITION. What the manual leaves to the factory or leaves open: constants without a body, so that no
statement can rest on a value of one (notes/assumptions/5.md, 6.md). -/

namespace Sys2Proof.Config

/-- A free value: the n-th value the manual leaves open in a run (05 R102, 11 R316, 04 R91). The step reads it at
the state's own counter and advances the counter. DESIGN CHOICE, log entry 6. -/
opaque freeNat : Nat → Nat

/-- The unique serial number of the part at a node address (15 R426, default "Factory"). Log entry 5. -/
opaque serial : Nat → Nat

/-- The MAC address of host port p (15 R427, default "Factory"). Log entry 5. -/
opaque mac : Nat → Nat

/-- The key slot, 0 or 1, that signed the firmware a part runs from the factory is slot 1 (16 R439). Log entry 5. -/
opaque firmwareKey : Nat → Bool

/-- The steward firmware version a part runs from the factory (15 R426, default "Image"). Log entry 5. -/
opaque firmware : Nat → Nat

end Sys2Proof.Config
end

