-- ==== Sys2Proof/Machine/Keys.lean ====
section
/-! DEFINITION. The keys of the dictionary objects: index × 256 + subindex of every object of the manual's object tables
(00_scope.md R4); for an object that is an array of subindices, or a record per arm, lane or port, the first. -/

namespace Sys2Proof.Machine.K

-- 01 R25
/-- `station.mode` (R25) -/
def stationMode : Nat := 0x201001
/-- `station.pair` (R25) -/
def stationPair : Nat := 0x201002
/-- `station.hubs_expected` (R25) -/
def stationHubsExpected : Nat := 0x201003
/-- `station.hubs_found` (R25) -/
def stationHubsFound : Nat := 0x201004
/-- `station.string_arm` (R25) -/
def stationStringArm : Nat := 0x201101
/-- `station.arm_cells` (R25) -/
def stationArmCells : Nat := 0x201201
/-- `station.arm_strings` (R25) -/
def stationArmStrings : Nat := 0x20120D
/-- `station.path_latency` (R25) -/
def stationPathLatency : Nat := 0x201301
/-- `station.path_floor` (R25) -/
def stationPathFloor : Nat := 0x201302
/-- `station.lane_tolerant` (R25) -/
def stationLaneTolerant : Nat := 0x201303
/-- `station.report_form` (R25) -/
def stationReportForm : Nat := 0x201304
-- 02 R51
/-- `cycle.tc` (R51) -/
def cycleTc : Nat := 0x200001
/-- `cycle.ta` (R51) -/
def cycleTa : Nat := 0x200002
/-- `cycle.work_budget` (R51) -/
def cycleWorkBudget : Nat := 0x200003
/-- `cycle.ta_policy` (R51) -/
def cycleTaPolicy : Nat := 0x200004
/-- `cycle.hold_limit` (R51) -/
def cycleHoldLimit : Nat := 0x200005
/-- `cycle.rejoin_cycles` (R51) -/
def cycleRejoinCycles : Nat := 0x200006
/-- `cycle.ta_need_dual` (R51) -/
def cycleTaNeedDual : Nat := 0x200101
/-- `cycle.ta_need_single` (R51) -/
def cycleTaNeedSingle : Nat := 0x200102
/-- `cycle.ta_need_now` (R51) -/
def cycleTaNeedNow : Nat := 0x200103
/-- `cycle.h_offset` (R51) -/
def cycleHOffset : Nat := 0x200104
/-- `cycle.count` (R51) -/
def cycleCount : Nat := 0x200201
/-- `cycle.seq` (R51) -/
def cycleSeq : Nat := 0x200202
/-- `cycle.origin` (R51) -/
def cycleOrigin : Nat := 0x200203
/-- `cycle.overruns` (R51) -/
def cycleOverruns : Nat := 0x200204
/-- `cycle.held_arms` (R51) -/
def cycleHeldArms : Nat := 0x200205
/-- `cycle.disturbed` (R51) -/
def cycleDisturbed : Nat := 0x200206
/-- `cycle.late_max` (R51) -/
def cycleLateMax : Nat := 0x200207
/-- `conv.state` (R51) -/
def convState : Nat := 0x202001
/-- `conv.request` (R51) -/
def convRequest : Nat := 0x202002
/-- `conv.state_prev` (R51) -/
def convStatePrev : Nat := 0x202003
/-- `conv.cause` (R51) -/
def convCause : Nat := 0x202004
/-- `conv.entered` (R51) -/
def convEntered : Nat := 0x202005
/-- `conv.last_refused` (R51) -/
def convLastRefused : Nat := 0x202006
/-- `conv.arms_blocked` (R51) -/
def convArmsBlocked : Nat := 0x202007
/-- `conv.charge_level` (R51) -/
def convChargeLevel : Nat := 0x202101
/-- `conv.charge_min_cell` (R51) -/
def convChargeMinCell : Nat := 0x202102
/-- `conv.charge_timeout` (R51) -/
def convChargeTimeout : Nat := 0x202103
/-- `base.v_arm_a` (R51) -/
def baseVArmA : Nat := 0x203001
/-- `base.v_arm_b` (R51) -/
def baseVArmB : Nat := 0x203002
/-- `base.i_arm_a` (R51) -/
def baseIArmA : Nat := 0x203003
/-- `base.i_arm_b` (R51) -/
def baseIArmB : Nat := 0x203004
/-- `base.v_cell_a` (R51) -/
def baseVCellA : Nat := 0x203005
/-- `base.v_cell_b` (R51) -/
def baseVCellB : Nat := 0x203006
-- 02 R52
/-- `cycle.cmd_loss_cycles` (R52) -/
def cycleCmdLossCycles : Nat := 0x204001
/-- `cycle.loss_action` (R52) -/
def cycleLossAction : Nat := 0x204002
/-- `cycle.missed` (R52) -/
def cycleMissed : Nat := 0x204003
/-- `cycle.cmd_margin` (R52) -/
def cycleCmdMargin : Nat := 0x204004
/-- `cycle.in_loss` (R52) -/
def cycleInLoss : Nat := 0x204005
-- 03 R73
/-- `harp.quant_mode` (R73) -/
def harpQuantMode : Nat := 0x241001
/-- `harp.hyst` (R73) -/
def harpHyst : Nat := 0x241002
/-- `harp.budget_penalty` (R73) -/
def harpBudgetPenalty : Nat := 0x241003
/-- `harp.budget_step` (R73) -/
def harpBudgetStep : Nat := 0x241004
/-- `harp.budget_trim` (R73) -/
def harpBudgetTrim : Nat := 0x241005
/-- `harp.budget_drain` (R73) -/
def harpBudgetDrain : Nat := 0x241006
/-- `harp.budget_full` (R73) -/
def harpBudgetFull : Nat := 0x241007
/-- `harp.i_dead` (R73) -/
def harpIDead : Nat := 0x241008
/-- `harp.i_mode` (R73) -/
def harpIMode : Nat := 0x241009
/-- `harp.trim_cells` (R73) -/
def harpTrimCells : Nat := 0x24100A
/-- `harp.f_floor` (R73) -/
def harpFFloor : Nat := 0x24100B
/-- `harp.trim_hold` (R73) -/
def harpTrimHold : Nat := 0x24100C
/-- `harp.trim_rest` (R73) -/
def harpTrimRest : Nat := 0x24100D
/-- `harp.v_cell_hi` (R73) -/
def harpVCellHi : Nat := 0x24100E
/-- `harp.v_cell_lo` (R73) -/
def harpVCellLo : Nat := 0x24100F
/-- `harp.stale_max` (R73) -/
def harpStaleMax : Nat := 0x241010
/-- `harp.c_default` (R73) -/
def harpCDefault : Nat := 0x241011
/-- `harp.avail_min` (R73) -/
def harpAvailMin : Nat := 0x241012
/-- `harp.trim_period` (R73) -/
def harpTrimPeriod : Nat := 0x241013
/-- `harp.apply_a` (R73) -/
def harpApplyA : Nat := 0x241201
/-- `harp.apply_b` (R73) -/
def harpApplyB : Nat := 0x241202
-- 03 R74
/-- `harp.u` (R74) -/
def harpU : Nat := 0x242001
/-- `harp.n_ins` (R74) -/
def harpNIns : Nat := 0x242101
/-- `harp.frac` (R74) -/
def harpFrac : Nat := 0x242201
/-- `harp.avail` (R74) -/
def harpAvail : Nat := 0x242301
/-- `harp.flags` (R74) -/
def harpFlags : Nat := 0x242401
/-- `harp.flags_live` (R74) -/
def harpFlagsLive : Nat := 0x242501
/-- `harp.flags_clear` (R74) -/
def harpFlagsClear : Nat := 0x242601
/-- `harp.t_h` (R74) -/
def harpTH : Nat := 0x242701
/-- `harp.switches` (R74) -/
def harpSwitches : Nat := 0x242801
/-- `harp.trim_ids` (R74) -/
def harpTrimIds : Nat := 0x242901
/-- `harp.stale` (R74) -/
def harpStale : Nat := 0x242A01
/-- `harp.mismatch` (R74) -/
def harpMismatch : Nat := 0x242B01
/-- `harp.dir` (R74) -/
def harpDir : Nat := 0x242C01
-- 03 R76
/-- `harp.cell_sel` (R76) -/
def harpCellSel : Nat := 0x243001
/-- `harp.cell_vpred` (R76) -/
def harpCellVpred : Nat := 0x243002
/-- `harp.cell_key` (R76) -/
def harpCellKey : Nat := 0x243003
/-- `harp.cell_budget` (R76) -/
def harpCellBudget : Nat := 0x243004
/-- `harp.cell_cmd` (R76) -/
def harpCellCmd : Nat := 0x243005
/-- `harp.cell_trim_age` (R76) -/
def harpCellTrimAge : Nat := 0x243006
/-- `harp.cell_trim_rest` (R76) -/
def harpCellTrimRest : Nat := 0x243007
/-- `harp.cell_c` (R76) -/
def harpCellC : Nat := 0x243008
-- 03 R77
/-- `cell.c_nom` (R77) -/
def cellCNom : Nat := 0x205001
-- 04 R97
/-- `loop.meas_src` (R97) -/
def loopMeasSrc : Nat := 0x250001
/-- `loop.meas_alt` (R97) -/
def loopMeasAlt : Nat := 0x250002
/-- `loop.meas_gain` (R97) -/
def loopMeasGain : Nat := 0x250003
/-- `loop.sp_src` (R97) -/
def loopSpSrc : Nat := 0x250004
/-- `loop.sp_fixed` (R97) -/
def loopSpFixed : Nat := 0x250005
/-- `loop.sp_max` (R97) -/
def loopSpMax : Nat := 0x250006
/-- `loop.ramp_rate` (R97) -/
def loopRampRate : Nat := 0x250007
/-- `loop.kp` (R97) -/
def loopKp : Nat := 0x250008
/-- `loop.ki` (R97) -/
def loopKi : Nat := 0x250009
/-- `loop.i_max` (R97) -/
def loopIMax : Nat := 0x25000A
/-- `loop.i_min` (R97) -/
def loopIMin : Nat := 0x25000B
/-- `loop.i_init` (R97) -/
def loopIInit : Nat := 0x25000C
/-- `loop.aw_mode` (R97) -/
def loopAwMode : Nat := 0x25000D
/-- `loop.bq_en` (R97) -/
def loopBqEn : Nat := 0x25000E
/-- `loop.ff_en` (R97) -/
def loopFfEn : Nat := 0x25000F
/-- `loop.ff_gain` (R97) -/
def loopFfGain : Nat := 0x250010
/-- `loop.out_max` (R97) -/
def loopOutMax : Nat := 0x250011
/-- `loop.out_min` (R97) -/
def loopOutMin : Nat := 0x250012
/-- `loop.post_en` (R97) -/
def loopPostEn : Nat := 0x250013
/-- `loop.post_max` (R97) -/
def loopPostMax : Nat := 0x250014
/-- `loop.lim_cycles` (R97) -/
def loopLimCycles : Nat := 0x250015
/-- `loop.bq0` (R97) -/
def loopBq0 : Nat := 0x250018
/-- `loop.bq1` (R97) -/
def loopBq1 : Nat := 0x25001D
/-- `loop.bq2` (R97) -/
def loopBq2 : Nat := 0x250022
/-- `loop.bq3` (R97) -/
def loopBq3 : Nat := 0x250027
/-- `loop.apply` (R97) -/
def loopApply : Nat := 0x251001
-- 04 R98
/-- `loop.s` (R98) -/
def loopS : Nat := 0x252001
/-- `loop.meas` (R98) -/
def loopMeas : Nat := 0x252101
/-- `loop.err` (R98) -/
def loopErr : Nat := 0x252201
/-- `loop.integ` (R98) -/
def loopInteg : Nat := 0x252301
/-- `loop.y` (R98) -/
def loopY : Nat := 0x252401
/-- `loop.flags` (R98) -/
def loopFlags : Nat := 0x252501
/-- `loop.flags_live` (R98) -/
def loopFlagsLive : Nat := 0x252601
/-- `loop.flags_clear` (R98) -/
def loopFlagsClear : Nat := 0x252701
/-- `loop.skipped` (R98) -/
def loopSkipped : Nat := 0x252801
/-- `loop.alt_used` (R98) -/
def loopAltUsed : Nat := 0x252901
/-- `loop.i_rind` (R98) -/
def loopIRind : Nat := 0x252A01
/-- `loop.di_rind` (R98) -/
def loopDiRind : Nat := 0x252B01
/-- `loop.launch` (R98) -/
def loopLaunch : Nat := 0x252C01
/-- `loop.lim_run` (R98) -/
def loopLimRun : Nat := 0x252D01
-- 04 R99
/-- `loop.inj_arms` (R99) -/
def loopInjArms : Nat := 0x254001
/-- `loop.inj_point` (R99) -/
def loopInjPoint : Nat := 0x254002
/-- `loop.inj_kind` (R99) -/
def loopInjKind : Nat := 0x254003
/-- `loop.inj_amp` (R99) -/
def loopInjAmp : Nat := 0x254004
/-- `loop.inj_f0` (R99) -/
def loopInjF0 : Nat := 0x254005
/-- `loop.inj_f1` (R99) -/
def loopInjF1 : Nat := 0x254006
/-- `loop.inj_steps` (R99) -/
def loopInjSteps : Nat := 0x254007
/-- `loop.inj_spacing` (R99) -/
def loopInjSpacing : Nat := 0x254008
/-- `loop.inj_settle` (R99) -/
def loopInjSettle : Nat := 0x254009
/-- `loop.inj_measure` (R99) -/
def loopInjMeasure : Nat := 0x25400A
/-- `loop.inj_order` (R99) -/
def loopInjOrder : Nat := 0x25400B
/-- `loop.inj_hold` (R99) -/
def loopInjHold : Nat := 0x25400C
/-- `loop.inj_seed` (R99) -/
def loopInjSeed : Nat := 0x25400D
/-- `loop.inj_length` (R99) -/
def loopInjLength : Nat := 0x25400E
/-- `loop.inj_ctrl` (R99) -/
def loopInjCtrl : Nat := 0x25400F
/-- `loop.inj_state` (R99) -/
def loopInjState : Nat := 0x254010
/-- `loop.inj_cycle` (R99) -/
def loopInjCycle : Nat := 0x254011
/-- `loop.inj_step` (R99) -/
def loopInjStep : Nat := 0x254012
/-- `loop.inj_capture` (R99) -/
def loopInjCapture : Nat := 0x254013
-- 05 R130
/-- `eng.state` (R130) -/
def engState : Nat := 0x300001
/-- `eng.items` (R130) -/
def engItems : Nat := 0x300101
/-- `eng.load` (R130) -/
def engLoad : Nat := 0x300201
/-- `eng.traps` (R130) -/
def engTraps : Nat := 0x300301
/-- `eng.last_trap` (R130) -/
def engLastTrap : Nat := 0x300401
/-- `eng.preempts` (R130) -/
def engPreempts : Nat := 0x300501
/-- `eng.item_limit` (R130) -/
def engItemLimit : Nat := 0x301001
/-- `eng.package` (R130) -/
def engPackage : Nat := 0x301002
/-- `eng.package_id` (R130) -/
def engPackageId : Nat := 0x301003
/-- `eng.gen` (R130) -/
def engGen : Nat := 0x301004
-- 05 R131
/-- `vat.sel` (R131) -/
def vatSel : Nat := 0x302001
/-- `vat.slot_ctrl` (R131) -/
def vatSlotCtrl : Nat := 0x302002
/-- `vat.slot_arms` (R131) -/
def vatSlotArms : Nat := 0x302003
/-- `vat.slot_entry` (R131) -/
def vatSlotEntry : Nat := 0x302004
/-- `vat.slot_tag` (R131) -/
def vatSlotTag : Nat := 0x302005
/-- `vat.slot_epoch` (R131) -/
def vatSlotEpoch : Nat := 0x30200D
/-- `vat.slot_state` (R131) -/
def vatSlotState : Nat := 0x30200E
/-- `vat.slot_present` (R131) -/
def vatSlotPresent : Nat := 0x30200F
/-- `vat.slot_flags` (R131) -/
def vatSlotFlags : Nat := 0x302010
/-- `vat.slot_code` (R131) -/
def vatSlotCode : Nat := 0x302011
/-- `vat.slot_runs` (R131) -/
def vatSlotRuns : Nat := 0x302012
/-- `vat.move` (R131) -/
def vatMove : Nat := 0x302101
/-- `vat.rearm` (R131) -/
def vatRearm : Nat := 0x302102
/-- `vat.flags_clear` (R131) -/
def vatFlagsClear : Nat := 0x302103
/-- `vat.enabled` (R131) -/
def vatEnabled : Nat := 0x303001
/-- `vat.stale_epoch` (R131) -/
def vatStaleEpoch : Nat := 0x303002
/-- `vat.stale_cycle` (R131) -/
def vatStaleCycle : Nat := 0x303003
/-- `vat.overwrites` (R131) -/
def vatOverwrites : Nat := 0x303004
/-- `vat.bad_handle` (R131) -/
def vatBadHandle : Nat := 0x303005
/-- `vat.not_armed` (R131) -/
def vatNotArmed : Nat := 0x303006
/-- `vat.bg_skips` (R131) -/
def vatBgSkips : Nat := 0x303007
/-- `vat.unfired` (R131) -/
def vatUnfired : Nat := 0x303008
/-- `vat.late_unbound` (R131) -/
def vatLateUnbound : Nat := 0x303009
/-- `vat.dispatch_max` (R131) -/
def vatDispatchMax : Nat := 0x30300A
/-- `vat.ready_max` (R131) -/
def vatReadyMax : Nat := 0x30300B
/-- `vat.ecc_corrected` (R131) -/
def vatEccCorrected : Nat := 0x30300C
-- 06 R166
/-- `sw.type` (R166) -/
def swType : Nat := 0x290001
/-- `sw.state` (R166) -/
def swState : Nat := 0x290002
/-- `sw.fb_bypass` (R166) -/
def swFbBypass : Nat := 0x290003
/-- `sw.fb_window` (R166) -/
def swFbWindow : Nat := 0x290004
/-- `sw.fb_fault` (R166) -/
def swFbFault : Nat := 0x290005
/-- `sw.fb_clear` (R166) -/
def swFbClear : Nat := 0x290006
/-- `sw.bad_cmd` (R166) -/
def swBadCmd : Nat := 0x290007
/-- `sw.bench` (R166) -/
def swBench : Nat := 0x290008
/-- `sw.bench_state` (R166) -/
def swBenchState : Nat := 0x290009
/-- `pwm.dt_in` (R166) -/
def pwmDtIn : Nat := 0x291001
/-- `pwm.dt_out` (R166) -/
def pwmDtOut : Nat := 0x291002
/-- `pwm.min_pulse` (R166) -/
def pwmMinPulse : Nat := 0x291003
/-- `pwm.extreme` (R166) -/
def pwmExtreme : Nat := 0x291004
/-- `pwm.load_every` (R166) -/
def pwmLoadEvery : Nat := 0x291005
/-- `pwm.dither` (R166) -/
def pwmDither : Nat := 0x291006
/-- `pwm.prd` (R166) -/
def pwmPrd : Nat := 0x291007
/-- `pwm.cmp` (R166) -/
def pwmCmp : Nat := 0x291008
/-- `pwm.prd_wr` (R166) -/
def pwmPrdWr : Nat := 0x291009
/-- `pwm.cmp_wr` (R166) -/
def pwmCmpWr : Nat := 0x29100A
/-- `pwm.pending` (R166) -/
def pwmPending : Nat := 0x29100B
/-- `pwm.suppressed` (R166) -/
def pwmSuppressed : Nat := 0x29100C
/-- `pwm.cut` (R166) -/
def pwmCut : Nat := 0x29100D
/-- `pwm.carrier` (R166) -/
def pwmCarrier : Nat := 0x29100E
/-- `trip.thr` (R166) -/
def tripThr : Nat := 0x292001
/-- `trip.blank` (R166) -/
def tripBlank : Nat := 0x292005
/-- `trip.blank_src` (R166) -/
def tripBlankSrc : Nat := 0x292009
/-- `trip.en` (R166) -/
def tripEn : Nat := 0x29200D
/-- `trip.fire` (R166) -/
def tripFire : Nat := 0x29200E
/-- `trip.fire_delay` (R166) -/
def tripFireDelay : Nat := 0x29200F
/-- `trip.latch` (R166) -/
def tripLatch : Nat := 0x292010
/-- `trip.clear` (R166) -/
def tripClear : Nat := 0x292011
/-- `trip.count` (R166) -/
def tripCount : Nat := 0x292012
/-- `trip.selftest` (R166) -/
def tripSelftest : Nat := 0x292013
/-- `byp.pulse` (R166) -/
def bypPulse : Nat := 0x293001
/-- `byp.confirm` (R166) -/
def bypConfirm : Nat := 0x293002
/-- `byp.retries` (R166) -/
def bypRetries : Nat := 0x293003
/-- `byp.stat_pol` (R166) -/
def bypStatPol : Nat := 0x293004
/-- `byp.status` (R166) -/
def bypStatus : Nat := 0x293005
/-- `byp.cause` (R166) -/
def bypCause : Nat := 0x293006
/-- `byp.fire` (R166) -/
def bypFire : Nat := 0x293007
/-- `byp.unfire` (R166) -/
def bypUnfire : Nat := 0x293008
/-- `byp.fires` (R166) -/
def bypFires : Nat := 0x293009
/-- `di.filter` (R166) -/
def diFilter : Nat := 0x294001
/-- `di.pol` (R166) -/
def diPol : Nat := 0x294009
/-- `di.func` (R166) -/
def diFunc : Nat := 0x29400A
/-- `di.state` (R166) -/
def diState : Nat := 0x29400B
/-- `adc.v_gain` (R166) -/
def adcVGain : Nat := 0x295001
/-- `adc.v_offset` (R166) -/
def adcVOffset : Nat := 0x295002
/-- `adc.i_offset` (R166) -/
def adcIOffset : Nat := 0x295003
/-- `adc.v_code` (R166) -/
def adcVCode : Nat := 0x295004
/-- `adc.i_code` (R166) -/
def adcICode : Nat := 0x295005
/-- `adc.range` (R166) -/
def adcRange : Nat := 0x295006
-- 07 R190
/-- `nrg.c_hold` (R190) -/
def nrgCHold : Nat := 0x280001
/-- `nrg.v_min` (R190) -/
def nrgVMin : Nat := 0x280002
/-- `nrg.shunt_mohm` (R190) -/
def nrgShuntMohm : Nat := 0x280003
/-- `nrg.reserve` (R190) -/
def nrgReserve : Nat := 0x280004
/-- `nrg.start_budget` (R190) -/
def nrgStartBudget : Nat := 0x280005
/-- `nrg.defer_level` (R190) -/
def nrgDeferLevel : Nat := 0x280006
/-- `nrg.floor_action` (R190) -/
def nrgFloorAction : Nat := 0x280007
/-- `nrg.margin` (R190) -/
def nrgMargin : Nat := 0x280008
/-- `nrg.cost_boot` (R190) -/
def nrgCostBoot : Nat := 0x280101
/-- `nrg.cost_train` (R190) -/
def nrgCostTrain : Nat := 0x280102
/-- `nrg.cost_wake` (R190) -/
def nrgCostWake : Nat := 0x280103
/-- `nrg.cost_store` (R190) -/
def nrgCostStore : Nat := 0x280104
/-- `nrg.cost_record` (R190) -/
def nrgCostRecord : Nat := 0x280105
/-- `nrg.cost_fire` (R190) -/
def nrgCostFire : Nat := 0x280106
/-- `nrg.p_pass` (R190) -/
def nrgPPass : Nat := 0x280107
/-- `nrg.vin` (R190) -/
def nrgVin : Nat := 0x281001
/-- `nrg.iin` (R190) -/
def nrgIin : Nat := 0x281002
/-- `nrg.store` (R190) -/
def nrgStore : Nat := 0x281003
/-- `nrg.avail` (R190) -/
def nrgAvail : Nat := 0x281004
/-- `nrg.p_draw` (R190) -/
def nrgPDraw : Nat := 0x281005
/-- `nrg.p_in` (R190) -/
def nrgPIn : Nat := 0x281006
/-- `nrg.used` (R190) -/
def nrgUsed : Nat := 0x281007
/-- `nrg.state` (R190) -/
def nrgState : Nat := 0x281008
/-- `nrg.refused` (R190) -/
def nrgRefused : Nat := 0x281009
/-- `nrg.queued` (R190) -/
def nrgQueued : Nat := 0x28100A
/-- `nrg.lost` (R190) -/
def nrgLost : Nat := 0x28100B
/-- `nrg.boot_aborts` (R190) -/
def nrgBootAborts : Nat := 0x28100C
/-- `nrg.floors` (R190) -/
def nrgFloors : Nat := 0x28100D
-- 07 R191
/-- `pwr.state` (R191) -/
def pwrState : Nat := 0x282001
/-- `pwr.request` (R191) -/
def pwrRequest : Nat := 0x282002
/-- `aon.bypass_on_reset_time` (R191) -/
def aonBypassOnResetTime : Nat := 0x282003
/-- `aon.rc_freq` (R191) -/
def aonRcFreq : Nat := 0x282004
-- 08 R225
/-- `lane.enable` (R225) -/
def laneEnable : Nat := 0x380001
/-- `lane.state` (R225) -/
def laneState : Nat := 0x380002
/-- `lane.lock` (R225) -/
def laneLock : Nat := 0x380003
/-- `lane.losses` (R225) -/
def laneLosses : Nat := 0x380004
/-- `lane.train_fails` (R225) -/
def laneTrainFails : Nat := 0x380005
/-- `lane.last_loss` (R225) -/
def laneLastLoss : Nat := 0x380006
/-- `lane.eye` (R225) -/
def laneEye : Nat := 0x380007
/-- `lane.eq_snap` (R225) -/
def laneEqSnap : Nat := 0x380008
/-- `lane.reverts` (R225) -/
def laneReverts : Nat := 0x380009
/-- `lane.os_bad` (R225) -/
def laneOsBad : Nat := 0x38000A
/-- `lane.prbs_gen` (R225) -/
def lanePrbsGen : Nat := 0x38000B
/-- `lane.prbs_chk` (R225) -/
def lanePrbsChk : Nat := 0x38000C
/-- `lane.prbs_sync` (R225) -/
def lanePrbsSync : Nat := 0x38000D
/-- `lane.prbs_err` (R225) -/
def lanePrbsErr : Nat := 0x38000E
/-- `lane.prbs_efs` (R225) -/
def lanePrbsEfs : Nat := 0x38000F
/-- `lane.prbs_secs` (R225) -/
def lanePrbsSecs : Nat := 0x380010
/-- `lane.prbs_clear` (R225) -/
def lanePrbsClear : Nat := 0x380011
/-- `lane.loopback` (R225) -/
def laneLoopback : Nat := 0x380012
/-- `lane.tx_swing` (R225) -/
def laneTxSwing : Nat := 0x380013
/-- `lane.tx_pre` (R225) -/
def laneTxPre : Nat := 0x380014
/-- `lane.tx_post` (R225) -/
def laneTxPost : Nat := 0x380015
/-- `lane.eq_freeze` (R225) -/
def laneEqFreeze : Nat := 0x380016
-- 08 R226
/-- `lane.adapt_guard` (R226) -/
def laneAdaptGuard : Nat := 0x384001
/-- `lane.train_timeout` (R226) -/
def laneTrainTimeout : Nat := 0x384002
-- 08 R227
/-- `string.plan` (R227) -/
def stringPlan : Nat := 0x388001
/-- `string.cells` (R227) -/
def stringCells : Nat := 0x388101
/-- `string.heals` (R227) -/
def stringHeals : Nat := 0x388201
/-- `string.lost` (R227) -/
def stringLost : Nat := 0x388301
/-- `string.mend_cycles` (R227) -/
def stringMendCycles : Nat := 0x388401
/-- `string.unreachable` (R227) -/
def stringUnreachable : Nat := 0x388501
/-- `string.dropped` (R227) -/
def stringDropped : Nat := 0x388601
-- 08 R228
/-- `string.pos` (R228) -/
def stringPos : Nat := 0x389001
/-- `string.seg` (R228) -/
def stringSeg : Nat := 0x389002
/-- `string.launch` (R228) -/
def stringLaunch : Nat := 0x389003
/-- `string.a` (R228) -/
def stringA : Nat := 0x389004
/-- `string.b` (R228) -/
def stringB : Nat := 0x389005
-- 08 R229
/-- `hub.id` (R229) -/
def hubId : Nat := 0x38C001
/-- `hub.allegiance` (R229) -/
def hubAllegiance : Nat := 0x38C002
/-- `hub.allegiance_changes` (R229) -/
def hubAllegianceChanges : Nat := 0x38C003
/-- `hub.uplink_l0` (R229) -/
def hubUplinkL0 : Nat := 0x38C004
/-- `hub.buf_max` (R229) -/
def hubBufMax : Nat := 0x38C005
/-- `hub.drops` (R229) -/
def hubDrops : Nat := 0x38C006
/-- `hub.converted` (R229) -/
def hubConverted : Nat := 0x38C007
/-- `hub.fwd_max` (R229) -/
def hubFwdMax : Nat := 0x38C008
-- 09 R263
/-- `tam.rx_frames` (R263) -/
def tamRxFrames : Nat := 0x390001
/-- `tam.chk_bad` (R263) -/
def tamChkBad : Nat := 0x390002
/-- `tam.chk_stomped` (R263) -/
def tamChkStomped : Nat := 0x390003
/-- `tam.viol_type` (R263) -/
def tamViolType : Nat := 0x390004
/-- `tam.viol_len` (R263) -/
def tamViolLen : Nat := 0x390005
/-- `tam.viol_seq` (R263) -/
def tamViolSeq : Nat := 0x390006
/-- `tam.aborts_rx` (R263) -/
def tamAbortsRx : Nat := 0x390007
/-- `tam.preempts` (R263) -/
def tamPreempts : Nat := 0x390008
/-- `tam.fbh_last` (R263) -/
def tamFbhLast : Nat := 0x390009
/-- `tam.fwd_drops` (R263) -/
def tamFwdDrops : Nat := 0x39000A
/-- `tam.repeats` (R263) -/
def tamRepeats : Nat := 0x39000B
/-- `tam.superseded` (R263) -/
def tamSuperseded : Nat := 0x39000C
/-- `tam.win_drops` (R263) -/
def tamWinDrops : Nat := 0x39000D
-- 09 R264
/-- `slot.bank0` (R264) -/
def slotBank0 : Nat := 0x3A1001
/-- `slot.bank1` (R264) -/
def slotBank1 : Nat := 0x3A1011
/-- `slot.active` (R264) -/
def slotActive : Nat := 0x3A1021
/-- `slot.switch_at` (R264) -/
def slotSwitchAt : Nat := 0x3A1022
/-- `slot.pending` (R264) -/
def slotPending : Nat := 0x3A1023
-- 09 R265
/-- `svc.timeout` (R265) -/
def svcTimeout : Nat := 0x3B0001
/-- `svc.timeouts` (R265) -/
def svcTimeouts : Nat := 0x3B0002
/-- `svc.queued` (R265) -/
def svcQueued : Nat := 0x3B0003
/-- `tam.cseq_err` (R265) -/
def tamCseqErr : Nat := 0x3B0004
/-- `tam.tgen` (R265) -/
def tamTgen : Nat := 0x3B0005
/-- `tam.string_bad` (R265) -/
def tamStringBad : Nat := 0x3B1001
-- 10 R290
/-- `time.state` (R290) -/
def timeState : Nat := 0x120001
/-- `time.now` (R290) -/
def timeNow : Nat := 0x120002
/-- `time.wraps` (R290) -/
def timeWraps : Nat := 0x120003
/-- `time.err` (R290) -/
def timeErr : Nat := 0x120004
/-- `time.rate` (R290) -/
def timeRate : Nat := 0x120005
/-- `time.slew_lim` (R290) -/
def timeSlewLim : Nat := 0x120006
/-- `time.missed` (R290) -/
def timeMissed : Nat := 0x120007
/-- `time.unlocks` (R290) -/
def timeUnlocks : Nat := 0x120008
/-- `time.steps` (R290) -/
def timeSteps : Nat := 0x120009
/-- `time.lock_thr` (R290) -/
def timeLockThr : Nat := 0x120101
/-- `time.unlock_thr` (R290) -/
def timeUnlockThr : Nat := 0x120102
/-- `time.holdover` (R290) -/
def timeHoldover : Nat := 0x120103
/-- `time.cal_every` (R290) -/
def timeCalEvery : Nat := 0x120104
/-- `time.cvc_slew` (R290) -/
def timeCvcSlew : Nat := 0x120105
/-- `time.source` (R290) -/
def timeSource : Nat := 0x120201
/-- `time.cal_s` (R290) -/
def timeCalS : Nat := 0x120202
/-- `time.cal_ns` (R290) -/
def timeCalNs : Nat := 0x120203
/-- `time.cal_src` (R290) -/
def timeCalSrc : Nat := 0x120204
/-- `time.utc_offset` (R290) -/
def timeUtcOffset : Nat := 0x120205
/-- `time.epoch` (R290) -/
def timeEpoch : Nat := 0x120206
/-- `time.cal_new_s` (R290) -/
def timeCalNewS : Nat := 0x120207
/-- `time.cal_new_ns` (R290) -/
def timeCalNewNs : Nat := 0x120208
/-- `time.cal_apply` (R290) -/
def timeCalApply : Nat := 0x120209
/-- `time.ptp_step_thr` (R290) -/
def timePtpStepThr : Nat := 0x12020A
/-- `time.ptp_wait` (R290) -/
def timePtpWait : Nat := 0x12020B
/-- `time.cal_offset` (R290) -/
def timeCalOffset : Nat := 0x12020C
/-- `time.ptp_port` (R290) -/
def timePtpPort : Nat := 0x120301
/-- `time.ptp_port2` (R290) -/
def timePtpPort2 : Nat := 0x120302
/-- `time.ptp_domain` (R290) -/
def timePtpDomain : Nat := 0x120303
/-- `time.ptp_vlan` (R290) -/
def timePtpVlan : Nat := 0x120304
/-- `time.ptp_state` (R290) -/
def timePtpState : Nat := 0x120305
/-- `time.ptp_active` (R290) -/
def timePtpActive : Nat := 0x120306
/-- `time.ptp_offset` (R290) -/
def timePtpOffset : Nat := 0x120307
/-- `time.ptp_gm` (R290) -/
def timePtpGm : Nat := 0x120308
/-- `time.ptp_pdelay` (R290) -/
def timePtpPdelay : Nat := 0x120309
/-- `time.ptp_ignored` (R290) -/
def timePtpIgnored : Nat := 0x12030A
/-- `time.closure` (R290) -/
def timeClosure : Nat := 0x124001
/-- `time.closure_mode` (R290) -/
def timeClosureMode : Nat := 0x124101
/-- `time.closure_max` (R290) -/
def timeClosureMax : Nat := 0x124102
/-- `time.closure` (R290) -/
def timeClosureOwn : Nat := 0x125001
-- 10 R291
/-- `time.link_delay` (R291) -/
def timeLinkDelay : Nat := 0x128001
/-- `time.asym` (R291) -/
def timeAsym : Nat := 0x128002
/-- `time.asym_cal` (R291) -/
def timeAsymCal : Nat := 0x128003
/-- `time.exchanges` (R291) -/
def timeExchanges : Nat := 0x128004
-- 11 R325
/-- `rind.image_id` (R325) -/
def rindImageId : Nat := 0x600001
/-- `rind.image_crc` (R325) -/
def rindImageCrc : Nat := 0x600002
/-- `rind.xc_window` (R325) -/
def rindXcWindow : Nat := 0x600004
/-- `rind.xc_tol_i` (R325) -/
def rindXcTolI : Nat := 0x600005
/-- `rind.xc_tol_v` (R325) -/
def rindXcTolV : Nat := 0x600006
/-- `rind.xc_tol_w` (R325) -/
def rindXcTolW : Nat := 0x600007
/-- `rind.degraded_time` (R325) -/
def rindDegradedTime : Nat := 0x600008
/-- `rind.degraded_frac` (R325) -/
def rindDegradedFrac : Nat := 0x600009
/-- `rind.degrade_ramp` (R325) -/
def rindDegradeRamp : Nat := 0x60000A
/-- `rind.rep_miss` (R325) -/
def rindRepMiss : Nat := 0x60000B
/-- `rind.eval_at` (R325) -/
def rindEvalAt : Nat := 0x60000C
/-- `rind.cave_token` (R325) -/
def rindCaveToken : Nat := 0x60000D
/-- `rind.trip_hold` (R325) -/
def rindTripHold : Nat := 0x60000E
/-- `rind.slpd_transfer` (R325) -/
def rindSlpdTransfer : Nat := 0x60000F
-- 11 R326
/-- `rind.base_v` (R326) -/
def rindBaseV : Nat := 0x601001
/-- `rind.base_i` (R326) -/
def rindBaseI : Nat := 0x601002
/-- `rind.slac_i_lim` (R326) -/
def rindSlacILim : Nat := 0x601003
/-- `rind.slac_i_trip` (R326) -/
def rindSlacITrip : Nat := 0x601004
/-- `rind.slac_di_lim` (R326) -/
def rindSlacDiLim : Nat := 0x601005
/-- `rind.slac_di_trip` (R326) -/
def rindSlacDiTrip : Nat := 0x601006
/-- `rind.sldr_trip` (R326) -/
def rindSldrTrip : Nat := 0x601007
/-- `rind.sldr_span` (R326) -/
def rindSldrSpan : Nat := 0x601008
/-- `rind.slew_n` (R326) -/
def rindSlewN : Nat := 0x601009
/-- `rind.slew_lo` (R326) -/
def rindSlewLo : Nat := 0x60100A
/-- `rind.slew_hi` (R326) -/
def rindSlewHi : Nat := 0x60100B
/-- `rind.slew_cycles` (R326) -/
def rindSlewCycles : Nat := 0x60100C
/-- `rind.slpd_dir` (R326) -/
def rindSlpdDir : Nat := 0x60100D
/-- `rind.p_max` (R326) -/
def rindPMax : Nat := 0x60100E
/-- `rind.p_dead` (R326) -/
def rindPDead : Nat := 0x60100F
/-- `rind.slpd_cycles` (R326) -/
def rindSlpdCycles : Nat := 0x601010
/-- `rind.rep_gain` (R326) -/
def rindRepGain : Nat := 0x601011
/-- `rind.base_vcell` (R326) -/
def rindBaseVcell : Nat := 0x601012
-- 11 R327
/-- `rind.in_role` (R327) -/
def rindInRole : Nat := 0x602001
/-- `rind.in_gain` (R327) -/
def rindInGain : Nat := 0x602009
/-- `rind.dec` (R327) -/
def rindDec : Nat := 0x602011
/-- `rind.mclk_div` (R327) -/
def rindMclkDiv : Nat := 0x602012
/-- `rind.reporters` (R327) -/
def rindReporters : Nat := 0x603001
-- 11 R328
/-- `rind.sa_state` (R328) -/
def rindSaState : Nat := 0x610001
/-- `rind.sb_state` (R328) -/
def rindSbState : Nat := 0x610002
/-- `rind.sa_fault` (R328) -/
def rindSaFault : Nat := 0x610003
/-- `rind.sb_fault` (R328) -/
def rindSbFault : Nat := 0x610004
/-- `rind.trip_cause` (R328) -/
def rindTripCause : Nat := 0x610005
/-- `rind.trip_time` (R328) -/
def rindTripTime : Nat := 0x610006
/-- `rind.trips` (R328) -/
def rindTrips : Nat := 0x610007
/-- `rind.degraded_left` (R328) -/
def rindDegradedLeft : Nat := 0x610008
/-- `rind.xc_fails` (R328) -/
def rindXcFails : Nat := 0x610009
/-- `rind.out` (R328) -/
def rindOut : Nat := 0x61000A
/-- `rind.rep_missing` (R328) -/
def rindRepMissing : Nat := 0x61000C
-- 11 R329
/-- `rind.image_stage` (R329) -/
def rindImageStage : Nat := 0x5A4001
/-- `rind.image_arm` (R329) -/
def rindImageArm : Nat := 0x5A4002
/-- `rind.image_challenge` (R329) -/
def rindImageChallenge : Nat := 0x5A4003
/-- `rind.image_commit` (R329) -/
def rindImageCommit : Nat := 0x5A4004
/-- `rind.image_status` (R329) -/
def rindImageStatus : Nat := 0x5A4005
/-- `rind.image_reject` (R329) -/
def rindImageReject : Nat := 0x5A4006
-- 11 R330
/-- `ck.ctrl` (R330) -/
def ckCtrl : Nat := 0x5A0001
/-- `ck.start` (R330) -/
def ckStart : Nat := 0x5A0002
/-- `ck.length` (R330) -/
def ckLength : Nat := 0x5A0003
/-- `ck.expected` (R330) -/
def ckExpected : Nat := 0x5A0004
/-- `ck.result` (R330) -/
def ckResult : Nat := 0x5A0005
/-- `ck.alive` (R330) -/
def ckAlive : Nat := 0x5A0006
/-- `ck.mismatches` (R330) -/
def ckMismatches : Nat := 0x5A0007
/-- `ck.alive_max` (R330) -/
def ckAliveMax : Nat := 0x5A0008
-- 12 R354
/-- `fault.summary` (R354) -/
def faultSummary : Nat := 0x400001
/-- `fault.ack` (R354) -/
def faultAck : Nat := 0x400002
/-- `fault.npending` (R354) -/
def faultNpending : Nat := 0x400003
/-- `fault.emerg_clear` (R354) -/
def faultEmergClear : Nat := 0x400004
/-- `fault.poll` (R354) -/
def faultPoll : Nat := 0x400005
/-- `fault.grace` (R354) -/
def faultGrace : Nat := 0x400101
/-- `fault.grace` (R354) -/
def faultGrace7 : Nat := 0x400108
/-- `fault.sev` (R354) -/
def faultSev : Nat := 0x401001
/-- `fault.state` (R354) -/
def faultState : Nat := 0x401101
/-- `fault.count` (R354) -/
def faultCount : Nat := 0x401201
/-- `fault.param` (R354) -/
def faultParam : Nat := 0x401301
/-- `fault.pending` (R354) -/
def faultPending : Nat := 0x401401
/-- `fault.pending` (R354) -/
def faultPending1 : Nat := 0x401402
-- 12 R356
/-- `cave.sel` (R356) -/
def caveSel : Nat := 0x404001
/-- `cave.rec` (R356) -/
def caveRec : Nat := 0x404002
/-- `cave.first_seq` (R356) -/
def caveFirstSeq : Nat := 0x404003
/-- `cave.last_seq` (R356) -/
def caveLastSeq : Nat := 0x404004
/-- `cave.keep_used` (R356) -/
def caveKeepUsed : Nat := 0x404005
/-- `cave.circ_used` (R356) -/
def caveCircUsed : Nat := 0x404006
/-- `cave.overwritten` (R356) -/
def caveOverwritten : Nat := 0x404007
/-- `cave.lost` (R356) -/
def caveLost : Nat := 0x404008
/-- `cave.clear` (R356) -/
def caveClear : Nat := 0x404009
/-- `cave.fixed` (R356) -/
def caveFixed : Nat := 0x40400A
/-- `cave.form` (R356) -/
def caveForm : Nat := 0x40400B
/-- `cave.torn` (R356) -/
def caveTorn : Nat := 0x40400C
/-- `cave.seq_floor` (R356) -/
def caveSeqFloor : Nat := 0x40400D
-- 13 R376
/-- `acq.ctrl` (R376) -/
def acqCtrl : Nat := 0x480001
/-- `acq.state` (R376) -/
def acqState : Nat := 0x480002
/-- `acq.mode` (R376) -/
def acqMode : Nat := 0x480003
/-- `acq.depth` (R376) -/
def acqDepth : Nat := 0x480004
/-- `acq.pre` (R376) -/
def acqPre : Nat := 0x480005
/-- `acq.cyc_div` (R376) -/
def acqCycDiv : Nat := 0x480006
/-- `acq.obj_at` (R376) -/
def acqObjAt : Nat := 0x480007
/-- `acq.ev_sev` (R376) -/
def acqEvSev : Nat := 0x480008
/-- `acq.record` (R376) -/
def acqRecord : Nat := 0x480009
/-- `acq.bank` (R376) -/
def acqBank : Nat := 0x48000A
/-- `acq.seq_state` (R376) -/
def acqSeqState : Nat := 0x48000B
/-- `acq.rearm_ignored` (R376) -/
def acqRearmIgnored : Nat := 0x48000C
/-- `acq.rearm_first` (R376) -/
def acqRearmFirst : Nat := 0x48000D
/-- `acq.mask_mode` (R376) -/
def acqMaskMode : Nat := 0x48000E
/-- `acq.mask_span` (R376) -/
def acqMaskSpan : Nat := 0x48000F
/-- `acq.mask_post` (R376) -/
def acqMaskPost : Nat := 0x480010
/-- `acq.mask_en` (R376) -/
def acqMaskEn : Nat := 0x480011
/-- `acq.ch_src` (R376) -/
def acqChSrc : Nat := 0x481001
/-- `acq.ch_dec` (R376) -/
def acqChDec : Nat := 0x481101
/-- `acq.skew` (R376) -/
def acqSkew : Nat := 0x481201
/-- `acq.cond` (R376) -/
def acqCond : Nat := 0x482001
/-- `acq.cond_a` (R376) -/
def acqCondA : Nat := 0x482101
/-- `acq.cond_b` (R376) -/
def acqCondB : Nat := 0x482201
/-- `acq.st_delay` (R376) -/
def acqStDelay : Nat := 0x483001
/-- `acq.st_timeout` (R376) -/
def acqStTimeout : Nat := 0x483101
/-- `acq.st_tgoto` (R376) -/
def acqStTgoto : Nat := 0x483201
/-- `acq.mask` (R376) -/
def acqMask : Nat := 0x484001
/-- `acq.data` (R376) -/
def acqData : Nat := 0x486001
/-- `bs.mclk_div` (R376) -/
def bsMclkDiv : Nat := 0x488001
/-- `bs.dec` (R376) -/
def bsDec : Nat := 0x488002
/-- `bs.fault` (R376) -/
def bsFault : Nat := 0x488101
-- 13 R377
/-- `cap.src` (R377) -/
def capSrc : Nat := 0x490001
/-- `cap.rate` (R377) -/
def capRate : Nat := 0x490005
/-- `cap.pre` (R377) -/
def capPre : Nat := 0x490006
/-- `cap.trig` (R377) -/
def capTrig : Nat := 0x490007
/-- `cap.level` (R377) -/
def capLevel : Nat := 0x490008
/-- `cap.at` (R377) -/
def capAt : Nat := 0x490009
/-- `cap.ctrl` (R377) -/
def capCtrl : Nat := 0x49000A
/-- `cap.state` (R377) -/
def capState : Nat := 0x49000B
/-- `cap.trig_time` (R377) -/
def capTrigTime : Nat := 0x49000C
/-- `cap.first_time` (R377) -/
def capFirstTime : Nat := 0x49000D
/-- `cap.pre_valid` (R377) -/
def capPreValid : Nat := 0x49000E
/-- `cap.data` (R377) -/
def capData : Nat := 0x49000F
/-- `cap.flags` (R377) -/
def capFlags : Nat := 0x490010
/-- `cap.sev` (R377) -/
def capSev : Nat := 0x490011
/-- `cap.ignored` (R377) -/
def capIgnored : Nat := 0x490012
-- 14 R396
/-- `red.role` (R396) -/
def redRole : Nat := 0x500001
/-- `red.id` (R396) -/
def redId : Nat := 0x500002
/-- `red.aepoch` (R396) -/
def redAepoch : Nat := 0x500003
/-- `red.partner_role` (R396) -/
def redPartnerRole : Nat := 0x500004
/-- `red.partner_aepoch` (R396) -/
def redPartnerAepoch : Nat := 0x500005
/-- `red.paths` (R396) -/
def redPaths : Nat := 0x500006
/-- `red.sync_state` (R396) -/
def redSyncState : Nat := 0x500007
/-- `red.takeovers` (R396) -/
def redTakeovers : Nat := 0x500008
/-- `red.last_takeover` (R396) -/
def redLastTakeover : Nat := 0x500009
/-- `red.hubs_alleg` (R396) -/
def redHubsAlleg : Nat := 0x50000A
/-- `red.synced_at` (R396) -/
def redSyncedAt : Nat := 0x50000B
/-- `red.peer_silence` (R396) -/
def redPeerSilence : Nat := 0x500101
/-- `red.start_wait` (R396) -/
def redStartWait : Nat := 0x500102
/-- `red.quorum` (R396) -/
def redQuorum : Nat := 0x500103
/-- `red.cfg_crc` (R396) -/
def redCfgCrc : Nat := 0x500104
/-- `red.hb_missed_peer` (R396) -/
def redHbMissedPeer : Nat := 0x500201
/-- `red.hb_missed_hub` (R396) -/
def redHbMissedHub : Nat := 0x500202
/-- `red.dual_active` (R396) -/
def redDualActive : Nat := 0x500203
/-- `red.mirror_gaps` (R396) -/
def redMirrorGaps : Nat := 0x500204
/-- `red.mirror` (R396) -/
def redMirror : Nat := 0x501001
-- 14 R397
/-- `red.hub_silence` (R397) -/
def redHubSilence : Nat := 0x502001
/-- `red.hb_relayed` (R397) -/
def redHbRelayed : Nat := 0x502002
/-- `red.foreign_drops` (R397) -/
def redForeignDrops : Nat := 0x502003
/-- `red.overlap_left` (R397) -/
def redOverlapLeft : Nat := 0x502004
-- 14 R398
/-- `red.aepoch_latched` (R398) -/
def redAepochLatched : Nat := 0x504001
/-- `red.aepoch_low` (R398) -/
def redAepochLow : Nat := 0x504002
-- 15 R426
/-- `id.vendor` (R426) -/
def idVendor : Nat := 0x100001
/-- `id.part` (R426) -/
def idPart : Nat := 0x100002
/-- `id.step` (R426) -/
def idStep : Nat := 0x100003
/-- `id.serial` (R426) -/
def idSerial : Nat := 0x100004
/-- `id.fw` (R426) -/
def idFw : Nat := 0x100005
/-- `id.name` (R426) -/
def idName : Nat := 0x100006
-- 15 R427
/-- `hp.enable` (R427) -/
def hpEnable : Nat := 0x110001
/-- `hp.mac` (R427) -/
def hpMac : Nat := 0x110002
/-- `hp.ipv4` (R427) -/
def hpIpv4 : Nat := 0x110003
/-- `hp.prefix` (R427) -/
def hpPrefix : Nat := 0x110004
/-- `hp.gateway` (R427) -/
def hpGateway : Nat := 0x110005
/-- `hp.vlan` (R427) -/
def hpVlan : Nat := 0x110006
/-- `hp.rights` (R427) -/
def hpRights : Nat := 0x110007
/-- `hp.link` (R427) -/
def hpLink : Nat := 0x110008
/-- `hp.rx_gdp` (R427) -/
def hpRxGdp : Nat := 0x110009
/-- `hp.rx_other` (R427) -/
def hpRxOther : Nat := 0x11000A
/-- `hp.rx_drop` (R427) -/
def hpRxDrop : Nat := 0x11000B
/-- `hp.rx_err` (R427) -/
def hpRxErr : Nat := 0x11000C
/-- `hp.tx` (R427) -/
def hpTx : Nat := 0x11000D
/-- `hp.link_losses` (R427) -/
def hpLinkLosses : Nat := 0x11000E
-- 15 R428
/-- `gdp.lease` (R428) -/
def gdpLease : Nat := 0x111001
/-- `gdp.owner_rid` (R428) -/
def gdpOwnerRid : Nat := 0x111002
/-- `gdp.owner_prio` (R428) -/
def gdpOwnerPrio : Nat := 0x111003
/-- `gdp.owner_left` (R428) -/
def gdpOwnerLeft : Nat := 0x111004
/-- `gdp.owner_port` (R428) -/
def gdpOwnerPort : Nat := 0x111005
/-- `gdp.batch_state` (R428) -/
def gdpBatchState : Nat := 0x111006
/-- `gdp.batch_seq` (R428) -/
def gdpBatchSeq : Nat := 0x111007
/-- `gdp.batch_entries` (R428) -/
def gdpBatchEntries : Nat := 0x111008
/-- `gdp.sessions` (R428) -/
def gdpSessions : Nat := 0x111009
/-- `gdp.malformed` (R428) -/
def gdpMalformed : Nat := 0x11100A
/-- `gdp.out_of_seq` (R428) -/
def gdpOutOfSeq : Nat := 0x11100B
/-- `gdp.duplicates` (R428) -/
def gdpDuplicates : Nat := 0x11100C
/-- `gdp.claims_refused` (R428) -/
def gdpClaimsRefused : Nat := 0x11100D
/-- `gdp.lease_expiries` (R428) -/
def gdpLeaseExpiries : Nat := 0x11100E
/-- `gdp.batches_discarded` (R428) -/
def gdpBatchesDiscarded : Nat := 0x11100F
/-- `gdp.notify_dropped` (R428) -/
def gdpNotifyDropped : Nat := 0x111010
/-- `gdp.sub_life` (R428) -/
def gdpSubLife : Nat := 0x111011
-- 16 R452
/-- `rst.cause` (R452) -/
def rstCause : Nat := 0x580001
/-- `rst.held` (R452) -/
def rstHeld : Nat := 0x580002
/-- `rst.soft` (R452) -/
def rstSoft : Nat := 0x580003
/-- `rst.wdt_period` (R452) -/
def rstWdtPeriod : Nat := 0x580004
/-- `rst.starts` (R452) -/
def rstStarts : Nat := 0x580005
/-- `boot.status` (R452) -/
def bootStatus : Nat := 0x581001
/-- `boot.fw_load` (R452) -/
def bootFwLoad : Nat := 0x581002
/-- `boot.fw_slot` (R452) -/
def bootFwSlot : Nat := 0x581003
/-- `boot.fw_ver0` (R452) -/
def bootFwVer0 : Nat := 0x581004
/-- `boot.fw_ver1` (R452) -/
def bootFwVer1 : Nat := 0x581005
/-- `boot.verify_fail` (R452) -/
def bootVerifyFail : Nat := 0x581006
/-- `boot.key_revoke` (R452) -/
def bootKeyRevoke : Nat := 0x581007
/-- `boot.key_prog` (R452) -/
def bootKeyProg : Nat := 0x581008
/-- `boot.time_start` (R452) -/
def bootTimeStart : Nat := 0x58100A
/-- `boot.hub_wait` (R452) -/
def bootHubWait : Nat := 0x58100B
/-- `boot.disc_every` (R452) -/
def bootDiscEvery : Nat := 0x58100C
/-- `boot.keys` (R452) -/
def bootKeys : Nat := 0x58100D
/-- `store.save` (R452) -/
def storeSave : Nat := 0x582001
/-- `store.status` (R452) -/
def storeStatus : Nat := 0x582002
/-- `store.gen` (R452) -/
def storeGen : Nat := 0x582003
/-- `store.dirty` (R452) -/
def storeDirty : Nat := 0x582004
/-- `store.restore` (R452) -/
def storeRestore : Nat := 0x582005
/-- `store.count` (R452) -/
def storeCount : Nat := 0x582006
/-- `store.image` (R452) -/
def storeImage : Nat := 0x582007
-- 17 R467
/-- `pwr.tj` (R467) -/
def pwrTj : Nat := 0x5B0001
/-- `pwr.tj_max` (R467) -/
def pwrTjMax : Nat := 0x5B0002
/-- `pwr.rails` (R467) -/
def pwrRails : Nat := 0x5B0003
/-- `pwr.rail_events` (R467) -/
def pwrRailEvents : Nat := 0x5B0004
-- 09 R266
/-- `tam.tgen_latched` (R266) -/
def tamTgenLatched : Nat := 0x3B2001

end Sys2Proof.Machine.K
end

