-- ==== Sys2Proof/Machine/Num.lean ====
section
/-! DEFINITION. The arithmetic of the manual: rounding and saturation of PU32 (00_scope.md R12, R13), saturating
counters, the frame check CRC-32C (09 R246), the ordered set and slot check CRC-8 (08 R205, 09 R237) and the CRC-32
a check unit may compute (11 R319). -/

namespace Sys2Proof.Machine

/-- n ÷ d to the nearest whole number, exact halves to the even one (R13). -/
def rdiv (n : Int) (d : Nat) : Int :=
  let q := n / (d : Int)
  let r := n % (d : Int)
  if 2 * r < d then q else if (d : Int) < 2 * r then q + 1 else if q % 2 = 0 then q else q + 1

/-- n ÷ d to the nearest whole number, halves up (09 R237). -/
def rdivUp (n : Int) (d : Nat) : Int := (2 * n + d) / (2 * (d : Int))

/-- n ÷ d rounded to the nearest with halves to the even, for a signed divisor; 0 for a divisor of 0. -/
def rquot (n d : Int) : Int := if d = 0 then 0 else if d < 0 then rdiv (-n) d.natAbs else rdiv n d.natAbs

/-- The nearest value of a closed range. -/
def clampI (lo hi x : Int) : Int := if x < lo then lo else if hi < x then hi else x

/-- The largest PU32 step (R12). -/
def puMax : Int := 2147483647
/-- The smallest PU32 step (R12). -/
def puMin : Int := -2147483648
/-- 1.0 pu (R12). -/
def puOne : Int := 16777216

/-- Saturation at the PU32 limits (R13). -/
def satPU (x : Int) : Int := clampI puMin puMax x

/-- Saturation loses a value (the sticky flag of R13). -/
def satHit (x : Int) : Bool := decide (x < puMin) || decide (puMax < x)

/-- The rounded product of two PU32 values, before saturation (R13). -/
def puMulX (a b : Int) : Int := rdiv (a * b) 16777216

/-- The product of two PU32 values, rounded once and saturated (R13). -/
def puMul (a b : Int) : Int := satPU (puMulX a b)

/-- A saturating count of width w. -/
def satAdd (w : Nat) (x n : Int) : Int := if x + n < 2 ^ w then x + n else 2 ^ w - 1

/-- One byte into a reflected CRC register of polynomial p. -/
def crcRefByte (p : Nat) : Nat → Nat → Nat
  | 0, c => c
  | k + 1, c => crcRefByte p k (if c % 2 = 1 then (c >>> 1) ^^^ p else c >>> 1)

/-- CRC-32C of a byte list: generator 0x1EDC_6F41 reflected, initial value and final XOR all ones (09 R246). -/
def crc32c (bs : List Nat) : Nat :=
  (bs.foldl (fun c b => crcRefByte 0x82F63B78 8 (c ^^^ b)) 0xFFFFFFFF) ^^^ 0xFFFFFFFF

/-- CRC-32 of IEEE 802.3, the other choice of a check unit (11 R319). -/
def crc32 (bs : List Nat) : Nat :=
  (bs.foldl (fun c b => crcRefByte 0xEDB88320 8 (c ^^^ b)) 0xFFFFFFFF) ^^^ 0xFFFFFFFF

/-- One byte into the CRC-8 register, most significant bit first. -/
def crc8Byte : Nat → Nat → Nat
  | 0, c => c
  | k + 1, c => crc8Byte k (if c ≥ 128 then ((c * 2) % 256) ^^^ 7 else c * 2)

/-- CRC-8 of 08 R205: generator 0x07, initial value 0, no reflection, no final XOR. -/
def crc8 (bs : List Nat) : Nat := bs.foldl (fun c b => crc8Byte 8 (c ^^^ b)) 0

/-- The n bytes of a value, most significant first (R3). -/
def beBytes : Nat → Nat → List Nat
  | 0, _ => []
  | n + 1, x => (x >>> (8 * n)) % 256 :: beBytes n x

/-- The n bytes of a value, least significant first (R3). -/
def leBytes : Nat → Nat → List Nat
  | 0, _ => []
  | n + 1, x => x % 256 :: leBytes n (x >>> 8)

/-- The value of bytes, most significant first (R3). -/
def ofBe (bs : List Nat) : Nat := bs.foldl (fun a b => a * 256 + b) 0

/-- The value of bytes, least significant first (R3). -/
def ofLe : List Nat → Nat
  | [] => 0
  | b :: t => b + 256 * ofLe t

/-- The numbers a, a + 1, … , a + n − 1. -/
def rangeFrom (a : Nat) : Nat → List Nat
  | 0 => []
  | n + 1 => a :: rangeFrom (a + 1) n

/-- The smallest of a list of numbers, 0 for none. -/
def listMin (l : List Nat) : Nat := match l with | [] => 0 | x :: t => t.foldl min x
/-- The largest of a list of numbers, 0 for none. -/
def listMax (l : List Nat) : Nat := l.foldl max 0
/-- The sum of a list of integers. -/
def sumI (l : List Int) : Int := l.foldl (· + ·) 0

end Sys2Proof.Machine
end

