-- ==== Sys2Proof/Machine/Dictionary.lean ====
section
/-! DEFINITION. The object dictionary: every row of the manual's object tables (00_scope.md, Object tables), with the
type, access class, persistence class, default, range and longest value the row states. -/

namespace Sys2Proof.Machine

/-- The types of 15 R401, in the order of their codes. -/
inductive ObjType where
  | bool | u8 | u16 | u32 | u64 | i16 | i32 | i64 | pu32 | time64 | string | domain
  deriving DecidableEq, Repr

/-- The type code of 15 R401. -/
def ObjType.code : ObjType → Nat
  | .bool => 1 | .u8 => 2 | .u16 => 3 | .u32 => 4 | .u64 => 5 | .i16 => 6 | .i32 => 7 | .i64 => 8
  | .pu32 => 9 | .time64 => 10 | .string => 11 | .domain => 12

/-- Bytes of a value of the type; 0 for the types of varying length (15 R401). -/
def ObjType.size : ObjType → Nat
  | .bool => 1 | .u8 => 1 | .u16 => 2 | .u32 => 4 | .u64 => 8 | .i16 => 2 | .i32 => 4 | .i64 => 8
  | .pu32 => 4 | .time64 => 8 | .string => 0 | .domain => 0

/-- Whether the type is read in two's complement (15 R401). -/
def ObjType.isSigned : ObjType → Bool
  | .i16 | .i32 | .i64 | .pu32 => true
  | _ => false

/-- The access classes of 00_scope.md R6, in the order of their codes (15 R403). -/
inductive Acc where
  | ro | rw | wo | rws | rwc | rs
  deriving DecidableEq, Repr

/-- The access code of a descriptor (15 R403). -/
def Acc.code : Acc → Nat
  | .ro => 0 | .rw => 1 | .wo => 2 | .rws => 3 | .rwc => 4 | .rs => 5

/-- The persistence classes of 00_scope.md R8. -/
inductive Pers where
  | v | k | p
  deriving DecidableEq, Repr

/-- The persistence code of a descriptor (15 R403). -/
def Pers.code : Pers → Nat
  | .v => 0 | .k => 1 | .p => 2

/-- What an object's Meaning column permits (00_scope.md R5, R10). -/
inductive Range where
  /-- lo to hi -/
  | rng (lo hi : Int)
  /-- lo to hi in steps -/
  | mult (lo hi : Int) (step : Nat)
  /-- one value more than lo to hi -/
  | orVal (v lo hi : Int)
  /-- any value that sets none but these bits -/
  | mask (m : Nat)
  /-- a measurement source of a loop (04 R97); with or without 0xFFFF for none -/
  | measSrc (allowNone : Bool)
  /-- a slot table entry (09 R248): reserved references and bits refused -/
  | slotEntry
  deriving DecidableEq, Repr

/-- How many records or subindices a row stands for. -/
inductive Span where
  /-- n records of successive indices -/
  | arr (n : Nat)
  /-- one record per lane of the part (08 R225) -/
  | lanes
  /-- one record per slot table of the part (09 R264) -/
  | tables
  deriving DecidableEq, Repr

/-- One row of an object table. holders: bit 0 CVC, bit 1 hub, bit 2 cell. -/
structure ObjRow where
  idx : Nat
  sub : Nat
  subs : Nat
  span : Span
  holders : Nat
  ty : ObjType
  acc : Acc
  pers : Pers
  dflt : Int
  range : Range
  maxLen : Nat
  deriving DecidableEq, Repr


/-- Rows of indices 0x1000–0x10FF. -/
def dict10 : List ObjRow :=
  [⟨0x1000, 0x01, 1, .arr 1, 7, .u32, .ro, .p, 31281, .rng 0 4294967295, 4⟩,
   ⟨0x1000, 0x02, 1, .arr 1, 7, .u16, .ro, .p, 0, .rng 0 65535, 2⟩,
   ⟨0x1000, 0x03, 1, .arr 1, 7, .u8, .ro, .p, 176, .rng 0 255, 1⟩,
   ⟨0x1000, 0x04, 1, .arr 1, 7, .u64, .ro, .p, 0, .rng 0 18446744073709551615, 8⟩,
   ⟨0x1000, 0x05, 1, .arr 1, 7, .u32, .ro, .v, 0, .rng 0 4294967295, 4⟩,
   ⟨0x1000, 0x06, 1, .arr 1, 7, .string, .rw, .p, 0, .rng 0 0, 32⟩]

/-- Rows of indices 0x1100–0x11FF. -/
def dict11 : List ObjRow :=
  [⟨0x1100, 0x01, 1, .arr 5, 1, .u8, .rws, .p, 1, .rng 0 1, 1⟩,
   ⟨0x1100, 0x02, 1, .arr 5, 1, .u64, .ro, .p, 0, .rng 0 18446744073709551615, 8⟩,
   ⟨0x1100, 0x03, 1, .arr 5, 1, .u32, .rws, .p, 0, .rng 0 4294967295, 4⟩,
   ⟨0x1100, 0x04, 1, .arr 5, 1, .u8, .rws, .p, 24, .rng 8 30, 1⟩,
   ⟨0x1100, 0x05, 1, .arr 5, 1, .u32, .rws, .p, 0, .rng 0 4294967295, 4⟩,
   ⟨0x1100, 0x06, 1, .arr 5, 1, .u16, .rws, .p, 65535, .rng 0 65535, 2⟩,
   ⟨0x1100, 0x07, 1, .arr 5, 1, .u8, .rws, .p, 1, .rng 0 1, 1⟩,
   ⟨0x1100, 0x08, 1, .arr 5, 1, .bool, .ro, .v, 0, .rng 0 1, 1⟩,
   ⟨0x1100, 0x09, 1, .arr 5, 1, .u32, .ro, .v, 0, .rng 0 4294967295, 4⟩,
   ⟨0x1100, 0x0A, 1, .arr 5, 1, .u32, .ro, .v, 0, .rng 0 4294967295, 4⟩,
   ⟨0x1100, 0x0B, 1, .arr 5, 1, .u32, .ro, .v, 0, .rng 0 4294967295, 4⟩,
   ⟨0x1100, 0x0C, 1, .arr 5, 1, .u32, .ro, .v, 0, .rng 0 4294967295, 4⟩,
   ⟨0x1100, 0x0D, 1, .arr 5, 1, .u32, .ro, .v, 0, .rng 0 4294967295, 4⟩,
   ⟨0x1100, 0x0E, 1, .arr 5, 1, .u32, .ro, .v, 0, .rng 0 4294967295, 4⟩,
   ⟨0x1110, 0x01, 1, .arr 1, 1, .u16, .rw, .p, 200, .rng 50 10000, 2⟩,
   ⟨0x1110, 0x02, 1, .arr 1, 1, .u64, .ro, .v, 0, .rng 0 18446744073709551615, 8⟩,
   ⟨0x1110, 0x03, 1, .arr 1, 1, .u8, .ro, .v, 0, .rng 0 255, 1⟩,
   ⟨0x1110, 0x04, 1, .arr 1, 1, .u32, .ro, .v, 0, .rng 0 4294967295, 4⟩,
   ⟨0x1110, 0x05, 1, .arr 1, 1, .u8, .ro, .v, 255, .rng 0 255, 1⟩,
   ⟨0x1110, 0x06, 1, .arr 1, 1, .u8, .ro, .v, 0, .rng 0 255, 1⟩,
   ⟨0x1110, 0x07, 1, .arr 1, 1, .u32, .ro, .v, 0, .rng 0 4294967295, 4⟩,
   ⟨0x1110, 0x08, 1, .arr 1, 1, .u8, .ro, .v, 0, .rng 0 255, 1⟩,
   ⟨0x1110, 0x09, 1, .arr 1, 1, .u8, .ro, .v, 0, .rng 0 255, 1⟩,
   ⟨0x1110, 0x0A, 1, .arr 1, 1, .u32, .ro, .v, 0, .rng 0 4294967295, 4⟩,
   ⟨0x1110, 0x0B, 1, .arr 1, 1, .u32, .ro, .v, 0, .rng 0 4294967295, 4⟩,
   ⟨0x1110, 0x0C, 1, .arr 1, 1, .u32, .ro, .v, 0, .rng 0 4294967295, 4⟩,
   ⟨0x1110, 0x0D, 1, .arr 1, 1, .u32, .ro, .v, 0, .rng 0 4294967295, 4⟩,
   ⟨0x1110, 0x0E, 1, .arr 1, 1, .u32, .ro, .v, 0, .rng 0 4294967295, 4⟩,
   ⟨0x1110, 0x0F, 1, .arr 1, 1, .u32, .ro, .v, 0, .rng 0 4294967295, 4⟩,
   ⟨0x1110, 0x10, 1, .arr 1, 1, .u32, .ro, .v, 0, .rng 0 4294967295, 4⟩,
   ⟨0x1110, 0x11, 1, .arr 1, 1, .u32, .rw, .p, 10000, .rng 1000 3600000, 4⟩]

/-- Rows of indices 0x1200–0x12FF, part 1. -/
def dict12a : List ObjRow :=
  [⟨0x1200, 0x01, 1, .arr 1, 7, .u8, .ro, .v, 0, .rng 0 255, 1⟩,
   ⟨0x1200, 0x02, 1, .arr 1, 7, .time64, .ro, .v, 0, .rng 0 18446744073709551615, 8⟩,
   ⟨0x1200, 0x03, 1, .arr 1, 7, .u32, .ro, .v, 0, .rng 0 4294967295, 4⟩,
   ⟨0x1200, 0x04, 1, .arr 1, 7, .i32, .ro, .v, 0, .rng (-2147483648) 2147483647, 4⟩,
   ⟨0x1200, 0x05, 1, .arr 1, 7, .i32, .ro, .v, 0, .rng (-2147483648) 2147483647, 4⟩,
   ⟨0x1200, 0x06, 1, .arr 1, 7, .u32, .ro, .v, 0, .rng 0 4294967295, 4⟩,
   ⟨0x1200, 0x07, 1, .arr 1, 7, .u32, .ro, .v, 0, .rng 0 4294967295, 4⟩,
   ⟨0x1200, 0x08, 1, .arr 1, 7, .u32, .ro, .v, 0, .rng 0 4294967295, 4⟩,
   ⟨0x1200, 0x09, 1, .arr 1, 7, .u32, .ro, .v, 0, .rng 0 4294967295, 4⟩,
   ⟨0x1201, 0x01, 1, .arr 1, 7, .u32, .rws, .p, 2000, .rng 100 100000, 4⟩,
   ⟨0x1201, 0x02, 1, .arr 1, 7, .u32, .rws, .p, 50000, .rng 0 10000000, 4⟩,
   ⟨0x1201, 0x03, 1, .arr 1, 7, .u32, .rws, .p, 2000, .rng 1 1000000, 4⟩,
   ⟨0x1201, 0x04, 1, .arr 1, 7, .u16, .rws, .p, 1024, .rng 1 65535, 2⟩,
   ⟨0x1201, 0x05, 1, .arr 1, 1, .u16, .rws, .p, 1000, .rng 0 20000, 2⟩,
   ⟨0x1202, 0x01, 1, .arr 1, 1, .u8, .rws, .p, 1, .rng 0 1, 1⟩,
   ⟨0x1202, 0x02, 1, .arr 1, 1, .u64, .ro, .v, 0, .rng 0 18446744073709551615, 8⟩,
   ⟨0x1202, 0x03, 1, .arr 1, 1, .u32, .ro, .v, 0, .rng 0 4294967295, 4⟩,
   ⟨0x1202, 0x04, 1, .arr 1, 1, .u8, .ro, .v, 0, .rng 0 255, 1⟩,
   ⟨0x1202, 0x05, 1, .arr 1, 1, .i16, .rw, .p, 37, .rng (-1000) 1000, 2⟩,
   ⟨0x1202, 0x06, 1, .arr 1, 7, .u16, .ro, .p, 0, .rng 0 65535, 2⟩,
   ⟨0x1202, 0x07, 1, .arr 1, 1, .u64, .rwc, .v, 0, .rng 0 281474976710655, 8⟩,
   ⟨0x1202, 0x08, 1, .arr 1, 1, .u32, .rwc, .v, 0, .rng 0 999999999, 4⟩,
   ⟨0x1202, 0x09, 1, .arr 1, 1, .u8, .wo, .v, 0, .rng 1 1, 1⟩,
   ⟨0x1202, 0x0A, 1, .arr 1, 1, .u32, .rw, .p, 1000000, .rng 1000 1000000000, 4⟩,
   ⟨0x1202, 0x0B, 1, .arr 1, 1, .u32, .rws, .p, 10000, .rng 0 600000, 4⟩,
   ⟨0x1202, 0x0C, 1, .arr 1, 1, .i64, .ro, .v, 0, .rng (-9223372036854775808) 9223372036854775807, 8⟩,
   ⟨0x1203, 0x01, 1, .arr 1, 1, .u8, .rws, .p, 0, .rng 0 3, 1⟩,
   ⟨0x1203, 0x02, 1, .arr 1, 1, .u8, .rws, .p, 255, .orVal 255 0 3, 1⟩,
   ⟨0x1203, 0x03, 1, .arr 1, 1, .u8, .rws, .p, 0, .rng 0 127, 1⟩,
   ⟨0x1203, 0x04, 1, .arr 1, 1, .u16, .rws, .p, 65535, .rng 0 65535, 2⟩,
   ⟨0x1203, 0x05, 1, .arr 1, 1, .u8, .ro, .v, 1, .rng 0 255, 1⟩,
   ⟨0x1203, 0x06, 1, .arr 1, 1, .u8, .ro, .v, 255, .rng 0 255, 1⟩,
   ⟨0x1203, 0x07, 1, .arr 1, 1, .i32, .ro, .v, 0, .rng (-2147483648) 2147483647, 4⟩,
   ⟨0x1203, 0x08, 1, .arr 1, 1, .u64, .ro, .v, 0, .rng 0 18446744073709551615, 8⟩,
   ⟨0x1203, 0x09, 1, .arr 1, 1, .u32, .ro, .v, 0, .rng 0 4294967295, 4⟩,
   ⟨0x1203, 0x0A, 1, .arr 1, 1, .u32, .ro, .v, 0, .rng 0 4294967295, 4⟩,
   ⟨0x1240, 0x01, 192, .arr 1, 1, .i32, .ro, .v, 2147483647, .rng (-2147483648) 2147483647, 4⟩,
   ⟨0x1241, 0x01, 1, .arr 1, 1, .u8, .rws, .p, 0, .rng 0 1, 1⟩,
   ⟨0x1241, 0x02, 1, .arr 1, 1, .u32, .rw, .p, 2000, .rng 10 1000000, 4⟩,
   ⟨0x1250, 0x01, 1, .arr 1, 4, .i32, .ro, .v, 2147483647, .rng (-2147483648) 2147483647, 4⟩]

/-- Rows of indices 0x1200–0x12FF, part 2. -/
def dict12b : List ObjRow :=
  [⟨0x1280, 0x01, 1, .lanes, 7, .u32, .ro, .v, 0, .rng 0 4294967295, 4⟩,
   ⟨0x1280, 0x02, 1, .lanes, 7, .i32, .rws, .p, 0, .rng (-100000) 100000, 4⟩,
   ⟨0x1280, 0x03, 1, .lanes, 7, .i32, .ro, .v, 0, .rng (-2147483648) 2147483647, 4⟩,
   ⟨0x1280, 0x04, 1, .lanes, 7, .u32, .ro, .v, 0, .rng 0 4294967295, 4⟩]

/-- Rows of indices 0x1200–0x12FF. -/
def dict12 : List ObjRow := dict12a ++ dict12b

/-- Rows of indices 0x2000–0x20FF, part 1. -/
def dict20a : List ObjRow :=
  [⟨0x2010, 0x01, 1, .arr 1, 1, .u8, .rws, .p, 0, .rng 0 1, 1⟩,
   ⟨0x2010, 0x02, 1, .arr 1, 1, .u8, .rws, .p, 0, .rng 0 1, 1⟩,
   ⟨0x2010, 0x03, 1, .arr 1, 1, .u8, .rws, .p, 0, .rng 0 255, 1⟩,
   ⟨0x2010, 0x04, 1, .arr 1, 1, .u8, .ro, .v, 0, .rng 0 255, 1⟩,
   ⟨0x2011, 0x01, 192, .arr 1, 1, .u8, .rws, .p, 255, .orVal 255 0 11, 1⟩,
   ⟨0x2012, 0x01, 12, .arr 1, 1, .u16, .ro, .v, 0, .rng 0 65535, 2⟩,
   ⟨0x2012, 0x0D, 12, .arr 1, 1, .u8, .ro, .v, 0, .rng 0 255, 1⟩,
   ⟨0x2013, 0x01, 1, .arr 1, 1, .u32, .ro, .v, 0, .rng 0 4294967295, 4⟩,
   ⟨0x2013, 0x02, 1, .arr 1, 1, .u32, .ro, .v, 0, .rng 0 4294967295, 4⟩,
   ⟨0x2013, 0x03, 1, .arr 1, 1, .u8, .ro, .v, 0, .rng 0 255, 1⟩,
   ⟨0x2013, 0x04, 1, .arr 1, 1, .u16, .ro, .v, 0, .rng 0 65535, 2⟩,
   ⟨0x2000, 0x01, 1, .arr 1, 1, .u32, .rws, .p, 5000, .mult 2500 100000 5, 4⟩,
   ⟨0x2000, 0x02, 1, .arr 1, 1, .u32, .rws, .p, 3600, .mult 2200 200000 5, 4⟩,
   ⟨0x2000, 0x03, 1, .arr 1, 1, .u32, .rws, .p, 800, .rng 100 50000, 4⟩,
   ⟨0x2000, 0x04, 1, .arr 1, 1, .u8, .rws, .p, 0, .rng 0 1, 1⟩,
   ⟨0x2000, 0x05, 1, .arr 1, 1, .u8, .rw, .p, 4, .rng 1 255, 1⟩,
   ⟨0x2000, 0x06, 1, .arr 1, 1, .u16, .rw, .p, 16, .rng 1 65535, 2⟩,
   ⟨0x2001, 0x01, 1, .arr 1, 1, .u32, .ro, .v, 0, .rng 0 4294967295, 4⟩,
   ⟨0x2001, 0x02, 1, .arr 1, 1, .u32, .ro, .v, 0, .rng 0 4294967295, 4⟩,
   ⟨0x2001, 0x03, 1, .arr 1, 1, .u32, .ro, .v, 0, .rng 0 4294967295, 4⟩,
   ⟨0x2001, 0x04, 1, .arr 1, 1, .u32, .ro, .v, 0, .rng 0 4294967295, 4⟩,
   ⟨0x2002, 0x01, 1, .arr 1, 1, .u64, .ro, .v, 0, .rng 0 18446744073709551615, 8⟩,
   ⟨0x2002, 0x02, 1, .arr 1, 1, .u8, .ro, .v, 0, .rng 0 255, 1⟩,
   ⟨0x2002, 0x03, 1, .arr 1, 1, .time64, .ro, .v, 0, .rng 0 18446744073709551615, 8⟩,
   ⟨0x2002, 0x04, 1, .arr 1, 1, .u32, .ro, .v, 0, .rng 0 4294967295, 4⟩,
   ⟨0x2002, 0x05, 1, .arr 1, 1, .u16, .ro, .v, 0, .rng 0 65535, 2⟩,
   ⟨0x2002, 0x06, 1, .arr 1, 1, .u32, .ro, .v, 0, .rng 0 4294967295, 4⟩,
   ⟨0x2002, 0x07, 1, .arr 1, 1, .u32, .ro, .v, 0, .rng 0 4294967295, 4⟩,
   ⟨0x2020, 0x01, 1, .arr 1, 1, .u8, .ro, .v, 1, .rng 0 255, 1⟩,
   ⟨0x2020, 0x02, 1, .arr 1, 1, .u8, .wo, .v, 0, .rng 1 5, 1⟩,
   ⟨0x2020, 0x03, 1, .arr 1, 1, .u8, .ro, .v, 0, .rng 0 255, 1⟩,
   ⟨0x2020, 0x04, 1, .arr 1, 1, .u16, .ro, .v, 0, .rng 0 65535, 2⟩,
   ⟨0x2020, 0x05, 1, .arr 1, 1, .time64, .ro, .v, 0, .rng 0 18446744073709551615, 8⟩,
   ⟨0x2020, 0x06, 1, .arr 1, 1, .u8, .ro, .v, 0, .rng 0 255, 1⟩,
   ⟨0x2020, 0x07, 1, .arr 1, 1, .u16, .ro, .v, 0, .rng 0 65535, 2⟩,
   ⟨0x2021, 0x01, 1, .arr 1, 1, .pu32, .rws, .p, 13421773, .rng 1677722 20132659, 4⟩,
   ⟨0x2021, 0x02, 1, .arr 1, 1, .pu32, .rws, .p, 8388608, .rng 0 20132659, 4⟩,
   ⟨0x2021, 0x03, 1, .arr 1, 1, .u32, .rws, .p, 10000, .rng 100 600000, 4⟩,
   ⟨0x2030, 0x01, 1, .arr 1, 1, .u32, .rws, .p, 0, .rng 0 4294967295, 4⟩,
   ⟨0x2030, 0x02, 1, .arr 1, 1, .u32, .rws, .p, 0, .rng 0 4294967295, 4⟩]

/-- Rows of indices 0x2000–0x20FF, part 2. -/
def dict20b : List ObjRow :=
  [⟨0x2030, 0x03, 1, .arr 1, 1, .u32, .rws, .p, 0, .rng 0 4294967295, 4⟩,
   ⟨0x2030, 0x04, 1, .arr 1, 1, .u32, .rws, .p, 0, .rng 0 4294967295, 4⟩,
   ⟨0x2030, 0x05, 1, .arr 1, 1, .u32, .rws, .p, 0, .rng 0 10000000, 4⟩,
   ⟨0x2030, 0x06, 1, .arr 1, 1, .u32, .rws, .p, 0, .rng 0 10000000, 4⟩,
   ⟨0x2040, 0x01, 1, .arr 1, 4, .u8, .rws, .p, 8, .rng 1 255, 1⟩,
   ⟨0x2040, 0x02, 1, .arr 1, 4, .u8, .rws, .p, 0, .rng 0 1, 1⟩,
   ⟨0x2040, 0x03, 1, .arr 1, 4, .u32, .ro, .v, 0, .rng 0 4294967295, 4⟩,
   ⟨0x2040, 0x04, 1, .arr 1, 4, .i32, .ro, .v, 2147483647, .rng (-2147483648) 2147483647, 4⟩,
   ⟨0x2040, 0x05, 1, .arr 1, 4, .bool, .ro, .v, 0, .rng 0 1, 1⟩,
   ⟨0x2050, 0x01, 1, .arr 1, 4, .u32, .rws, .p, 0, .orVal 0 1000 1000000000, 4⟩]

/-- Rows of indices 0x2000–0x20FF. -/
def dict20 : List ObjRow := dict20a ++ dict20b

/-- Rows of indices 0x2400–0x24FF, part 1. -/
def dict24a : List ObjRow :=
  [⟨0x2410, 0x01, 1, .arr 2, 1, .u8, .rws, .p, 0, .rng 0 1, 1⟩,
   ⟨0x2410, 0x02, 1, .arr 2, 1, .u32, .rwc, .p, 5000, .rng 0 200000, 4⟩,
   ⟨0x2410, 0x03, 1, .arr 2, 1, .u32, .rwc, .p, 20000, .rng 0 1000000, 4⟩,
   ⟨0x2410, 0x04, 1, .arr 2, 1, .u16, .rwc, .p, 256, .rng 0 65535, 2⟩,
   ⟨0x2410, 0x05, 1, .arr 2, 1, .u16, .rwc, .p, 0, .rng 0 65535, 2⟩,
   ⟨0x2410, 0x06, 1, .arr 2, 1, .u16, .rwc, .p, 1, .rng 0 65535, 2⟩,
   ⟨0x2410, 0x07, 1, .arr 2, 1, .u32, .rwc, .p, 2048, .rng 1 4294967295, 4⟩,
   ⟨0x2410, 0x08, 1, .arr 2, 1, .u32, .rwc, .p, 2000, .rng 0 1000000, 4⟩,
   ⟨0x2410, 0x09, 1, .arr 2, 1, .u8, .rws, .p, 0, .rng 0 1, 1⟩,
   ⟨0x2410, 0x0A, 1, .arr 2, 1, .u8, .rws, .p, 1, .rng 0 2, 1⟩,
   ⟨0x2410, 0x0B, 1, .arr 2, 1, .pu32, .rwc, .p, 262144, .rng 0 4194304, 4⟩,
   ⟨0x2410, 0x0C, 1, .arr 2, 1, .u16, .rwc, .p, 2000, .rng 0 65535, 2⟩,
   ⟨0x2410, 0x0D, 1, .arr 2, 1, .u16, .rwc, .p, 200, .rng 0 65535, 2⟩,
   ⟨0x2410, 0x0E, 1, .arr 2, 1, .pu32, .rwc, .p, 19293798, .rng 8388608 33554432, 4⟩,
   ⟨0x2410, 0x0F, 1, .arr 2, 1, .pu32, .rwc, .p, 8388608, .rng 0 25165824, 4⟩,
   ⟨0x2410, 0x10, 1, .arr 2, 1, .u8, .rwc, .p, 1, .rng 0 8, 1⟩,
   ⟨0x2410, 0x11, 1, .arr 2, 1, .u32, .rws, .p, 0, .orVal 0 1000 1000000000, 4⟩,
   ⟨0x2410, 0x12, 1, .arr 2, 1, .u16, .rw, .p, 0, .rng 0 768, 2⟩,
   ⟨0x2410, 0x13, 1, .arr 2, 1, .u32, .rwc, .p, 5000, .rng 1000 100000, 4⟩,
   ⟨0x2412, 0x01, 1, .arr 1, 1, .u8, .wo, .v, 0, .rng 1 1, 1⟩,
   ⟨0x2412, 0x02, 1, .arr 1, 1, .u8, .wo, .v, 0, .rng 1 1, 1⟩,
   ⟨0x2420, 0x01, 12, .arr 1, 1, .pu32, .ro, .v, 0, .rng (-2147483648) 2147483647, 4⟩,
   ⟨0x2421, 0x01, 12, .arr 1, 1, .i16, .ro, .v, 0, .rng (-32768) 32767, 2⟩,
   ⟨0x2422, 0x01, 12, .arr 1, 1, .pu32, .ro, .v, 0, .rng (-2147483648) 2147483647, 4⟩,
   ⟨0x2423, 0x01, 12, .arr 1, 1, .u16, .ro, .v, 0, .rng 0 65535, 2⟩,
   ⟨0x2424, 0x01, 12, .arr 1, 1, .u16, .ro, .v, 0, .rng 0 65535, 2⟩,
   ⟨0x2425, 0x01, 12, .arr 1, 1, .u16, .ro, .v, 0, .rng 0 65535, 2⟩,
   ⟨0x2426, 0x01, 12, .arr 1, 1, .u16, .wo, .v, 0, .mask 255, 2⟩,
   ⟨0x2427, 0x01, 12, .arr 1, 1, .u32, .ro, .v, 0, .rng 0 4294967295, 4⟩,
   ⟨0x2428, 0x01, 12, .arr 1, 1, .u32, .ro, .v, 0, .rng 0 4294967295, 4⟩,
   ⟨0x2429, 0x01, 12, .arr 1, 1, .u32, .ro, .v, 4294967295, .rng 0 4294967295, 4⟩,
   ⟨0x242A, 0x01, 12, .arr 1, 1, .u32, .ro, .v, 0, .rng 0 4294967295, 4⟩,
   ⟨0x242B, 0x01, 12, .arr 1, 1, .u32, .ro, .v, 0, .rng 0 4294967295, 4⟩,
   ⟨0x242C, 0x01, 12, .arr 1, 1, .u8, .ro, .v, 0, .rng 0 255, 1⟩,
   ⟨0x2430, 0x01, 1, .arr 1, 1, .u16, .rw, .v, 0, .rng 0 12271, 2⟩,
   ⟨0x2430, 0x02, 1, .arr 1, 1, .pu32, .ro, .v, 0, .rng (-2147483648) 2147483647, 4⟩,
   ⟨0x2430, 0x03, 1, .arr 1, 1, .pu32, .ro, .v, 0, .rng (-2147483648) 2147483647, 4⟩,
   ⟨0x2430, 0x04, 1, .arr 1, 1, .u32, .ro, .v, 0, .rng 0 4294967295, 4⟩,
   ⟨0x2430, 0x05, 1, .arr 1, 1, .u8, .ro, .v, 0, .rng 0 255, 1⟩,
   ⟨0x2430, 0x06, 1, .arr 1, 1, .u16, .ro, .v, 0, .rng 0 65535, 2⟩]

/-- Rows of indices 0x2400–0x24FF, part 2. -/
def dict24b : List ObjRow :=
  [⟨0x2430, 0x07, 1, .arr 1, 1, .u16, .ro, .v, 0, .rng 0 65535, 2⟩,
   ⟨0x2430, 0x08, 1, .arr 1, 1, .u32, .ro, .v, 0, .rng 0 4294967295, 4⟩]

/-- Rows of indices 0x2400–0x24FF. -/
def dict24 : List ObjRow := dict24a ++ dict24b

/-- Rows of indices 0x2500–0x25FF, part 1. -/
def dict25a : List ObjRow :=
  [⟨0x2500, 0x01, 1, .arr 12, 1, .u16, .rws, .p, 0, .measSrc false, 2⟩,
   ⟨0x2500, 0x02, 1, .arr 12, 1, .u16, .rws, .p, 65535, .measSrc true, 2⟩,
   ⟨0x2500, 0x03, 1, .arr 12, 1, .pu32, .rws, .p, 0, .rng (-2147483648) 2147483647, 4⟩,
   ⟨0x2500, 0x04, 1, .arr 12, 1, .u8, .rws, .p, 0, .rng 0 1, 1⟩,
   ⟨0x2500, 0x05, 1, .arr 12, 1, .pu32, .rw, .v, 0, .rng (-25165824) 25165824, 4⟩,
   ⟨0x2500, 0x06, 1, .arr 12, 1, .pu32, .rwc, .p, 16777216, .rng 1 33554432, 4⟩,
   ⟨0x2500, 0x07, 1, .arr 12, 1, .pu32, .rwc, .p, 16777, .rng 1 16777216, 4⟩,
   ⟨0x2500, 0x08, 1, .arr 12, 1, .pu32, .rwc, .p, 0, .rng (-2147483648) 2147483647, 4⟩,
   ⟨0x2500, 0x09, 1, .arr 12, 1, .pu32, .rwc, .p, 0, .rng (-2147483648) 2147483647, 4⟩,
   ⟨0x2500, 0x0A, 1, .arr 12, 1, .pu32, .rwc, .p, 16777216, .rng (-2147483648) 2147483647, 4⟩,
   ⟨0x2500, 0x0B, 1, .arr 12, 1, .pu32, .rwc, .p, (-16777216), .rng (-2147483648) 2147483647, 4⟩,
   ⟨0x2500, 0x0C, 1, .arr 12, 1, .pu32, .rwc, .p, 0, .rng (-2147483648) 2147483647, 4⟩,
   ⟨0x2500, 0x0D, 1, .arr 12, 1, .u8, .rwc, .p, 1, .rng 0 1, 1⟩,
   ⟨0x2500, 0x0E, 1, .arr 12, 1, .u8, .rwc, .p, 0, .rng 0 15, 1⟩,
   ⟨0x2500, 0x0F, 1, .arr 12, 1, .u8, .rws, .p, 0, .rng 0 1, 1⟩,
   ⟨0x2500, 0x10, 1, .arr 12, 1, .pu32, .rwc, .p, 16777216, .rng (-2147483648) 2147483647, 4⟩,
   ⟨0x2500, 0x11, 1, .arr 12, 1, .pu32, .rwc, .p, 16777216, .rng (-2147483648) 2147483647, 4⟩,
   ⟨0x2500, 0x12, 1, .arr 12, 1, .pu32, .rwc, .p, (-16777216), .rng (-2147483648) 2147483647, 4⟩,
   ⟨0x2500, 0x13, 1, .arr 12, 1, .u8, .rws, .p, 0, .rng 0 1, 1⟩,
   ⟨0x2500, 0x14, 1, .arr 12, 1, .pu32, .rwc, .p, 3355443, .rng 0 16777216, 4⟩,
   ⟨0x2500, 0x15, 1, .arr 12, 1, .u16, .rw, .p, 200, .rng 1 65535, 2⟩,
   ⟨0x2500, 0x18, 5, .arr 12, 1, .pu32, .rwc, .p, 0, .rng (-2147483648) 2147483647, 4⟩,
   ⟨0x2500, 0x1D, 5, .arr 12, 1, .pu32, .rwc, .p, 0, .rng (-2147483648) 2147483647, 4⟩,
   ⟨0x2500, 0x22, 5, .arr 12, 1, .pu32, .rwc, .p, 0, .rng (-2147483648) 2147483647, 4⟩,
   ⟨0x2500, 0x27, 5, .arr 12, 1, .pu32, .rwc, .p, 0, .rng (-2147483648) 2147483647, 4⟩,
   ⟨0x2510, 0x01, 12, .arr 1, 1, .u8, .wo, .v, 0, .rng 1 3, 1⟩,
   ⟨0x2520, 0x01, 12, .arr 1, 1, .pu32, .ro, .v, 0, .rng (-2147483648) 2147483647, 4⟩,
   ⟨0x2521, 0x01, 12, .arr 1, 1, .pu32, .ro, .v, 0, .rng (-2147483648) 2147483647, 4⟩,
   ⟨0x2522, 0x01, 12, .arr 1, 1, .pu32, .ro, .v, 0, .rng (-2147483648) 2147483647, 4⟩,
   ⟨0x2523, 0x01, 12, .arr 1, 1, .pu32, .ro, .v, 0, .rng (-2147483648) 2147483647, 4⟩,
   ⟨0x2524, 0x01, 12, .arr 1, 1, .pu32, .ro, .v, 0, .rng (-2147483648) 2147483647, 4⟩,
   ⟨0x2525, 0x01, 12, .arr 1, 1, .u16, .ro, .v, 0, .rng 0 65535, 2⟩,
   ⟨0x2526, 0x01, 12, .arr 1, 1, .u16, .ro, .v, 0, .rng 0 65535, 2⟩,
   ⟨0x2527, 0x01, 12, .arr 1, 1, .u16, .wo, .v, 0, .rng 0 65535, 2⟩,
   ⟨0x2528, 0x01, 12, .arr 1, 1, .u32, .ro, .v, 0, .rng 0 4294967295, 4⟩,
   ⟨0x2529, 0x01, 12, .arr 1, 1, .u32, .ro, .v, 0, .rng 0 4294967295, 4⟩,
   ⟨0x252A, 0x01, 12, .arr 1, 1, .pu32, .ro, .v, 0, .rng (-2147483648) 2147483647, 4⟩,
   ⟨0x252B, 0x01, 12, .arr 1, 1, .pu32, .ro, .v, 0, .rng (-2147483648) 2147483647, 4⟩,
   ⟨0x252C, 0x01, 12, .arr 1, 1, .u32, .ro, .v, 0, .rng 0 4294967295, 4⟩,
   ⟨0x252D, 0x01, 12, .arr 1, 1, .u16, .ro, .v, 0, .rng 0 65535, 2⟩]

/-- Rows of indices 0x2500–0x25FF, part 2. -/
def dict25b : List ObjRow :=
  [⟨0x2540, 0x01, 1, .arr 1, 1, .u16, .rw, .v, 0, .rng 0 4095, 2⟩,
   ⟨0x2540, 0x02, 1, .arr 1, 1, .u8, .rw, .v, 0, .rng 0 1, 1⟩,
   ⟨0x2540, 0x03, 1, .arr 1, 1, .u8, .rw, .v, 0, .rng 0 2, 1⟩,
   ⟨0x2540, 0x04, 1, .arr 1, 1, .pu32, .rw, .v, 0, .rng 0 16777216, 4⟩,
   ⟨0x2540, 0x05, 1, .arr 1, 1, .u32, .rw, .v, 1000000, .rng 0 4294967295, 4⟩,
   ⟨0x2540, 0x06, 1, .arr 1, 1, .u32, .rw, .v, 10000000, .rng 0 4294967295, 4⟩,
   ⟨0x2540, 0x07, 1, .arr 1, 1, .u16, .rw, .v, 21, .rng 2 1024, 2⟩,
   ⟨0x2540, 0x08, 1, .arr 1, 1, .u8, .rw, .v, 1, .rng 0 1, 1⟩,
   ⟨0x2540, 0x09, 1, .arr 1, 1, .u32, .rw, .v, 2000, .rng 0 10000000, 4⟩,
   ⟨0x2540, 0x0A, 1, .arr 1, 1, .u32, .rw, .v, 4000, .rng 1 10000000, 4⟩,
   ⟨0x2540, 0x0B, 1, .arr 1, 1, .u8, .rw, .v, 11, .rng 7 15, 1⟩,
   ⟨0x2540, 0x0C, 1, .arr 1, 1, .u8, .rw, .v, 1, .rng 1 255, 1⟩,
   ⟨0x2540, 0x0D, 1, .arr 1, 1, .u16, .rw, .v, 1, .rng 0 65535, 2⟩,
   ⟨0x2540, 0x0E, 1, .arr 1, 1, .u32, .rw, .v, 0, .rng 0 4294967295, 4⟩,
   ⟨0x2540, 0x0F, 1, .arr 1, 1, .u8, .wo, .v, 0, .rng 1 2, 1⟩,
   ⟨0x2540, 0x10, 1, .arr 1, 1, .u8, .ro, .v, 0, .rng 0 255, 1⟩,
   ⟨0x2540, 0x11, 1, .arr 1, 1, .u64, .ro, .v, 0, .rng 0 18446744073709551615, 8⟩,
   ⟨0x2540, 0x12, 1, .arr 1, 1, .u16, .ro, .v, 0, .rng 0 65535, 2⟩,
   ⟨0x2540, 0x13, 1, .arr 1, 1, .u8, .rw, .v, 1, .rng 0 1, 1⟩]

/-- Rows of indices 0x2500–0x25FF. -/
def dict25 : List ObjRow := dict25a ++ dict25b

/-- Rows of indices 0x2800–0x28FF. -/
def dict28 : List ObjRow :=
  [⟨0x2800, 0x01, 1, .arr 1, 4, .u32, .rws, .p, 1000, .rng 10 100000, 4⟩,
   ⟨0x2800, 0x02, 1, .arr 1, 4, .u16, .rws, .p, 9000, .rng 7000 30000, 2⟩,
   ⟨0x2800, 0x03, 1, .arr 1, 4, .u16, .rws, .p, 100, .rng 10 10000, 2⟩,
   ⟨0x2800, 0x04, 1, .arr 1, 4, .u32, .rws, .p, 4000, .rng 0 1000000, 4⟩,
   ⟨0x2800, 0x05, 1, .arr 1, 4, .u32, .rws, .p, 6000, .rng 300 1000000, 4⟩,
   ⟨0x2800, 0x06, 1, .arr 1, 4, .u32, .rws, .p, 3000, .rng 0 1000000, 4⟩,
   ⟨0x2800, 0x07, 1, .arr 1, 4, .u8, .rws, .p, 1, .rng 0 1, 1⟩,
   ⟨0x2800, 0x08, 1, .arr 1, 4, .u16, .rws, .p, 100, .rng 0 10000, 2⟩,
   ⟨0x2801, 0x01, 1, .arr 1, 4, .u32, .rws, .p, 80, .rng 1 100000, 4⟩,
   ⟨0x2801, 0x02, 1, .arr 1, 4, .u32, .rws, .p, 70, .rng 1 100000, 4⟩,
   ⟨0x2801, 0x03, 1, .arr 1, 4, .u32, .rws, .p, 4, .rng 1 100000, 4⟩,
   ⟨0x2801, 0x04, 1, .arr 1, 4, .u32, .rws, .p, 50, .rng 1 100000, 4⟩,
   ⟨0x2801, 0x05, 1, .arr 1, 4, .u32, .rws, .p, 1, .rng 1 1000, 4⟩,
   ⟨0x2801, 0x06, 1, .arr 1, 4, .u32, .rws, .p, 1500, .rng 1 100000, 4⟩,
   ⟨0x2801, 0x07, 1, .arr 1, 4, .u32, .rws, .p, 400, .rng 1 5000, 4⟩,
   ⟨0x2810, 0x01, 1, .arr 1, 4, .u16, .ro, .v, 0, .rng 0 65535, 2⟩,
   ⟨0x2810, 0x02, 1, .arr 1, 4, .u32, .ro, .v, 0, .rng 0 4294967295, 4⟩,
   ⟨0x2810, 0x03, 1, .arr 1, 4, .u32, .ro, .v, 0, .rng 0 4294967295, 4⟩,
   ⟨0x2810, 0x04, 1, .arr 1, 4, .i32, .ro, .v, 0, .rng (-2147483648) 2147483647, 4⟩,
   ⟨0x2810, 0x05, 1, .arr 1, 4, .u32, .ro, .v, 0, .rng 0 4294967295, 4⟩,
   ⟨0x2810, 0x06, 1, .arr 1, 4, .i32, .ro, .v, 0, .rng (-2147483648) 2147483647, 4⟩,
   ⟨0x2810, 0x07, 1, .arr 1, 4, .u64, .ro, .v, 0, .rng 0 18446744073709551615, 8⟩,
   ⟨0x2810, 0x08, 1, .arr 1, 4, .u8, .ro, .v, 0, .rng 0 255, 1⟩,
   ⟨0x2810, 0x09, 1, .arr 1, 4, .u32, .ro, .v, 0, .rng 0 4294967295, 4⟩,
   ⟨0x2810, 0x0A, 1, .arr 1, 4, .u8, .ro, .v, 0, .rng 0 255, 1⟩,
   ⟨0x2810, 0x0B, 1, .arr 1, 4, .u32, .ro, .v, 0, .rng 0 4294967295, 4⟩,
   ⟨0x2810, 0x0C, 1, .arr 1, 4, .u16, .ro, .v, 0, .rng 0 65535, 2⟩,
   ⟨0x2810, 0x0D, 1, .arr 1, 4, .u16, .ro, .v, 0, .rng 0 65535, 2⟩,
   ⟨0x2820, 0x01, 1, .arr 1, 4, .u8, .ro, .v, 0, .rng 0 255, 1⟩,
   ⟨0x2820, 0x02, 1, .arr 1, 4, .u8, .wo, .v, 0, .rng 0 3, 1⟩,
   ⟨0x2820, 0x03, 1, .arr 1, 4, .u32, .rws, .p, 20000, .rng 1000 60000000, 4⟩,
   ⟨0x2820, 0x04, 1, .arr 1, 4, .u32, .ro, .v, 1024000, .rng 0 4294967295, 4⟩]

/-- Rows of indices 0x2900–0x29FF, part 1. trip.fire and trip.clear take 0 to 15: DESIGN CHOICE, log entry 81 (06 R166). -/
def dict29a : List ObjRow :=
  [⟨0x2900, 0x01, 1, .arr 1, 4, .u8, .ro, .v, 0, .rng 0 255, 1⟩,
   ⟨0x2900, 0x02, 1, .arr 1, 4, .u8, .ro, .v, 0, .rng 0 255, 1⟩,
   ⟨0x2900, 0x03, 1, .arr 1, 4, .u8, .rws, .p, 0, .rng 0 1, 1⟩,
   ⟨0x2900, 0x04, 1, .arr 1, 4, .u16, .rws, .p, 500, .rng 50 10000, 2⟩,
   ⟨0x2900, 0x05, 1, .arr 1, 4, .u8, .ro, .v, 0, .rng 0 255, 1⟩,
   ⟨0x2900, 0x06, 1, .arr 1, 4, .u8, .wo, .v, 0, .rng 0 255, 1⟩,
   ⟨0x2900, 0x07, 1, .arr 1, 4, .u32, .ro, .v, 0, .rng 0 4294967295, 4⟩,
   ⟨0x2900, 0x08, 1, .arr 1, 4, .u8, .rw, .v, 0, .rng 0 1, 1⟩,
   ⟨0x2900, 0x09, 1, .arr 1, 4, .u8, .rw, .v, 0, .rng 0 4, 1⟩,
   ⟨0x2910, 0x01, 1, .arr 1, 4, .u16, .rws, .p, 80, .rng 0 4000, 2⟩,
   ⟨0x2910, 0x02, 1, .arr 1, 4, .u16, .rws, .p, 80, .rng 0 4000, 2⟩,
   ⟨0x2910, 0x03, 1, .arr 1, 4, .u16, .rws, .p, 40, .rng 0 4000, 2⟩,
   ⟨0x2910, 0x04, 1, .arr 1, 4, .u8, .rws, .p, 0, .rng 0 1, 1⟩,
   ⟨0x2910, 0x05, 1, .arr 1, 4, .u8, .rws, .p, 1, .rng 1 16, 1⟩,
   ⟨0x2910, 0x06, 1, .arr 1, 4, .u8, .rws, .p, 1, .rng 0 1, 1⟩,
   ⟨0x2910, 0x07, 1, .arr 1, 4, .u16, .ro, .v, 0, .rng 0 65535, 2⟩,
   ⟨0x2910, 0x08, 1, .arr 1, 4, .u32, .ro, .v, 0, .rng 0 4294967295, 4⟩,
   ⟨0x2910, 0x09, 1, .arr 1, 4, .u16, .wo, .v, 0, .rng 200 20000, 2⟩,
   ⟨0x2910, 0x0A, 1, .arr 1, 4, .u32, .wo, .v, 0, .rng 0 16777215, 4⟩,
   ⟨0x2910, 0x0B, 1, .arr 1, 4, .u8, .ro, .v, 0, .rng 0 255, 1⟩,
   ⟨0x2910, 0x0C, 1, .arr 1, 4, .u32, .ro, .v, 0, .rng 0 4294967295, 4⟩,
   ⟨0x2910, 0x0D, 1, .arr 1, 4, .u32, .ro, .v, 0, .rng 0 4294967295, 4⟩,
   ⟨0x2910, 0x0E, 1, .arr 1, 4, .u8, .ro, .v, 0, .rng 0 255, 1⟩,
   ⟨0x2920, 0x01, 4, .arr 1, 4, .u16, .rws, .p, 512, .rng 0 1023, 2⟩,
   ⟨0x2920, 0x05, 4, .arr 1, 4, .u16, .rws, .p, 400, .rng 0 4000, 2⟩,
   ⟨0x2920, 0x09, 4, .arr 1, 4, .u8, .rws, .p, 255, .rng 0 255, 1⟩,
   ⟨0x2920, 0x0D, 1, .arr 1, 4, .u8, .rws, .p, 15, .rng 0 15, 1⟩,
   ⟨0x2920, 0x0E, 1, .arr 1, 4, .u8, .rws, .p, 0, .rng 0 15, 1⟩,
   ⟨0x2920, 0x0F, 1, .arr 1, 4, .u16, .rws, .p, 20, .rng 0 10000, 2⟩,
   ⟨0x2920, 0x10, 1, .arr 1, 4, .u8, .ro, .v, 0, .rng 0 255, 1⟩,
   ⟨0x2920, 0x11, 1, .arr 1, 4, .u8, .wo, .v, 0, .rng 0 15, 1⟩,
   ⟨0x2920, 0x12, 1, .arr 1, 4, .u32, .ro, .p, 0, .rng 0 4294967295, 4⟩,
   ⟨0x2920, 0x13, 1, .arr 1, 4, .u8, .ro, .v, 0, .rng 0 255, 1⟩,
   ⟨0x2930, 0x01, 1, .arr 1, 4, .u16, .rws, .p, 500, .rng 10 10000, 2⟩,
   ⟨0x2930, 0x02, 1, .arr 1, 4, .u32, .rws, .p, 10000, .rng 10 1000000, 4⟩,
   ⟨0x2930, 0x03, 1, .arr 1, 4, .u8, .rws, .p, 1, .rng 0 3, 1⟩,
   ⟨0x2930, 0x04, 1, .arr 1, 4, .u8, .rws, .p, 0, .rng 0 1, 1⟩,
   ⟨0x2930, 0x05, 1, .arr 1, 4, .u8, .ro, .p, 0, .rng 0 255, 1⟩,
   ⟨0x2930, 0x06, 1, .arr 1, 4, .u8, .ro, .p, 0, .rng 0 255, 1⟩,
   ⟨0x2930, 0x07, 1, .arr 1, 4, .u16, .wo, .v, 0, .rng 241 241, 2⟩]

/-- Rows of indices 0x2900–0x29FF, part 2. -/
def dict29b : List ObjRow :=
  [⟨0x2930, 0x08, 1, .arr 1, 4, .u16, .wo, .v, 0, .rng 23205 23205, 2⟩,
   ⟨0x2930, 0x09, 1, .arr 1, 4, .u16, .ro, .p, 0, .rng 0 65535, 2⟩,
   ⟨0x2940, 0x01, 8, .arr 1, 4, .u8, .rws, .p, 40, .rng 0 255, 1⟩,
   ⟨0x2940, 0x09, 1, .arr 1, 4, .u8, .rws, .p, 0, .rng 0 255, 1⟩,
   ⟨0x2940, 0x0A, 1, .arr 1, 4, .u8, .rws, .p, 0, .rng 0 255, 1⟩,
   ⟨0x2940, 0x0B, 1, .arr 1, 4, .u8, .ro, .v, 0, .rng 0 255, 1⟩,
   ⟨0x2950, 0x01, 1, .arr 1, 4, .u32, .rws, .p, 0, .rng 0 1000000, 4⟩,
   ⟨0x2950, 0x02, 1, .arr 1, 4, .i32, .rws, .p, 0, .rng (-32768) 32767, 4⟩,
   ⟨0x2950, 0x03, 1, .arr 1, 4, .i32, .rws, .p, 0, .rng (-32768) 32767, 4⟩,
   ⟨0x2950, 0x04, 1, .arr 1, 4, .u16, .ro, .v, 0, .rng 0 65535, 2⟩,
   ⟨0x2950, 0x05, 1, .arr 1, 4, .i16, .ro, .v, 0, .rng (-32768) 32767, 2⟩,
   ⟨0x2950, 0x06, 1, .arr 1, 4, .u32, .ro, .v, 0, .rng 0 4294967295, 4⟩]

/-- Rows of indices 0x2900–0x29FF. -/
def dict29 : List ObjRow := dict29a ++ dict29b

/-- Rows of indices 0x3000–0x30FF. -/
def dict30 : List ObjRow :=
  [⟨0x3000, 0x01, 16, .arr 1, 1, .u8, .ro, .v, 0, .rng 0 255, 1⟩,
   ⟨0x3001, 0x01, 16, .arr 1, 1, .u32, .ro, .v, 0, .rng 0 4294967295, 4⟩,
   ⟨0x3002, 0x01, 16, .arr 1, 1, .u16, .ro, .v, 0, .rng 0 65535, 2⟩,
   ⟨0x3003, 0x01, 16, .arr 1, 1, .u32, .ro, .v, 0, .rng 0 4294967295, 4⟩,
   ⟨0x3004, 0x01, 16, .arr 1, 1, .u64, .ro, .v, 0, .rng 0 18446744073709551615, 8⟩,
   ⟨0x3005, 0x01, 16, .arr 1, 1, .u32, .ro, .v, 0, .rng 0 4294967295, 4⟩,
   ⟨0x3010, 0x01, 1, .arr 1, 1, .u32, .rws, .p, 1000, .rng 10 1000000, 4⟩,
   ⟨0x3010, 0x02, 1, .arr 1, 1, .domain, .rws, .p, 0, .rng 0 0, 8388608⟩,
   ⟨0x3010, 0x03, 1, .arr 1, 1, .u32, .ro, .v, 0, .rng 0 4294967295, 4⟩,
   ⟨0x3010, 0x04, 1, .arr 1, 1, .u32, .ro, .v, 0, .rng 0 4294967295, 4⟩,
   ⟨0x3020, 0x01, 1, .arr 1, 1, .u16, .rw, .v, 0, .rng 0 4095, 2⟩,
   ⟨0x3020, 0x02, 1, .arr 1, 1, .u32, .rws, .p, 0, .rng 0 4294967295, 4⟩,
   ⟨0x3020, 0x03, 1, .arr 1, 1, .u16, .rws, .p, 0, .rng 0 4095, 2⟩,
   ⟨0x3020, 0x04, 1, .arr 1, 1, .u32, .rws, .p, 0, .mult 0 65534 2, 4⟩,
   ⟨0x3020, 0x05, 8, .arr 1, 1, .u32, .rws, .p, 0, .rng 0 4294967295, 4⟩,
   ⟨0x3020, 0x0D, 1, .arr 1, 1, .u16, .ro, .v, 1, .rng 0 65535, 2⟩,
   ⟨0x3020, 0x0E, 1, .arr 1, 1, .u8, .ro, .v, 0, .rng 0 255, 1⟩,
   ⟨0x3020, 0x0F, 1, .arr 1, 1, .u16, .ro, .v, 0, .rng 0 65535, 2⟩,
   ⟨0x3020, 0x10, 1, .arr 1, 1, .u8, .ro, .v, 0, .rng 0 255, 1⟩,
   ⟨0x3020, 0x11, 1, .arr 1, 1, .u8, .ro, .v, 0, .rng 0 255, 1⟩,
   ⟨0x3020, 0x12, 1, .arr 1, 1, .u32, .ro, .v, 0, .rng 0 4294967295, 4⟩,
   ⟨0x3021, 0x01, 1, .arr 1, 1, .u32, .wo, .v, 0, .mask 0xF0FFF, 4⟩,
   ⟨0x3021, 0x02, 1, .arr 1, 1, .u16, .wo, .v, 0, .rng 0 4095, 2⟩,
   ⟨0x3021, 0x03, 1, .arr 1, 1, .u16, .wo, .v, 0, .rng 0 4095, 2⟩,
   ⟨0x3030, 0x01, 1, .arr 1, 1, .u16, .ro, .v, 0, .rng 0 65535, 2⟩,
   ⟨0x3030, 0x02, 1, .arr 1, 1, .u32, .ro, .v, 0, .rng 0 4294967295, 4⟩,
   ⟨0x3030, 0x03, 1, .arr 1, 1, .u32, .ro, .v, 0, .rng 0 4294967295, 4⟩,
   ⟨0x3030, 0x04, 1, .arr 1, 1, .u32, .ro, .v, 0, .rng 0 4294967295, 4⟩,
   ⟨0x3030, 0x05, 1, .arr 1, 1, .u32, .ro, .v, 0, .rng 0 4294967295, 4⟩,
   ⟨0x3030, 0x06, 1, .arr 1, 1, .u32, .ro, .v, 0, .rng 0 4294967295, 4⟩,
   ⟨0x3030, 0x07, 1, .arr 1, 1, .u32, .ro, .v, 0, .rng 0 4294967295, 4⟩,
   ⟨0x3030, 0x08, 1, .arr 1, 1, .u32, .ro, .v, 0, .rng 0 4294967295, 4⟩,
   ⟨0x3030, 0x09, 1, .arr 1, 1, .u32, .ro, .v, 0, .rng 0 4294967295, 4⟩,
   ⟨0x3030, 0x0A, 1, .arr 1, 1, .u32, .ro, .v, 0, .rng 0 4294967295, 4⟩,
   ⟨0x3030, 0x0B, 1, .arr 1, 1, .u16, .ro, .v, 0, .rng 0 65535, 2⟩,
   ⟨0x3030, 0x0C, 1, .arr 1, 1, .u32, .ro, .v, 0, .rng 0 4294967295, 4⟩]

/-- Rows of indices 0x3800–0x38FF, part 1. -/
def dict38a : List ObjRow :=
  [⟨0x3800, 0x01, 1, .lanes, 7, .u8, .rws, .p, 1, .rng 0 1, 1⟩,
   ⟨0x3800, 0x02, 1, .lanes, 7, .u8, .ro, .v, 0, .rng 0 255, 1⟩,
   ⟨0x3800, 0x03, 1, .lanes, 7, .bool, .ro, .v, 0, .rng 0 1, 1⟩,
   ⟨0x3800, 0x04, 1, .lanes, 7, .u32, .ro, .v, 0, .rng 0 4294967295, 4⟩,
   ⟨0x3800, 0x05, 1, .lanes, 7, .u32, .ro, .v, 0, .rng 0 4294967295, 4⟩,
   ⟨0x3800, 0x06, 1, .lanes, 7, .u8, .ro, .v, 0, .rng 0 255, 1⟩,
   ⟨0x3800, 0x07, 1, .lanes, 7, .u16, .ro, .v, 0, .rng 0 65535, 2⟩,
   ⟨0x3800, 0x08, 1, .lanes, 7, .u16, .ro, .v, 0, .rng 0 65535, 2⟩,
   ⟨0x3800, 0x09, 1, .lanes, 7, .u32, .ro, .v, 0, .rng 0 4294967295, 4⟩,
   ⟨0x3800, 0x0A, 1, .lanes, 7, .u32, .ro, .v, 0, .rng 0 4294967295, 4⟩,
   ⟨0x3800, 0x0B, 1, .lanes, 7, .u8, .rw, .v, 0, .rng 0 4, 1⟩,
   ⟨0x3800, 0x0C, 1, .lanes, 7, .u8, .rw, .v, 0, .rng 0 4, 1⟩,
   ⟨0x3800, 0x0D, 1, .lanes, 7, .bool, .ro, .v, 0, .rng 0 1, 1⟩,
   ⟨0x3800, 0x0E, 1, .lanes, 7, .u32, .ro, .v, 0, .rng 0 4294967295, 4⟩,
   ⟨0x3800, 0x0F, 1, .lanes, 7, .u32, .ro, .v, 0, .rng 0 4294967295, 4⟩,
   ⟨0x3800, 0x10, 1, .lanes, 7, .u32, .ro, .v, 0, .rng 0 4294967295, 4⟩,
   ⟨0x3800, 0x11, 1, .lanes, 7, .u8, .wo, .v, 0, .rng 1 1, 1⟩,
   ⟨0x3800, 0x12, 1, .lanes, 7, .u8, .rw, .v, 0, .rng 0 3, 1⟩,
   ⟨0x3800, 0x13, 1, .lanes, 7, .u8, .rws, .p, 8, .rng 0 15, 1⟩,
   ⟨0x3800, 0x14, 1, .lanes, 7, .u8, .rws, .p, 0, .rng 0 7, 1⟩,
   ⟨0x3800, 0x15, 1, .lanes, 7, .u8, .rws, .p, 2, .rng 0 15, 1⟩,
   ⟨0x3800, 0x16, 1, .lanes, 7, .u8, .rw, .v, 0, .rng 0 1, 1⟩,
   ⟨0x3840, 0x01, 1, .arr 1, 7, .u16, .rws, .p, 16, .rng 1 128, 2⟩,
   ⟨0x3840, 0x02, 1, .arr 1, 7, .u16, .rws, .p, 1500, .rng 500 60000, 2⟩,
   ⟨0x3880, 0x01, 192, .arr 1, 3, .u32, .ro, .v, 0, .rng 0 4294967295, 4⟩,
   ⟨0x3881, 0x01, 192, .arr 1, 3, .u8, .ro, .v, 0, .rng 0 255, 1⟩,
   ⟨0x3882, 0x01, 192, .arr 1, 3, .u32, .ro, .v, 0, .rng 0 4294967295, 4⟩,
   ⟨0x3883, 0x01, 192, .arr 1, 3, .u64, .ro, .v, 0, .rng 0 18446744073709551615, 8⟩,
   ⟨0x3884, 0x01, 1, .arr 1, 3, .u16, .rw, .p, 2000, .rng 1 65535, 2⟩,
   ⟨0x3885, 0x01, 192, .arr 1, 3, .u8, .ro, .v, 0, .rng 0 255, 1⟩,
   ⟨0x3886, 0x01, 192, .arr 1, 3, .u32, .ro, .v, 0, .rng 0 4294967295, 4⟩,
   ⟨0x3890, 0x01, 1, .arr 1, 4, .u8, .ro, .v, 0, .rng 0 255, 1⟩,
   ⟨0x3890, 0x02, 1, .arr 1, 4, .u8, .ro, .v, 0, .rng 0 255, 1⟩,
   ⟨0x3890, 0x03, 1, .arr 1, 4, .u8, .ro, .v, 0, .rng 0 255, 1⟩,
   ⟨0x3890, 0x04, 1, .arr 1, 4, .u8, .ro, .v, 0, .rng 0 255, 1⟩,
   ⟨0x3890, 0x05, 1, .arr 1, 4, .u8, .ro, .v, 0, .rng 0 255, 1⟩,
   ⟨0x38C0, 0x01, 1, .arr 1, 2, .u8, .ro, .v, 0, .rng 0 255, 1⟩,
   ⟨0x38C0, 0x02, 1, .arr 1, 2, .u8, .ro, .v, 0, .rng 0 255, 1⟩,
   ⟨0x38C0, 0x03, 1, .arr 1, 2, .u32, .ro, .v, 0, .rng 0 4294967295, 4⟩,
   ⟨0x38C0, 0x04, 1, .arr 1, 2, .u8, .ro, .v, 0, .rng 0 255, 1⟩]

/-- Rows of indices 0x3800–0x38FF, part 2. -/
def dict38b : List ObjRow :=
  [⟨0x38C0, 0x05, 1, .arr 1, 2, .u32, .ro, .v, 0, .rng 0 4294967295, 4⟩,
   ⟨0x38C0, 0x06, 1, .arr 1, 2, .u32, .ro, .v, 0, .rng 0 4294967295, 4⟩,
   ⟨0x38C0, 0x07, 1, .arr 1, 2, .u32, .ro, .v, 0, .rng 0 4294967295, 4⟩,
   ⟨0x38C0, 0x08, 1, .arr 1, 2, .u32, .ro, .v, 0, .rng 0 4294967295, 4⟩]

/-- Rows of indices 0x3800–0x38FF. -/
def dict38 : List ObjRow := dict38a ++ dict38b

/-- Rows of indices 0x3900–0x39FF. -/
def dict39 : List ObjRow :=
  [⟨0x3900, 0x01, 1, .lanes, 7, .u32, .ro, .v, 0, .rng 0 4294967295, 4⟩,
   ⟨0x3900, 0x02, 1, .lanes, 7, .u32, .ro, .v, 0, .rng 0 4294967295, 4⟩,
   ⟨0x3900, 0x03, 1, .lanes, 7, .u32, .ro, .v, 0, .rng 0 4294967295, 4⟩,
   ⟨0x3900, 0x04, 1, .lanes, 7, .u32, .ro, .v, 0, .rng 0 4294967295, 4⟩,
   ⟨0x3900, 0x05, 1, .lanes, 7, .u32, .ro, .v, 0, .rng 0 4294967295, 4⟩,
   ⟨0x3900, 0x06, 1, .lanes, 7, .u32, .ro, .v, 0, .rng 0 4294967295, 4⟩,
   ⟨0x3900, 0x07, 1, .lanes, 7, .u32, .ro, .v, 0, .rng 0 4294967295, 4⟩,
   ⟨0x3900, 0x08, 1, .lanes, 7, .u32, .ro, .v, 0, .rng 0 4294967295, 4⟩,
   ⟨0x3900, 0x09, 1, .lanes, 7, .u8, .ro, .v, 255, .rng 0 255, 1⟩,
   ⟨0x3900, 0x0A, 1, .lanes, 7, .u32, .ro, .v, 0, .rng 0 4294967295, 4⟩,
   ⟨0x3900, 0x0B, 1, .lanes, 7, .u32, .ro, .v, 0, .rng 0 4294967295, 4⟩,
   ⟨0x3900, 0x0C, 1, .lanes, 7, .u32, .ro, .v, 0, .rng 0 4294967295, 4⟩,
   ⟨0x3900, 0x0D, 1, .lanes, 7, .u32, .ro, .v, 0, .rng 0 4294967295, 4⟩]

/-- Rows of indices 0x3A00–0x3AFF. -/
def dict3A : List ObjRow :=
  [⟨0x3A10, 0x01, 16, .tables, 7, .u64, .rw, .p, 0, .slotEntry, 8⟩,
   ⟨0x3A10, 0x11, 16, .tables, 7, .u64, .rw, .p, 0, .slotEntry, 8⟩,
   ⟨0x3A10, 0x21, 1, .tables, 7, .u8, .ro, .k, 0, .rng 0 255, 1⟩,
   ⟨0x3A10, 0x22, 1, .tables, 7, .u32, .wo, .v, 0, .rng 0 4294967295, 4⟩,
   ⟨0x3A10, 0x23, 1, .tables, 7, .bool, .ro, .v, 0, .rng 0 1, 1⟩]

/-- Rows of indices 0x3B00–0x3BFF. -/
def dict3B : List ObjRow :=
  [⟨0x3B00, 0x01, 1, .arr 1, 1, .u32, .rw, .p, 1000, .rng 50 1000000, 4⟩,
   ⟨0x3B00, 0x02, 1, .arr 1, 1, .u32, .ro, .v, 0, .rng 0 4294967295, 4⟩,
   ⟨0x3B00, 0x03, 1, .arr 1, 1, .u8, .ro, .v, 0, .rng 0 255, 1⟩,
   ⟨0x3B00, 0x04, 1, .arr 1, 1, .u32, .ro, .v, 0, .rng 0 4294967295, 4⟩,
   ⟨0x3B00, 0x05, 1, .arr 1, 1, .u8, .ro, .k, 0, .rng 0 255, 1⟩,
   ⟨0x3B10, 0x01, 192, .arr 1, 1, .u32, .ro, .v, 0, .rng 0 4294967295, 4⟩,
   ⟨0x3B20, 0x01, 1, .arr 1, 4, .u8, .ro, .v, 0, .rng 0 255, 1⟩]

/-- Rows of indices 0x4000–0x40FF. -/
def dict40 : List ObjRow :=
  [⟨0x4000, 0x01, 1, .arr 1, 7, .u16, .ro, .v, 0, .rng 0 65535, 2⟩,
   ⟨0x4000, 0x02, 1, .arr 1, 7, .u16, .wo, .v, 0, .orVal 65535 0 127, 2⟩,
   ⟨0x4000, 0x03, 1, .arr 1, 7, .u8, .ro, .v, 0, .rng 0 255, 1⟩,
   ⟨0x4000, 0x04, 1, .arr 1, 1, .u16, .wo, .v, 0, .rng 32382 32382, 2⟩,
   ⟨0x4000, 0x05, 1, .arr 1, 1, .u16, .rw, .p, 10, .rng 1 10000, 2⟩,
   ⟨0x4001, 0x01, 7, .arr 1, 1, .u32, .rw, .p, 0, .rng 0 10000000, 4⟩,
   ⟨0x4001, 0x08, 1, .arr 1, 1, .u32, .ro, .v, 0, .rng 0 4294967295, 4⟩,
   ⟨0x4010, 0x01, 128, .arr 1, 7, .u8, .rw, .p, 0, .rng 0 7, 1⟩,
   ⟨0x4011, 0x01, 128, .arr 1, 7, .u8, .ro, .v, 0, .rng 0 255, 1⟩,
   ⟨0x4012, 0x01, 128, .arr 1, 7, .u32, .ro, .v, 0, .rng 0 4294967295, 4⟩,
   ⟨0x4013, 0x01, 128, .arr 1, 7, .u32, .ro, .v, 0, .rng 0 4294967295, 4⟩,
   ⟨0x4014, 0x01, 1, .arr 1, 7, .u64, .ro, .v, 0, .rng 0 18446744073709551615, 8⟩,
   ⟨0x4014, 0x02, 1, .arr 1, 1, .u64, .ro, .v, 0, .rng 0 18446744073709551615, 8⟩,
   ⟨0x4040, 0x01, 1, .arr 1, 7, .u64, .rw, .v, 0, .rng 0 18446744073709551615, 8⟩,
   ⟨0x4040, 0x02, 1, .arr 1, 7, .domain, .ro, .v, 0, .rng 0 0, 8192⟩,
   ⟨0x4040, 0x03, 1, .arr 1, 7, .u64, .ro, .v, 0, .rng 0 18446744073709551615, 8⟩,
   ⟨0x4040, 0x04, 1, .arr 1, 7, .u64, .ro, .v, 0, .rng 0 18446744073709551615, 8⟩,
   ⟨0x4040, 0x05, 1, .arr 1, 7, .u16, .ro, .v, 0, .rng 0 65535, 2⟩,
   ⟨0x4040, 0x06, 1, .arr 1, 7, .u32, .ro, .v, 0, .rng 0 4294967295, 4⟩,
   ⟨0x4040, 0x07, 1, .arr 1, 7, .u32, .ro, .v, 0, .rng 0 4294967295, 4⟩,
   ⟨0x4040, 0x08, 1, .arr 1, 7, .u32, .ro, .v, 0, .rng 0 4294967295, 4⟩,
   ⟨0x4040, 0x09, 1, .arr 1, 7, .u32, .wo, .v, 0, .rng 0 4294967295, 4⟩,
   ⟨0x4040, 0x0A, 1, .arr 1, 7, .u8, .rw, .v, 0, .rng 0 1, 1⟩,
   ⟨0x4040, 0x0B, 1, .arr 1, 7, .u8, .ro, .v, 1, .rng 0 255, 1⟩,
   ⟨0x4040, 0x0C, 1, .arr 1, 7, .u32, .ro, .v, 0, .rng 0 4294967295, 4⟩,
   ⟨0x4040, 0x0D, 1, .arr 1, 7, .u64, .ro, .p, 0, .rng 0 18446744073709551615, 8⟩]

/-- Rows of indices 0x4800–0x48FF. -/
def dict48 : List ObjRow :=
  [⟨0x4800, 0x01, 1, .arr 1, 1, .u8, .wo, .v, 0, .rng 1 4, 1⟩,
   ⟨0x4800, 0x02, 1, .arr 1, 1, .u8, .ro, .v, 0, .rng 0 255, 1⟩,
   ⟨0x4800, 0x03, 1, .arr 1, 1, .u8, .rw, .v, 0, .rng 0 1, 1⟩,
   ⟨0x4800, 0x04, 1, .arr 1, 1, .u32, .rw, .v, 65536, .rng 256 8387584, 4⟩,
   ⟨0x4800, 0x05, 1, .arr 1, 1, .u32, .rw, .v, 16384, .rng 1 8387583, 4⟩,
   ⟨0x4800, 0x06, 1, .arr 1, 1, .u16, .rw, .v, 1, .rng 1 65535, 2⟩,
   ⟨0x4800, 0x07, 1, .arr 1, 1, .u32, .rw, .v, 0, .rng 0 4294967295, 4⟩,
   ⟨0x4800, 0x08, 1, .arr 1, 1, .u8, .rw, .v, 3, .rng 0 7, 1⟩,
   ⟨0x4800, 0x09, 1, .arr 1, 1, .u32, .ro, .v, 0, .rng 0 4294967295, 4⟩,
   ⟨0x4800, 0x0A, 1, .arr 1, 1, .u8, .ro, .v, 0, .rng 0 255, 1⟩,
   ⟨0x4800, 0x0B, 1, .arr 1, 1, .u8, .ro, .v, 0, .rng 0 255, 1⟩,
   ⟨0x4800, 0x0C, 1, .arr 1, 1, .u32, .ro, .v, 0, .rng 0 4294967295, 4⟩,
   ⟨0x4800, 0x0D, 1, .arr 1, 1, .time64, .ro, .v, 0, .rng 0 18446744073709551615, 8⟩,
   ⟨0x4800, 0x0E, 1, .arr 1, 1, .u8, .rw, .v, 0, .rng 0 1, 1⟩,
   ⟨0x4800, 0x0F, 1, .arr 1, 1, .u16, .rw, .v, 1, .rng 1 65535, 2⟩,
   ⟨0x4800, 0x10, 1, .arr 1, 1, .u32, .rw, .v, 1024, .rng 0 4294967295, 4⟩,
   ⟨0x4800, 0x11, 1, .arr 1, 1, .u64, .rw, .v, 0, .rng 0 18446744073709551615, 8⟩,
   ⟨0x4810, 0x01, 64, .arr 1, 1, .u32, .rw, .v, 0, .rng 0 4294967295, 4⟩,
   ⟨0x4811, 0x01, 64, .arr 1, 1, .u16, .rw, .v, 16, .rng 2 256, 2⟩,
   ⟨0x4812, 0x01, 64, .arr 1, 1, .i32, .rw, .v, 0, .rng (-1000000) 1000000, 4⟩,
   ⟨0x4820, 0x01, 16, .arr 1, 1, .u32, .rw, .v, 0, .rng 0 4294967295, 4⟩,
   ⟨0x4821, 0x01, 16, .arr 1, 1, .i32, .rw, .v, 0, .rng (-2147483648) 2147483647, 4⟩,
   ⟨0x4822, 0x01, 16, .arr 1, 1, .i32, .rw, .v, 0, .rng (-2147483648) 2147483647, 4⟩,
   ⟨0x4830, 0x01, 8, .arr 1, 1, .u32, .rw, .v, 0, .rng 0 4294967295, 4⟩,
   ⟨0x4831, 0x01, 8, .arr 1, 1, .u32, .rw, .v, 0, .rng 0 4294967295, 4⟩,
   ⟨0x4832, 0x01, 8, .arr 1, 1, .u8, .rw, .v, 0, .rng 0 8, 1⟩,
   ⟨0x4840, 0x01, 64, .arr 1, 1, .domain, .rw, .v, 0, .rng 0 0, 8192⟩,
   ⟨0x4860, 0x01, 2, .arr 1, 1, .domain, .ro, .v, 0, .rng 0 0, 33554432⟩,
   ⟨0x4880, 0x01, 1, .arr 1, 1, .u8, .rws, .p, 20, .rng 20 80, 1⟩,
   ⟨0x4880, 0x02, 1, .arr 1, 1, .u16, .rws, .p, 64, .rng 16 256, 2⟩,
   ⟨0x4881, 0x01, 16, .arr 1, 1, .u8, .ro, .v, 0, .rng 0 255, 1⟩]

/-- Rows of indices 0x4900–0x49FF. -/
def dict49 : List ObjRow :=
  [⟨0x4900, 0x01, 4, .arr 1, 4, .u8, .rw, .v, 0, .rng 0 6, 1⟩,
   ⟨0x4900, 0x05, 1, .arr 1, 4, .u16, .rw, .v, 0, .rng 0 65535, 2⟩,
   ⟨0x4900, 0x06, 1, .arr 1, 4, .u16, .rw, .v, 4096, .rng 1 8191, 2⟩,
   ⟨0x4900, 0x07, 1, .arr 1, 4, .u8, .rw, .v, 0, .rng 0 7, 1⟩,
   ⟨0x4900, 0x08, 1, .arr 1, 4, .i16, .rw, .v, 0, .rng (-32768) 32767, 2⟩,
   ⟨0x4900, 0x09, 1, .arr 1, 4, .time64, .rw, .v, 0, .rng 0 18446744073709551615, 8⟩,
   ⟨0x4900, 0x0A, 1, .arr 1, 4, .u8, .wo, .v, 0, .rng 1 3, 1⟩,
   ⟨0x4900, 0x0B, 1, .arr 1, 4, .u8, .ro, .v, 0, .rng 0 255, 1⟩,
   ⟨0x4900, 0x0C, 1, .arr 1, 4, .time64, .ro, .v, 0, .rng 0 18446744073709551615, 8⟩,
   ⟨0x4900, 0x0D, 1, .arr 1, 4, .time64, .ro, .v, 0, .rng 0 18446744073709551615, 8⟩,
   ⟨0x4900, 0x0E, 1, .arr 1, 4, .u16, .ro, .v, 0, .rng 0 65535, 2⟩,
   ⟨0x4900, 0x0F, 1, .arr 1, 4, .domain, .ro, .v, 0, .rng 0 0, 131072⟩,
   ⟨0x4900, 0x10, 1, .arr 1, 4, .u8, .ro, .v, 0, .rng 0 255, 1⟩,
   ⟨0x4900, 0x11, 1, .arr 1, 4, .u8, .rw, .v, 2, .rng 0 3, 1⟩,
   ⟨0x4900, 0x12, 1, .arr 1, 4, .u16, .ro, .v, 0, .rng 0 65535, 2⟩]

/-- Rows of indices 0x5000–0x50FF. -/
def dict50 : List ObjRow :=
  [⟨0x5000, 0x01, 1, .arr 1, 1, .u8, .ro, .v, 1, .rng 0 255, 1⟩,
   ⟨0x5000, 0x02, 1, .arr 1, 1, .u8, .ro, .v, 0, .rng 0 255, 1⟩,
   ⟨0x5000, 0x03, 1, .arr 1, 1, .u16, .ro, .p, 0, .rng 0 65535, 2⟩,
   ⟨0x5000, 0x04, 1, .arr 1, 1, .u8, .ro, .v, 0, .rng 0 255, 1⟩,
   ⟨0x5000, 0x05, 1, .arr 1, 1, .u16, .ro, .v, 0, .rng 0 65535, 2⟩,
   ⟨0x5000, 0x06, 1, .arr 1, 1, .u8, .ro, .v, 0, .rng 0 255, 1⟩,
   ⟨0x5000, 0x07, 1, .arr 1, 1, .u8, .ro, .v, 0, .rng 0 255, 1⟩,
   ⟨0x5000, 0x08, 1, .arr 1, 1, .u32, .ro, .p, 0, .rng 0 4294967295, 4⟩,
   ⟨0x5000, 0x09, 1, .arr 1, 1, .time64, .ro, .k, 0, .rng 0 18446744073709551615, 8⟩,
   ⟨0x5000, 0x0A, 1, .arr 1, 1, .u8, .ro, .v, 0, .rng 0 255, 1⟩,
   ⟨0x5000, 0x0B, 1, .arr 1, 1, .u64, .ro, .v, 0, .rng 0 18446744073709551615, 8⟩,
   ⟨0x5001, 0x01, 1, .arr 1, 1, .u8, .rws, .p, 3, .rng 2 64, 1⟩,
   ⟨0x5001, 0x02, 1, .arr 1, 1, .u32, .rws, .p, 500, .rng 10 60000, 4⟩,
   ⟨0x5001, 0x03, 1, .arr 1, 1, .u8, .rws, .p, 0, .rng 0 8, 1⟩,
   ⟨0x5001, 0x04, 1, .arr 1, 1, .u32, .ro, .v, 0, .rng 0 4294967295, 4⟩,
   ⟨0x5002, 0x01, 1, .arr 1, 1, .u32, .ro, .v, 0, .rng 0 4294967295, 4⟩,
   ⟨0x5002, 0x02, 1, .arr 1, 1, .u32, .ro, .v, 0, .rng 0 4294967295, 4⟩,
   ⟨0x5002, 0x03, 1, .arr 1, 1, .u32, .ro, .v, 0, .rng 0 4294967295, 4⟩,
   ⟨0x5002, 0x04, 1, .arr 1, 1, .u32, .ro, .v, 0, .rng 0 4294967295, 4⟩,
   ⟨0x5010, 0x01, 1, .arr 1, 1, .domain, .wo, .v, 0, .rng 0 0, 65536⟩,
   ⟨0x5020, 0x01, 1, .arr 1, 2, .u8, .rws, .p, 3, .rng 2 64, 1⟩,
   ⟨0x5020, 0x02, 1, .arr 1, 2, .u32, .ro, .v, 0, .rng 0 4294967295, 4⟩,
   ⟨0x5020, 0x03, 1, .arr 1, 2, .u32, .ro, .v, 0, .rng 0 4294967295, 4⟩,
   ⟨0x5020, 0x04, 1, .arr 1, 2, .u8, .ro, .v, 0, .rng 0 255, 1⟩,
   ⟨0x5040, 0x01, 1, .arr 1, 4, .u16, .ro, .v, 0, .rng 0 65535, 2⟩,
   ⟨0x5040, 0x02, 1, .arr 1, 4, .u32, .ro, .v, 0, .rng 0 4294967295, 4⟩]

/-- Rows of indices 0x5800–0x58FF. -/
def dict58 : List ObjRow :=
  [⟨0x5800, 0x01, 1, .arr 1, 7, .u16, .ro, .v, 0, .rng 0 65535, 2⟩,
   ⟨0x5800, 0x02, 1, .arr 1, 7, .u32, .ro, .v, 0, .rng 0 4294967295, 4⟩,
   ⟨0x5800, 0x03, 1, .arr 1, 7, .u16, .wo, .v, 0, .rng 20727 20727, 2⟩,
   ⟨0x5800, 0x04, 1, .arr 1, 7, .u32, .rws, .p, 100, .rng 10 10000, 4⟩,
   ⟨0x5800, 0x05, 1, .arr 1, 7, .u32, .ro, .p, 0, .rng 0 4294967295, 4⟩,
   ⟨0x5810, 0x01, 1, .arr 1, 7, .u8, .ro, .v, 0, .rng 0 255, 1⟩,
   ⟨0x5810, 0x02, 1, .arr 1, 7, .domain, .wo, .v, 0, .rng 0 0, 4194304⟩,
   ⟨0x5810, 0x03, 1, .arr 1, 7, .u8, .ro, .v, 0, .rng 0 255, 1⟩,
   ⟨0x5810, 0x04, 1, .arr 1, 7, .u32, .ro, .v, 0, .rng 0 4294967295, 4⟩,
   ⟨0x5810, 0x05, 1, .arr 1, 7, .u32, .ro, .v, 0, .rng 0 4294967295, 4⟩,
   ⟨0x5810, 0x06, 1, .arr 1, 7, .u32, .ro, .v, 0, .rng 0 4294967295, 4⟩,
   ⟨0x5810, 0x07, 1, .arr 1, 7, .u8, .wo, .v, 0, .rng 0 3, 1⟩,
   ⟨0x5810, 0x08, 2, .arr 1, 7, .domain, .wo, .v, 0, .rng 0 0, 32⟩,
   ⟨0x5810, 0x0A, 1, .arr 1, 7, .u32, .ro, .v, 0, .rng 0 4294967295, 4⟩,
   ⟨0x5810, 0x0B, 1, .arr 1, 1, .u32, .rws, .p, 2000, .rng 100 60000, 4⟩,
   ⟨0x5810, 0x0C, 1, .arr 1, 1, .u16, .rws, .p, 100, .rng 10 10000, 2⟩,
   ⟨0x5810, 0x0D, 1, .arr 1, 7, .u8, .ro, .p, 3, .rng 0 255, 1⟩,
   ⟨0x5820, 0x01, 1, .arr 1, 7, .u16, .wo, .v, 0, .rng 23166 23166, 2⟩,
   ⟨0x5820, 0x02, 1, .arr 1, 7, .u8, .ro, .v, 0, .rng 0 255, 1⟩,
   ⟨0x5820, 0x03, 1, .arr 1, 7, .u32, .ro, .p, 0, .rng 0 4294967295, 4⟩,
   ⟨0x5820, 0x04, 1, .arr 1, 7, .u16, .ro, .v, 0, .rng 0 65535, 2⟩,
   ⟨0x5820, 0x05, 1, .arr 1, 7, .u16, .wo, .v, 0, .rng 64199 64199, 2⟩,
   ⟨0x5820, 0x06, 1, .arr 1, 7, .u32, .ro, .p, 0, .rng 0 4294967295, 4⟩,
   ⟨0x5820, 0x07, 1, .arr 1, 7, .domain, .wo, .v, 0, .rng 0 0, 2097152⟩]

/-- Rows of indices 0x5A00–0x5AFF. -/
def dict5A : List ObjRow :=
  [⟨0x5A40, 0x01, 1, .arr 1, 1, .domain, .rws, .v, 0, .rng 0 0, 65536⟩,
   ⟨0x5A40, 0x02, 1, .arr 1, 1, .u32, .wo, .v, 0, .rng 0 4294967295, 4⟩,
   ⟨0x5A40, 0x03, 1, .arr 1, 1, .u16, .ro, .v, 0, .rng 0 65535, 2⟩,
   ⟨0x5A40, 0x04, 1, .arr 1, 1, .u16, .wo, .v, 0, .rng 0 65535, 2⟩,
   ⟨0x5A40, 0x05, 1, .arr 1, 1, .u8, .ro, .v, 0, .rng 0 255, 1⟩,
   ⟨0x5A40, 0x06, 1, .arr 1, 1, .u8, .ro, .v, 0, .rng 0 255, 1⟩,
   ⟨0x5A00, 0x01, 1, .arr 4, 5, .u8, .rws, .p, 0, .rng 0 7, 1⟩,
   ⟨0x5A00, 0x02, 1, .arr 4, 5, .u32, .rws, .p, 0, .mult 0 4294967292 4, 4⟩,
   ⟨0x5A00, 0x03, 1, .arr 4, 5, .u32, .rws, .p, 0, .mult 4 4294967292 4, 4⟩,
   ⟨0x5A00, 0x04, 1, .arr 4, 5, .u32, .rws, .p, 0, .rng 0 4294967295, 4⟩,
   ⟨0x5A00, 0x05, 1, .arr 4, 5, .u32, .ro, .v, 0, .rng 0 4294967295, 4⟩,
   ⟨0x5A00, 0x06, 1, .arr 4, 5, .u32, .ro, .v, 0, .rng 0 4294967295, 4⟩,
   ⟨0x5A00, 0x07, 1, .arr 4, 5, .u32, .ro, .v, 0, .rng 0 4294967295, 4⟩,
   ⟨0x5A00, 0x08, 1, .arr 4, 5, .u32, .rws, .p, 1000, .rng 1 60000, 4⟩]

/-- Rows of indices 0x5B00–0x5BFF. -/
def dict5B : List ObjRow :=
  [⟨0x5B00, 0x01, 1, .arr 1, 7, .i16, .ro, .v, 0, .rng (-32768) 32767, 2⟩,
   ⟨0x5B00, 0x02, 1, .arr 1, 7, .i16, .ro, .p, 0, .rng (-32768) 32767, 2⟩,
   ⟨0x5B00, 0x03, 1, .arr 1, 7, .u16, .ro, .v, 0, .rng 0 65535, 2⟩,
   ⟨0x5B00, 0x04, 1, .arr 1, 7, .u32, .ro, .v, 0, .rng 0 4294967295, 4⟩]

/-- Rows of indices 0x6000–0x60FF. -/
def dict60 : List ObjRow :=
  [⟨0x6000, 0x01, 1, .arr 1, 1, .u32, .rs, .p, 0, .rng 0 4294967295, 4⟩,
   ⟨0x6000, 0x02, 1, .arr 1, 1, .u32, .rs, .p, 0, .rng 0 4294967295, 4⟩,
   ⟨0x6000, 0x04, 1, .arr 1, 1, .u16, .rs, .p, 8, .rng 1 1000, 2⟩,
   ⟨0x6000, 0x05, 1, .arr 1, 1, .pu32, .rs, .p, 838861, .rng 16777 16777216, 4⟩,
   ⟨0x6000, 0x06, 1, .arr 1, 1, .pu32, .rs, .p, 335544, .rng 16777 16777216, 4⟩,
   ⟨0x6000, 0x07, 1, .arr 1, 1, .pu32, .rs, .p, 335544, .rng 16777 16777216, 4⟩,
   ⟨0x6000, 0x08, 1, .arr 1, 1, .u32, .rs, .p, 2000, .rng 100 10000, 4⟩,
   ⟨0x6000, 0x09, 1, .arr 1, 1, .pu32, .rs, .p, 8388608, .rng 1677722 16777216, 4⟩,
   ⟨0x6000, 0x0A, 1, .arr 1, 1, .u32, .rs, .p, 100, .rng 1 1000, 4⟩,
   ⟨0x6000, 0x0B, 1, .arr 1, 1, .u8, .rs, .p, 4, .rng 1 64, 1⟩,
   ⟨0x6000, 0x0C, 1, .arr 1, 1, .u32, .rs, .p, 2000, .rng 0 4294967295, 4⟩,
   ⟨0x6000, 0x0D, 1, .arr 1, 1, .u32, .rs, .p, 0, .rng 0 4294967295, 4⟩,
   ⟨0x6000, 0x0E, 1, .arr 1, 1, .u32, .rs, .p, 1000, .rng 100 60000, 4⟩,
   ⟨0x6000, 0x0F, 1, .arr 1, 1, .u8, .rs, .p, 0, .rng 0 2, 1⟩,
   ⟨0x6010, 0x01, 1, .arr 2, 1, .u32, .rs, .p, 0, .rng 0 4294967295, 4⟩,
   ⟨0x6010, 0x02, 1, .arr 2, 1, .u32, .rs, .p, 0, .rng 0 4294967295, 4⟩,
   ⟨0x6010, 0x03, 1, .arr 2, 1, .pu32, .rs, .p, 16777216, .rng (-2147483648) 2147483647, 4⟩,
   ⟨0x6010, 0x04, 1, .arr 2, 1, .pu32, .rs, .p, 20132659, .rng 0 67108864, 4⟩,
   ⟨0x6010, 0x05, 1, .arr 2, 1, .pu32, .rs, .p, 83886, .rng (-2147483648) 2147483647, 4⟩,
   ⟨0x6010, 0x06, 1, .arr 2, 1, .pu32, .rs, .p, 167772, .rng (-2147483648) 2147483647, 4⟩,
   ⟨0x6010, 0x07, 1, .arr 2, 1, .pu32, .rs, .p, 33554432, .rng 167772 1677721600, 4⟩,
   ⟨0x6010, 0x08, 1, .arr 2, 1, .u8, .rs, .p, 4, .rng 1 16, 1⟩,
   ⟨0x6010, 0x09, 1, .arr 2, 1, .u16, .rs, .p, 0, .rng 0 768, 2⟩,
   ⟨0x6010, 0x0A, 1, .arr 2, 1, .pu32, .rs, .p, 11744051, .rng (-2147483648) 2147483647, 4⟩,
   ⟨0x6010, 0x0B, 1, .arr 2, 1, .pu32, .rs, .p, 21810381, .rng (-2147483648) 2147483647, 4⟩,
   ⟨0x6010, 0x0C, 1, .arr 2, 1, .u16, .rs, .p, 10, .rng 1 10000, 2⟩,
   ⟨0x6010, 0x0D, 1, .arr 2, 1, .u8, .rs, .p, 0, .rng 0 2, 1⟩,
   ⟨0x6010, 0x0E, 1, .arr 2, 1, .pu32, .rs, .p, 16777216, .rng 167772 67108864, 4⟩,
   ⟨0x6010, 0x0F, 1, .arr 2, 1, .pu32, .rs, .p, 335544, .rng 0 8388608, 4⟩,
   ⟨0x6010, 0x10, 1, .arr 2, 1, .u16, .rs, .p, 20, .rng 1 10000, 2⟩,
   ⟨0x6010, 0x11, 1, .arr 2, 1, .pu32, .rs, .p, 0, .rng (-2147483648) 2147483647, 4⟩,
   ⟨0x6010, 0x12, 1, .arr 2, 1, .u32, .rs, .p, 0, .rng 0 10000000, 4⟩,
   ⟨0x6020, 0x01, 8, .arr 2, 1, .u8, .rs, .p, 0, .rng 0 255, 1⟩,
   ⟨0x6020, 0x09, 8, .arr 2, 1, .pu32, .rs, .p, 0, .rng (-2147483648) 2147483647, 4⟩,
   ⟨0x6020, 0x11, 1, .arr 2, 1, .u16, .rs, .p, 64, .rng 16 256, 2⟩,
   ⟨0x6020, 0x12, 1, .arr 2, 1, .u8, .rs, .p, 20, .rng 20 80, 1⟩,
   ⟨0x6030, 0x01, 12, .arr 1, 1, .u64, .rs, .p, 18446744073709551615, .rng 0 18446744073709551615, 8⟩]

/-- Rows of indices 0x6100–0x61FF. -/
def dict61 : List ObjRow :=
  [⟨0x6100, 0x01, 1, .arr 1, 1, .u8, .ro, .v, 0, .rng 0 255, 1⟩,
   ⟨0x6100, 0x02, 1, .arr 1, 1, .u8, .ro, .v, 0, .rng 0 255, 1⟩,
   ⟨0x6100, 0x03, 1, .arr 1, 1, .u16, .ro, .v, 0, .rng 0 65535, 2⟩,
   ⟨0x6100, 0x04, 1, .arr 1, 1, .u16, .ro, .v, 0, .rng 0 65535, 2⟩,
   ⟨0x6100, 0x05, 1, .arr 1, 1, .u8, .ro, .k, 0, .rng 0 255, 1⟩,
   ⟨0x6100, 0x06, 1, .arr 1, 1, .time64, .ro, .k, 0, .rng 0 18446744073709551615, 8⟩,
   ⟨0x6100, 0x07, 1, .arr 1, 1, .u32, .ro, .p, 0, .rng 0 4294967295, 4⟩,
   ⟨0x6100, 0x08, 1, .arr 1, 1, .u32, .ro, .v, 0, .rng 0 4294967295, 4⟩,
   ⟨0x6100, 0x09, 1, .arr 1, 1, .u32, .ro, .v, 0, .rng 0 4294967295, 4⟩,
   ⟨0x6100, 0x0A, 1, .arr 1, 1, .u8, .ro, .v, 0, .rng 0 255, 1⟩,
   ⟨0x6100, 0x0C, 1, .arr 1, 1, .u16, .ro, .v, 0, .rng 0 65535, 2⟩]

/-- The rows of an index's high byte. -/
def dictPage (h : Nat) : List ObjRow :=
  (if h < 0x3A then (if h < 0x25 then (if h < 0x12 then (if h < 0x11 then (if h = 0x10 then dict10 else [])
   else (if h = 0x11 then dict11 else []))
   else (if h < 0x20 then (if h = 0x12 then dict12 else [])
   else (if h < 0x24 then (if h = 0x20 then dict20 else [])
   else (if h = 0x24 then dict24 else []))))
   else (if h < 0x30 then (if h < 0x28 then (if h = 0x25 then dict25 else [])
   else (if h < 0x29 then (if h = 0x28 then dict28 else [])
   else (if h = 0x29 then dict29 else [])))
   else (if h < 0x38 then (if h = 0x30 then dict30 else [])
   else (if h < 0x39 then (if h = 0x38 then dict38 else [])
   else (if h = 0x39 then dict39 else [])))))
   else (if h < 0x50 then (if h < 0x40 then (if h < 0x3B then (if h = 0x3A then dict3A else [])
   else (if h = 0x3B then dict3B else []))
   else (if h < 0x48 then (if h = 0x40 then dict40 else [])
   else (if h < 0x49 then (if h = 0x48 then dict48 else [])
   else (if h = 0x49 then dict49 else []))))
   else (if h < 0x5B then (if h < 0x58 then (if h = 0x50 then dict50 else [])
   else (if h < 0x5A then (if h = 0x58 then dict58 else [])
   else (if h = 0x5A then dict5A else [])))
   else (if h < 0x60 then (if h = 0x5B then dict5B else [])
   else (if h < 0x61 then (if h = 0x60 then dict60 else [])
   else (if h = 0x61 then dict61 else []))))))

end Sys2Proof.Machine
end

