-- ==== Sys2Proof/Machine/Objects.lean ====
section
/-! DEFINITION. Which objects a part holds, under which key, and what each holds at reset (00_scope.md R4–R8, 12 R332–R334,
09 R250, 15 R403). A key is index × 256 + subindex. -/

namespace Sys2Proof

/-- 0 the CVC, 1 a hub, 2 a cell controller. -/
def Part.kind : Part → Nat
  | .cvc => 0
  | .hub _ => 1
  | .cell _ => 2

/-- The cell identifier (00_scope.md, Glossary). -/
def cellNum (c : CellId) : Nat := c.str.val * 64 + c.pos.val

/-- The node address of a part (15 R399). -/
def Part.node : Part → Nat
  | .cvc => 0
  | .hub n => 0x100 + n.val
  | .cell c => 0x1000 + cellNum c

end Sys2Proof

namespace Sys2Proof.Machine

/-- The cell of a string at a position, when both exist. -/
def cellAt (str pos : Nat) : Option CellId :=
  if h : str < 192 ∧ pos < 48 then some ⟨⟨str, h.1⟩, ⟨pos, h.2⟩⟩ else none

/-- The part at a node address (15 R399). -/
def partOf (a : Nat) : Option Part :=
  if a = 0 then some .cvc
  else if h : 0x100 ≤ a ∧ a - 0x100 < 8 then some (.hub ⟨a - 0x100, h.2⟩)
  else if 0x1000 ≤ a then (cellAt ((a - 0x1000) / 64) ((a - 0x1000) % 64)).map .cell
  else none

/-- The hub of a string (01 R18). -/
def hubOfString (s : StringNo) : Fin 8 := ⟨s.val / 24, by omega⟩

/-- Lanes of a part (08 R225): 16 uplink and 2 peer lanes; 48 string and 4 uplink lanes; 2 lanes. -/
def laneCount : Nat → Nat
  | 0 => 18
  | 1 => 52
  | _ => 2

/-- Local fault sources of a part (12 R331, R333, R334). -/
def sourceCount : Nat → Nat
  | 0 => 128
  | 1 => 48
  | _ => 64

/-- Records that a row stands for in a part. -/
def spanCount (kind : Nat) (r : ObjRow) : Nat :=
  match r.span with
  | .lanes => laneCount kind
  | .tables => 4
  | .arr n => if r.idx = 0x5A00 ∧ kind = 2 then 1 else n

/-- Subindices that a row stands for in a part (08 R227, 12 R355). -/
def subCount (kind : Nat) (r : ObjRow) : Nat :=
  if 0x4010 ≤ r.idx ∧ r.idx ≤ 0x4013 then sourceCount kind
  else if kind = 1 ∧ r.subs = 192 ∧ r.idx / 256 = 0x38 then 24
  else r.subs

/-- A row covers an index in a part. -/
def rowHasIndex (kind i : Nat) (r : ObjRow) : Bool :=
  bitOf r.holders kind && decide (r.idx ≤ i) && decide (i < r.idx + spanCount kind r) &&
    (match r.span with
      | .tables => (kind == 0 && i == r.idx) || (kind == 1 && (i == r.idx + 1 || i == r.idx + 2)) || (kind == 2 && i == r.idx + 3)
      | _ => true)

/-- Whether an index has shadows at subindex + 0x40 (03 R73, 04 R88, 10 R288). -/
def hasShadow (r : ObjRow) : Bool := decide (r.acc = .rwc)

/-- The row of an object of a part. -/
def memberRow (kind key : Nat) : Option ObjRow :=
  (dictPage (key / 65536)).find? (fun r => rowHasIndex kind (key / 256) r && decide (r.sub ≤ key % 256) &&
    decide (key % 256 < r.sub + subCount kind r))

/-- The row of a shadow: that of its member, read only (00_scope.md R6). -/
def shadowRow (kind key : Nat) : Option ObjRow :=
  if key % 256 < 0x40 then none
  else match memberRow kind (key - 0x40) with
    | some r => if hasShadow r then some { r with acc := .ro } else none
    | none => none

/-- The index exists in a part. -/
def hasIndex (kind i : Nat) : Bool := (dictPage (i / 256)).any (rowHasIndex kind i)

/-- The number of the highest member subindex of a record (00_scope.md R4). -/
def highestSub (kind i : Nat) : Nat :=
  listMax (((dictPage (i / 256)).filter (rowHasIndex kind i)).map (fun r => r.sub + subCount kind r - 1))

/-- What a part holds under a key: a member, a shadow, or subindex 0 of a record. -/
def rowOf (kind key : Nat) : Option ObjRow :=
  match memberRow kind key with
  | some r => some r
  | none =>
    if key % 256 = 0 then
      if hasIndex kind (key / 256) then
        some ⟨key / 256, 0, 1, .arr 1, 7, .u8, .ro, .v, (highestSub kind (key / 256) : Nat), .rng 0 255, 1⟩
      else none
    else shadowRow kind key

/-- The n-th number of a list, 0 past its end. -/
def nth (l : List Nat) (n : Nat) : Nat := l.getD n 0

/-- Default severities of the CVC's sources (02 R50, 03 R72, 04 R96, 05 R129, 08 R222, 09 R260, 10 R289, 11 R323,
12 R332); 0 for a source that is not raised (DESIGN CHOICE, log entry 9). -/
def sevCvc : List Nat :=
  [0, 1, 1, 0, 1, 2, 0, 0, 0, 0, 0, 0, 0, 0, 0, 0] ++
  [1, 4, 2, 2, 1, 1, 4, 1, 2, 1, 1, 0, 2, 0, 0, 0] ++
  [2, 2, 3, 0, 1, 0, 1, 5, 2, 0, 0, 0, 0, 0, 0, 0] ++
  [2, 2, 2, 1, 3, 1, 1, 2, 0, 1, 1, 0, 1, 2, 0, 1] ++
  [2, 0, 0, 0, 0, 0, 0, 0, 0, 0, 0, 0, 0, 0, 0, 0] ++
  [1, 0, 2, 1, 0, 1, 0, 0, 0, 0, 0, 0, 0, 0, 0, 0] ++
  [6, 3, 3, 3, 1, 5, 2, 3, 3, 3, 7, 0, 0, 0, 0, 0] ++
  [1, 1, 1, 2, 2, 3, 2, 0, 5, 5, 2, 1, 2, 5, 2, 2]

/-- Default severities of a hub's sources (08 R223, 09 R261, 10 R289, 12 R333). -/
def sevHub : List Nat :=
  [3, 3, 2, 1, 2, 3, 2, 2, 0, 0, 0, 0, 0, 0, 0, 0] ++
  [1, 2, 1, 2, 0, 0, 1, 0, 2, 1, 1, 1, 0, 0, 0, 0]

/-- Default severities of a cell controller's sources (06 R165, 07 R189, 08 R224, 09 R262, 10 R289, 11 R324, 12 R334). -/
def sevCell : List Nat :=
  [3, 3, 2, 1, 2, 3, 2, 3, 1, 1, 0, 0, 0, 0, 0, 0] ++
  [3, 3, 2, 3, 3, 3, 3, 1, 3, 1, 2, 0, 0, 0, 0, 0] ++
  [1, 3, 1, 2, 2, 2, 0, 0, 1, 0, 0, 0, 2, 1, 0, 0] ++
  [2, 1, 1, 2, 2]

/-- A slot table entry (09 R248): type, references of opening and closing, offsets in 10 ns. -/
def slotEntry (ty sref eref : Nat) (soff eoff : Int) : Nat :=
  ty * 2 ^ 60 + sref * 2 ^ 58 + eref * 2 ^ 56 + unsigned 16 soff * 2 ^ 16 + unsigned 16 eoff

/-- Bank 0 of a slot table (09 R250). -/
def bank0 : Nat → List Nat
  | 0 => [slotEntry 4 0 0 0 10, slotEntry 6 0 0 10 30, slotEntry 1 1 2 0 (-10), slotEntry 5 2 2 0 80]
  | 1 => [slotEntry 2 0 2 30 (-100), slotEntry 6 2 2 0 15, slotEntry 5 2 2 15 80]
  | 2 => [slotEntry 4 0 0 0 10, slotEntry 1 2 2 (-250) (-6), slotEntry 5 2 2 0 80]
  | _ => [slotEntry 2 0 2 30 (-100), slotEntry 5 2 2 0 80]

/-- The default of an object of the part at a node address (00_scope.md, Object tables; 15 R426). -/
def objDefault (node key : Nat) : Int :=
  let kind := if node = 0 then 0 else if node < 0x1000 then 1 else 2
  let i := key / 256
  let s := key % 256
  if i = 0x4010 ∧ s ≠ 0 then (nth (if kind = 0 then sevCvc else if kind = 1 then sevHub else sevCell) (s - 1) : Nat)
  else if key = K.idPart then (if kind = 0 then 7200 else if kind = 1 then 7230 else 7210)
  else if key = K.idSerial then (Config.serial node : Nat)
  else if key = K.idFw ∨ key = K.bootFwVer0 then (Config.firmware node : Nat)
  else if 0x1100 ≤ i ∧ i ≤ 0x1104 ∧ s = 2 then (Config.mac (i - 0x1100) : Nat)
  else if key = 0x110403 then 0xC0A8640A
  else if 0x2500 ≤ i ∧ i ≤ 0x250B ∧ (s % 64 = 0x18 ∨ s % 64 = 0x1D ∨ s % 64 = 0x22 ∨ s % 64 = 0x27) then 0x01000000
  else if 0x3A10 ≤ i ∧ i ≤ 0x3A13 ∧ 1 ≤ s ∧ s ≤ 16 then (nth (bank0 (i - 0x3A10)) (s - 1) : Nat)
  else match rowOf kind key with
    | some r => r.dflt
    | none => 0

end Sys2Proof.Machine
end

