-- ==== Sys2Proof/Machine/Tab.lean ====
section
/-! DEFINITION. Sparse tables: a list of key and value pairs in one canonical form (keys strictly rising, no value
equal to what an unlisted key reads as), so that equal tables are equal data. Memory (05 R105) is the table of bytes. -/

namespace Sys2Proof.Machine

/-- A sparse table: the pairs that differ from the default, in rising key order. -/
abbrev Tab (β : Type) := List (Nat × β)

/-- The value at a key; an unlisted key reads as its default. -/
def Tab.get {β : Type} (d : Nat → β) : Tab β → Nat → β
  | [], k => d k
  | e :: t, k => if e.1 = k then e.2 else Tab.get d t k

/-- Leaves out a key. -/
def Tab.erase {β : Type} (t : Tab β) (k : Nat) : Tab β := t.filter (fun e => !(e.1 == k))

/-- Puts a pair before the first larger key. -/
def Tab.ins {β : Type} (k : Nat) (v : β) : Tab β → Tab β
  | [] => [(k, v)]
  | e :: t => if k < e.1 then (k, v) :: e :: t else e :: Tab.ins k v t

/-- Writes a value; a value equal to the default is not listed. -/
def Tab.set {β : Type} [DecidableEq β] (d : Nat → β) (t : Tab β) (k : Nat) (v : β) : Tab β :=
  if v = d k then Tab.erase t k else Tab.ins k v (Tab.erase t k)

/-- Changes the value at a key. -/
def Tab.upd {β : Type} [DecidableEq β] (d : Nat → β) (t : Tab β) (k : Nat) (f : β → β) : Tab β :=
  Tab.set d t k (f (Tab.get d t k))

/-- The keys rise strictly. -/
def Tab.sorted {β : Type} : Tab β → Bool
  | [] => true
  | [_] => true
  | a :: b :: t => decide (a.1 < b.1) && Tab.sorted (b :: t)

/-- The canonical form: keys strictly rising, no entry equal to its default. -/
def Tab.wf {β : Type} [DecidableEq β] (d : Nat → β) (t : Tab β) : Bool :=
  Tab.sorted t && t.all (fun e => !(decide (e.2 = d e.1)))

end Sys2Proof.Machine
end

