-- ==== Sys2Proof/Machine/State.lean ====
section
/-! DEFINITION. The state of the block as plain data: the value in effect of every dictionary object of every part
(15 R399), the state the rules imply beside the objects, the engine and capture memories, and the queue of waiting
commands. INVENTORY.md lists each piece with the rule that names it and its reset value. -/

namespace Sys2Proof.Machine

/-- Why a step could stop the model. No meaning raises one: every command of the table has an effect in every state
(NOTES.md, Stops). -/
inductive Fault where
  /-- raised by nothing; there so that the type of the outcomes is not empty. Safe: it never occurs. -/
  | impossible
  deriving DecidableEq, Repr

/-- Why a command could have no meaning. -/
inductive Refusal where
  /-- raised by an arm of exec whose command has no meaning yet. Safe: it stops. -/
  | notModelled (mnemonic : String)
  deriving DecidableEq, Repr

/-! ### Every part -/

/-- One Cave record (12 R346), with the slot it was written to; `seq` is 0 while it waits in the queue (R349). -/
structure CaveRec where
  seq : Nat
  code : Nat
  epoch : Nat
  tb : Bool
  keep : Bool
  fixed : Bool
  src : Nat
  time : Nat
  p0 : Nat
  p1 : Nat
  p2 : Nat
  payload : List Nat
  slot : Nat
  slots : Nat
  deriving DecidableEq, Repr, Inhabited

/-- The Cave of a part (12 R344–R352): the records written, oldest first, those that wait, the next slot of the
circulating area, a clear in progress, and a write that a loss of power tore. -/
structure Cave where
  recs : List CaveRec
  queue : List CaveRec
  circ : Nat
  clearing : Bool
  clearRid : Nat
  torn : Nat
  deriving DecidableEq, Repr, Inhabited

/-- What a part holds of its pending faults beside the fault objects (12 R336–R338, R350): grace deadlines (tick + 1),
arm masks, the ends of notes, the ticks of the last RAISE records and the raises since. -/
structure Faults where
  deadline : Tab Nat
  mask : Tab Nat
  noteEnd : Tab Nat
  recAt : Tab Nat
  held : Tab Nat
  deriving DecidableEq, Repr, Inhabited

/-- Power, reset and storage of a part (16): the core runs, RESET_N is low, the hold's first tick, the long-reset flag,
the causes gathered, the factory-default request (R443), a delayed soft reset (R431), a store sequence with the values
it writes (R441), a firmware write (R431) with its version, the tick of the last release, whether its supplies are in range,
the firmware slot the boot headers name, the length of
the last hold in ms, whether a dictionary image waits to be written, the key slots that signed the firmware of slots 0 and 1 (none from
the factory), the firmware being written, the latest dictionary image and the safety image (16 R439), the straps and
verification results as last given (log entry 4), and, in the CVC, which of SA and SB has its supply below its reset threshold (17 R461). -/
structure Power where
  core : Bool
  rails : Bool
  held : Bool
  holdStart : Nat
  longFlag : Bool
  causes : Nat
  restore : Bool
  softDue : Bool
  storing : Bool
  snap : Tab Int
  snapBlobs : Tab (List Nat)
  fwWriting : Bool
  fwVersion : Nat
  fwNamed : Nat
  heldMs : Nat
  releasedAt : Nat
  imageDue : Bool
  sigFw0 : Option Nat
  sigFw1 : Option Nat
  sigNew : Nat
  sigDict : Option Nat
  sigSafety : Option Nat
  pins : Boot
  chLow : Nat
  deriving DecidableEq, Repr, Inhabited

/-- Network time of a part (10 R267, R270): L runs from tick `l0`; O is `o` at tick `oAt` in units of 2^-41 ns,
advancing by `rho` (in units of 2^-40) and by `slew` spread over `slewLen` ticks. -/
structure Clock where
  l0 : Nat
  o : Int
  oAt : Nat
  rho : Int
  slew : Int
  slewLen : Nat
  deriving DecidableEq, Repr, Inhabited

/-- The cycle schedule a hub or cell holds (10 R274, R275, 02 R28): whether it has one, S_k, k, Tc and Ta in force, an
announced change, the lock count, the run of cycles without a usable primary frame, and whether this cycle had one;
the head and tail errors with the SEQ they were measured at, and the latest closures (10 R280). -/
structure Sched where
  valid : Bool
  s : Nat
  k : Nat
  tc : Nat
  ta : Nat
  chgDue : Bool
  chgS : Nat
  chgTc : Nat
  chgTa : Nat
  count : Nat
  missRun : Nat
  primary : Bool
  eHead : Option Int
  eTail : Option Int
  eHeadSeq : Nat
  eTailSeq : Nat
  closures : List Int
  deriving DecidableEq, Repr, Inhabited

/-- Delay exchanges of a lane end (10 R277): a request is out, its departure t1 in 1/256 ns, the 16 latest results in
1/512 ns, latest first, and the cycles since the lane entered L0 in which it asked. -/
structure Exch where
  out : Bool
  t1 : Int
  results : List Int
  since : Nat
  deriving DecidableEq, Repr, Inhabited

/-- One lane end (08 R196–R211, 09 R254–R256, 10 R277): training counts, coefficients and their snapshot, a power state
request (the state asked for until it is answered, and whether REQ sets go out for it, one every 16 blocks), notices, ordered sets
sent, frames waiting, the frame in transmission as queued and as stamped on the wire, the frame a trip interrupted, abort blocks sent,
and link delay results. -/
structure Lane where
  upSent : Nat
  upRecv : Nat
  coef : Nat
  snap : Nat
  want : Option Nat
  asked : Bool
  seen : List (Nat × Nat × Nat)
  nseq : Nat
  osOut : List Header
  txq : List Frame
  tx : Option Frame
  wire : Option Frame
  again : Option Frame
  aborts : Nat
  exch : Exch
  deriving DecidableEq, Repr, Inhabited

/-- A part as a node of the dictionary (15 R399): its objects' values in effect, the values of its DOMAIN and STRING
objects, what it has stored for good (16 R441), its Cave, faults, power, clock and lanes, the cycles named for bank switches
(09 R251), the DOMAIN value that service segments bring (15 R402), and the check units that have made their one scan since they were
set up (11 R319). -/
structure Node where
  part : Part
  objs : Tab Int
  blobs : Tab (List Nat)
  stored : Tab Int
  storedBlobs : Tab (List Nat)
  cave : Cave
  faults : Faults
  power : Power
  clock : Clock
  sched : Sched
  lanes : Tab Lane
  slotSwitch : Tab Nat
  seg : Option (Nat × List Nat)
  ckDone : List Nat
  deriving DecidableEq, Repr

/-! ### Host protocol (15) -/

/-- A GDP message as sent to a host (15 R407, R408). -/
structure Resp where
  msg : Nat
  seq : Nat
  rid : Nat
  inc : Nat
  node : Nat
  status : Nat
  dup : Bool
  more : Bool
  body : List Nat
  deriving DecidableEq, Repr, Inhabited

/-- A GDP session (15 R410–R412): H is `hi` once `begun`; the cache holds its 16 latest responses, latest first;
`busy` are the SEQs carried to a hub or cell; `lostBatch` answers 0x0404 once (R419). -/
structure Session where
  rid : Nat
  inc : Nat
  begun : Bool
  hi : Nat
  cache : List Resp
  busy : List Nat
  notes : Nat
  lostBatch : Bool
  deriving DecidableEq, Repr, Inhabited

/-- A subscription (15 R420, R421). -/
structure Subscr where
  id : Nat
  rid : Nat
  port : Nat
  key : Nat
  mode : Nat
  period : Nat
  last : List Nat
  sentTick : Nat
  sentOnce : Bool
  deriving DecidableEq, Repr, Inhabited

/-- A DOMAIN value being written in segments (15 R402). -/
structure Partial where
  node : Nat
  key : Nat
  rid : Nat
  bytes : List Nat
  tick : Nat
  deriving DecidableEq, Repr, Inhabited

/-- An entry of a batch (15 R417). -/
structure BatchEntry where
  key : Nat
  ty : Nat
  val : List Nat
  deriving DecidableEq, Repr, Inhabited

/-- The GDP server (15): sessions, subscriptions, the end of the lease (tick), the open batch and whether its commit
waits for the boundary, the request that asked for it (SEQ, port, RID, INC), and partial DOMAINs. -/
structure Gdp where
  sessions : List Session
  subs : List Subscr
  nextSub : Nat
  leaseEnd : Nat
  batch : List BatchEntry
  committing : Bool
  commitSeq : Nat
  commitPort : Nat
  commitRid : Nat
  commitInc : Nat
  partials : List Partial
  deriving DecidableEq, Repr, Inhabited

/-- A host port (15 R405): datagrams waiting for GDP, the frames it sent last, and whether its link was up before. -/
structure PortSt where
  queue : List (List Nat)
  sent : List Resp
  arpSent : Bool
  echo : List Nat
  deriving DecidableEq, Repr, Inhabited

/-- What a service request of the CVC is for (09 R244, 16 R448). -/
inductive Purpose where
  /-- a host's request: port, RID, SEQ, INC and GDP message code -/
  | host (port rid seq inc msg : Nat)
  /-- a value the CVC itself wants: hub step, cell capacitance, hub summary, closure -/
  | own
  deriving DecidableEq, Repr, Inhabited

/-- A service request outstanding or queued (09 R243, R244). -/
structure SvcReq where
  tag : Nat
  node : Nat
  op : Nat
  key : Nat
  off : Nat
  val : List Nat
  rest : List Nat
  acc : List Nat
  left : Nat
  sent : Nat
  what : Purpose
  deriving DecidableEq, Repr, Inhabited

/-- The CVC's proxy of hubs and cells (09 R244): requests outstanding, requests queued, the next tag. -/
structure Proxy where
  out : List SvcReq
  queue : List SvcReq
  nextTag : Nat
  deriving DecidableEq, Repr, Inhabited

/-! ### Cycle, strings and hubs as the CVC holds them -/

/-- The converter's pending work (02 R43–R45): events that wait for a boundary (number, source), arm blocks (mask,
source), requests in the order written, whether a trip was kept in STARTING, whether boot.hub_wait and time.ptp_wait
have passed, and 1 once start-up is complete. -/
structure Conv where
  events : List (Nat × Nat)
  armBlocks : List (Nat × Nat)
  requests : List Nat
  tripKept : Bool
  hubWaited : Bool
  ptpWaited : Bool
  startDone : Nat
  deriving DecidableEq, Repr, Inhabited

/-- A hub as the CVC knows it (01 R17, R23; 14 R388): found, silicon step, report form, ports left out in the present cycle and in
the one before, and the HBC of its latest IDLE frame. -/
structure HubInfo where
  found : Bool
  wrong : Bool
  step : Nat
  form : Nat
  leftOut : Nat
  leftOutPrev : Nat
  hbc : Nat
  deriving DecidableEq, Repr, Inhabited

/-- A discovery answer (16 R448). -/
structure Answer where
  serial : Nat
  fw : Nat
  ctr : Nat
  step : Nat
  type : Nat
  flags : Nat
  ledger : Nat
  deriving DecidableEq, Repr, Inhabited

/-- A cell as the CVC knows it (16 R449, 03 R57): discovered, its latest answer, its capacitance as read, and whether it gave no answer
in the latest pass of the head and of the tail. -/
structure CellInfo where
  found : Bool
  ans : Answer
  cnom : Nat
  silentHead : Bool
  silentTail : Bool
  deriving DecidableEq, Repr, Inhabited

/-- A string as the CVC knows it (16 R449, 08 R212): the answers of the present head and tail passes, passes completed,
discovered, whether it is too long, and the latest cycle (plus 1) whose frame end each end has delivered (05 R114). -/
structure StrInfo where
  head : List Answer
  tail : List Answer
  headPasses : Nat
  tailPasses : Nat
  found : Bool
  tooLong : Bool
  headDone : Nat
  tailDone : Nat
  deriving DecidableEq, Repr, Inhabited

/-- PTP (10 R284–R286): the best master known, whether a two-step Sync waits for its Follow_Up, and whether N follows. -/
structure Ptp where
  best : Option Announce
  waitFup : Bool
  offsetSeen : Bool
  peerSent : Nat
  peerLast : List Nat
  utcLocked : Bool
  calDue : Bool
  latchedNs : Nat
  calK : Int
  deriving DecidableEq, Repr, Inhabited

/-- The redundant pair (14): the heartbeat counter; what was heard of the partner in this cycle on each path, and whether it
declared ACTIVE; what was heard since listening began; the role that listening gave (0 none yet); a partner of the same
identity; counts of unheard cycles on each path, of boundaries with no uplink, of cycles with two ACTIVE; peer frames
withheld; a return to STANDBY that waits for the boundary. -/
structure Red where
  hbc : Nat
  heardPeer : Bool
  heardHub : Bool
  activeHeard : Bool
  everHeard : Bool
  everActive : Bool
  outcome : Nat
  sameId : Bool
  missPeer : Nat
  missHub : Nat
  noUplink : Nat
  silent : Bool
  dual : Nat
  toStandby : Bool
  deriving DecidableEq, Repr, Inhabited

/-- The mirror a STANDBY CVC holds (14 R392, R393): whether any came, the bytes of each section received in this cycle, complete
cycles in a row, the tick of entering STANDBY, whether source 116 was raised for not having synchronised, section 0, and the
latest TSEQ relayed. -/
structure Mirror where
  any : Bool
  n0 : Nat
  n1 : Nat
  n2 : Nat
  n3 : Nat
  run : Nat
  since : Nat
  warned : Bool
  sec0 : List Nat
  relayTseq : Option Nat
  deriving DecidableEq, Repr, Inhabited

/-! ### The Rind (11) -/

/-- One channel of the Rind (11 R292–R308): a trip in force on its output, a readback that differs, a fault clear that waits for
the boundary, the latest outputs of its inputs 0–7 (latest first), arm currents of this cycle and the one before, arm
energies, cycles without an arm current, consecutive cycles of SLEW high and low, SLPD direction and power, and a breach since
the latest evaluation. -/
structure Chan where
  trip : Bool
  rbBad : Bool
  clearDue : Bool
  inputs : Tab (List Int)
  iArm : Tab (Option Int)
  iPrev : Tab (Option Int)
  wArm : Tab (Option Int)
  miss : Tab Nat
  hi : Tab Nat
  lo : Tab Nat
  dirRun : Tab Nat
  powRun : Tab Nat
  breach : Bool
  deriving DecidableEq, Repr, Inhabited

/-- The Rind (11): its channels; the reporter store (cell identifier, cycle plus 1 and I code), the latest valid V (in 10 µV) and
STATE of every cell; cycles of difference and of agreement, a disagreement, the tick at which DEGRADED ends, the steps of the
degraded factor taken and what it lies below 1.0; a reset request of one channel alone, the status mirror by offset, the tick
of the latest trip decision, and who armed an image and whether its commit waits for the boundary. -/
structure RindSt where
  a : Chan
  b : Chan
  reps : Tab (Nat × Int)
  cellV : Tab Nat
  cellSt : Tab Nat
  xcRun : Nat
  agreeRun : Nat
  disagree : Bool
  degEnd : Nat
  degJ : Nat
  below : Int
  alone : Nat
  mirror : Tab Nat
  tripAt : Nat
  armedBy : Nat
  commitDue : Bool
  deriving DecidableEq, Repr, Inhabited

/-! ### Harp and Arm Loop Engines (03, 04) -/

/-- A command to one cell (09 R233): state code (06 R134), polarity −1, phase 180, duty D, period in ns, and the cycle
it is for. -/
structure Cmd where
  state : Nat
  neg : Bool
  ph : Bool
  duty : Nat
  period : Nat
  k : Nat
  deriving DecidableEq, Repr, Inhabited

/-- The window of a cell as the latest completed run of its arm left it (03 R76): v_pred, key, budget, state commanded, trim age,
trim rest count and capacitance in use. -/
structure HarpWin where
  vpred : Int
  key : Int
  budget : Nat
  cmd : Nat
  age : Nat
  rest : Nat
  c : Nat
  deriving DecidableEq, Repr, Inhabited

/-- The Harp's record of one cell (03 R53, R56, R58, R61, R65, R67; 02 R42): whether its latest command came from the Harp, the
latest two commands and how many of them (0–2) were given in consecutive cycles since the cell's discovery, the last TRIM as signed
duty, v_pred, key and capacitance of the latest run, misses in a row, availability in that run, the clean reports counted since a loss
action, and the window shown. -/
structure HarpCell where
  budget : Nat
  age : Nat
  rest : Nat
  hasCmd : Bool
  given : Nat
  prev : Cmd
  prev2 : Cmd
  lastTrim : Int
  vpred : Int
  key : Int
  cUsed : Nat
  missRun : Nat
  avail : Bool
  forced : Bool
  clean : Nat
  lossSeen : Bool
  sev3 : Bool
  win : HarpWin
  deriving DecidableEq, Repr, Inhabited

/-- The Harp parameters of a side as in effect at an S (03 R54, R73), subindices 1–19. -/
structure HarpPar where
  vals : List Int
  deriving DecidableEq, Repr, Inhabited

/-- What a run of a selector shows once it has completed (03 R74, R75): u, n_ins, frac, avail, dir, trim_ids, the flags, and what it
adds to harp.stale, harp.mismatch and harp.switches. -/
structure HarpOut where
  u : Int
  nIns : Int
  frac : Int
  avail : Nat
  dir : Nat
  trimIds : Nat
  flags : Nat
  stale : Nat
  mismatch : Nat
  switches : Nat
  deriving DecidableEq, Repr, Inhabited

/-- The selector's state of one arm (03 R60, R62, R64, R67; 02 R38): first run still to come, signs held, trim
incumbents (identifier + 1, 0 = none), held cycles in a row, the commands ready, and the run that waits for its completion. -/
structure ArmHarp where
  started : Bool
  sigmaNeg : Bool
  polNeg : Bool
  trim0 : Nat
  trim1 : Nat
  heldRun : Nat
  ready : Bool
  out : Option HarpOut
  deriving DecidableEq, Repr, Inhabited

/-- A run of a loop as the acquisition channels see it (04 R94): the cycle plus 1, 0 for none, and its inj, s, m, e, integ, y
and u. -/
structure LoopRun where
  k1 : Nat
  inj : Int
  s : Int
  m : Int
  e : Int
  integ : Int
  y : Int
  u : Int
  deriving DecidableEq, Repr, Inhabited

/-- The Arm Loop Engine of one arm (04 R80, R82, R83, R87): out of reset state or in it, the first cycle (plus 1) it is to run since it
left reset state, 0 in it, the latest cycle (plus 1) it ran or
skipped, r, s_prev, integ, the biquad states z1 and z2 of sections 0–3, lim_prev, m as last measured, the output u waiting for
the arm context, I_ARM, U, S_LOOP and SEQ there, the latest cycle (plus 1) skipped, a skip since the latest boundary, an abort whose
flag the next run still shows (04 R93), the loop objects with i_rind and di_rind in effect at the present S and at the one before, and
the latest two runs. -/
structure ArmLoop where
  running : Bool
  fromK : Nat
  lastK : Nat
  r : Int
  sPrev : Int
  integ : Int
  z1 : List Int
  z2 : List Int
  limPrev : Int
  m : Int
  waiting : Bool
  uNext : Int
  ctxI : Int
  u : Int
  ctxS : Int
  seq : Nat
  skippedK : Nat
  skipNew : Bool
  injAbort : Bool
  applyWith : Nat
  par : List Int
  parPrev : List Int
  run : LoopRun
  runPrev : LoopRun
  deriving DecidableEq, Repr, Inhabited

/-- The test-signal injector (04 R90–R93): phase and phase step, cycle within the run and within the step, the shift
register, the present bit and how long it has been held, the values injected in this cycle and in the one before with their arms and
points, and a stop that waits for the boundary. -/
structure Inj where
  phase : Nat
  step : Nat
  cyc : Nat
  inStep : Nat
  reg : Nat
  bit : Bool
  held : Nat
  value : Int
  valuePrev : Int
  arms : Nat
  armsPrev : Nat
  point : Nat
  pointPrev : Nat
  stopDue : Bool
  deriving DecidableEq, Repr, Inhabited

/-- A record of the report area (05 R106); `k` is the cycle it landed in. -/
structure RepRec where
  v : Int
  i : Int
  seq : Nat
  state : Nat
  status : Nat
  compact : Bool
  loss : Bool
  valid : Bool
  land : Nat
  k : Nat
  deriving DecidableEq, Repr, Inhabited

/-! ### Control engines and the Vat (05) -/

/-- An item as an engine or a context slot holds it: slot, instance, class, cycle k with its S in ns and its H in ps, epoch at
dispatch, the operands copied at dispatch (R117), and running time used in ticks. -/
structure Item where
  slot : Nat
  inst : Nat
  critical : Bool
  k : Nat
  sAt : Int
  hAt : Int
  epoch : Nat
  ops : List Nat
  startTick : Nat
  usedTicks : Nat
  deriving DecidableEq, Repr, Inhabited

/-- The registers of an engine (05 R101, R102, R111): x1–x31 and f0–f31 as lists, pc, fcsr, hxflags, the reservation of
LR (address), and the latch of TNOWH. -/
structure Regs where
  x : List Nat
  f : List Nat
  pc : Nat
  fcsr : Nat
  hx : Nat
  resv : Option Nat
  csr : Tab Nat
  deriving DecidableEq, Repr, Inhabited

/-- A control engine: its item and registers, the context slot with the suspended item (05 R120), the latch of TNOWH, since
when it is busy in this cycle, its busy ticks in this cycle, and those of earlier cycles, latest first (05 R130). -/
structure EngState where
  item : Option Item
  regs : Regs
  saved : Option Item
  savedRegs : Regs
  tnowHi : Nat
  busyAt : Nat
  busyAcc : Nat
  load : List Nat
  deriving DecidableEq, Repr, Inhabited

/-- The states of an instance, as vat.slot_state codes them (05 R131). -/
inductive InstState where
  | disabled | idle | waiting | ready | running | suspended | done | fault
  deriving DecidableEq, Repr, Inhabited

/-- The code of vat.slot_state (05 R131). -/
def InstState.code : InstState → Nat
  | .disabled => 0 | .idle => 1 | .waiting => 2 | .ready => 3 | .running => 4 | .suspended => 5 | .done => 6
  | .fault => 7

/-- One instance of a slot (05 R115): state, bound cycle, operands and present marks of tags 0–7, the tick it became
ready, and the code it completed with. -/
structure Inst where
  st : InstState
  k : Nat
  ops : List Nat
  present : Nat
  readyTick : Nat
  deriving DecidableEq, Repr, Inhabited

/-- A Vat slot (05 R113–R116, R123, R124, R131); `tagDone` holds for each REPORTS tag the latest cycle (plus 1) for which it was made
present (R114). -/
structure SlotState where
  ctrl : Nat
  arms : Nat
  entry : Nat
  tags : List Nat
  epoch : Nat
  i0 : Inst
  i1 : Inst
  fault : Bool
  rearm : Bool
  moveDue : Option Nat
  newDesc : Option (List Nat)
  flags : Nat
  code : Nat
  runs : Nat
  tagDone : Tab Nat
  deriving DecidableEq, Repr, Inhabited

/-- An engine package that waits for its verification or its boundary, and whether one is in effect (05 R127). -/
structure Package where
  staged : List Nat
  verified : Bool
  loaded : Bool
  deriving DecidableEq, Repr, Inhabited

/-! ### Strings as cells and hub ports hold them (08) -/

/-- A PLAN as received (08 R205, R209): its fields, the lanes it clears with RST, and whether no latch has come since. -/
structure PlanRx where
  a : Nat
  b : Nat
  brk : Bool
  rst : Bool
  lh : Nat
  lt : Nat
  seq : Nat
  form : Nat
  pseq : Nat
  clears : List Nat
  fresh : Bool
  deriving DecidableEq, Repr, Inhabited

/-- A plan in force (08 R209); launcher 63 is none. -/
structure PlanV where
  a : Nat
  b : Nat
  brk : Bool
  lh : Nat
  lt : Nat
  form : Nat
  deriving DecidableEq, Repr, Inhabited

/-- What a cell or a hub port holds of its string (08 R209, R211): the PLANs received, latest first, the lanes learned
lost by BREAK, the own lanes lost, those for which MEND goes out at each boundary, and the plan latched. -/
structure PlanSt where
  rx : List PlanRx
  learned : List Nat
  own : List Nat
  mends : List Nat
  latched : Option PlanV
  deriving DecidableEq, Repr, Inhabited

/-- A hub port (08 R211–R213): its plan state, the cycles for which RST is still sent, PSEQ with the values it numbers,
cells in pass-through, the ends that have begun their collect frame in this cycle, and those whose frame was cut. -/
structure HubPort where
  plan : PlanSt
  rstLeft : Nat
  pseq : Nat
  last : PlanV
  passed : List Nat
  begunHead : Bool
  begunTail : Bool
  cutHead : Bool
  cutTail : Bool
  deriving DecidableEq, Repr, Inhabited

/-- The heartbeat of one CVC as a hub knows it (14 R382–R385): the counter, role, authority epoch and SEQ of its latest IDLE
frame, whether one came in this cycle, whether one of this cycle declared ACTIVE, and whether one came
in the cycle before. -/
structure HubCvc where
  hbc : Nat
  role : Nat
  aepoch : Nat
  seq : Nat
  heard : Bool
  active : Bool
  heardPrev : Bool
  deriving DecidableEq, Repr, Inhabited

/-- A hub (08 R217–R220, 14 R382–R385): its ports, the CVCs, the cycles in which the CVC of its
allegiance did not declare ACTIVE, the form and the strings left out that it was told, the trip
generation it latched, the SEQ (plus 1) of a SYNC_UP found bad on its first lane, and a SYNC_UP of its second lane held for
that case. -/
structure Hub where
  ports : Tab HubPort
  a : HubCvc
  b : HubCvc
  silentRun : Nat
  form : Nat
  omitted : Nat
  tgen : Nat
  upBad : Nat
  heldUp : Option (Nat × Frame × Int)
  found : Bool
  deriving DecidableEq, Repr, Inhabited

/-- A channel of the acquisition system (13 R360–R366): samples written in the record, the time of the first of them and the
period, in 1/256 ns; the latest available sample and the one before, whether the latest sample is available and new to the
sequencer; the samples still to write once the trigger has come, and those written before it. -/
structure AcqCh where
  total : Nat
  t0 : Int
  period : Nat
  latest : Int
  before : Option Int
  known : Bool
  now : Bool
  fresh : Bool
  left : Option Nat
  atTrig : Nat
  deriving DecidableEq, Repr, Inhabited

/-- The first mask violation of a record (13 R372): time in 1/256 ns, channel, index after the trigger sample, value. -/
structure AcqViol where
  time : Int
  ch : Nat
  idx : Nat
  val : Int
  deriving DecidableEq, Repr, Inhabited

/-- The acquisition system (13 R363–R372): its channels; armed and waiting for the step at which recording begins, a stop or a
forced trigger that waits for the next step, closing; the record number, bank, and the banks that wait for their release; steps
in the present state and the counters of the conditions; flags of the header, the trigger's time, state, cause, cycle,
calendar offset and epoch; the first violation and their number; triggers ignored in the re-arm in course and before this record,
with the time of the first; ACQ_TRIG_OUT, and the level of ACQ_TRIG_IN. -/
structure AcqSt where
  chans : Tab AcqCh
  beginDue : Bool
  stopDue : Bool
  forceDue : Bool
  closing : Bool
  recno : Nat
  bank : Nat
  heldA : Bool
  heldB : Bool
  steps : Nat
  counts : Tab Nat
  flags : Nat
  coinc : Nat
  trigTime : Nat
  fromSt : Nat
  cause : Nat
  cycle : Nat
  calK : Int
  epoch : Nat
  viol : Option AcqViol
  viols : Nat
  ign : Nat
  ignFirst : Nat
  recIgn : Nat
  recIgnFirst : Nat
  trigOut : Bool
  trigIn : Bool
  deriving DecidableEq, Repr, Inhabited

/-- The CVC (02–05, 10–16) beside its objects; `hLast` is the cycle of the latest H plus 1, `hOff` and `hOffPrev` are
H − S of the present cycle and of the one before, in ps, `capsRead` says that cell.c_nom has been read since the
converter left STOPPED (03 R57), `armFrom` the first cycle (plus 1) in which slots were armed since arming began, 0
while none is (05 R126), `pars` the Harp parameters of sides A and B at the present S and at the one before, `epItems`
and `epSinks` the takeovers that count in the placement epochs (05 R123), `bsOut` the latest output of each control
bitstream channel with its values at the present S and at the one before (04 R79), `acqEv` the events since the last
sequencer step with what they carry (13 R371, 04 R94), `tookOver` the first cycle after a takeover (14 R389), `asymDue`
the shares of a closure that wait for the next boundary (10 R281). -/
structure Cvc where
  bsOut : Tab Int
  bsAtS : Tab Int
  bsPrev : Tab Int
  acqEv : List (Nat × Nat)
  acq : AcqSt
  tookOver : Bool
  hLast : Nat
  hOff : Int
  hOffPrev : Int
  capsRead : Bool
  armFrom : Nat
  pars : List HarpPar
  epItems : Nat
  epSinks : Nat
  conv : Conv
  hubs : Tab HubInfo
  cells : Tab CellInfo
  strs : Tab StrInfo
  ptp : Ptp
  red : Red
  mirror : Mirror
  rind : RindSt
  harp : Tab HarpCell
  harpArms : Tab ArmHarp
  loops : Tab ArmLoop
  inj : Inj
  reports : Tab RepRec
  engines : Tab EngState
  slots : Tab SlotState
  package : Package
  gdp : Gdp
  ports : Tab PortSt
  proxy : Proxy
  applies : List (Nat × Nat × List (Nat × Int))
  asymDue : List (Part × Nat × Int)
  deriving DecidableEq, Repr, Inhabited

/-- A command filed for an apply instant (02 R30, 06 R140): cycle, command, authority epoch, whether it came before the
latest trip frame. -/
structure Filed where
  k : Nat
  cmd : Cmd
  epoch : Nat
  stale : Bool
  deriving DecidableEq, Repr, Inhabited

/-- The trim carrier beside pwm.prd and pwm.cmp (06 R142–R149): shadows, whether PRD's is pending and the load armed, the
period index, whether the insert side is on; the ticks, plus 1, of the latest load point and of the latest load since the entry
(0: none), which tell a write made in the tick of a load point (R144). -/
structure Carrier where
  prdSh : Nat
  cmpSh : Nat
  prdPend : Bool
  armed : Bool
  j : Nat
  inserted : Bool
  pointTick : Nat
  loadTick : Nat
  deriving DecidableEq, Repr, Inhabited

/-- The always-on domain of a cell beside its objects (07): READY since power-on, the activities that hold a commitment, a
wake seen, AON wanted, RESET_N being timed, the sums of the running millisecond and its samples, the store at the last
sample, boot and lanes whose request is repeated, the lanes refused for 100 ms, the power state asked for, and CORE_PG. -/
structure Ledger where
  armed : Bool
  holds : List Nat
  wake : Bool
  aon : Bool
  timing : Bool
  sumDraw : Nat
  sumIn : Int
  samples : Nat
  lastStore : Nat
  bootWant : Bool
  laneWant : List Nat
  laneGaveUp : List Nat
  pwrWant : Option Nat
  pg : Bool
  deriving DecidableEq, Repr, Inhabited

/-- A sample as a cell reports it: taken at S (06 R141, R162). -/
structure Sample where
  k : Nat
  v : Nat
  i : Int
  state : Nat
  cseq : Nat
  deriving DecidableEq, Repr, Inhabited

/-- The cell's capture (13 R373, R374): records of the four channels, latest first, the trigger's position, whether it
fills, and the samples still to come after the trigger. -/
structure Capture where
  recs : List (List Int)
  total : Nat
  trigger : Option Nat
  after : Nat
  deriving DecidableEq, Repr, Inhabited

/-- A cell controller beside its objects (06, 07, 08): its plan; whether its core has stopped on an uncorrectable
fault (08 R216); the position its lane block knows; whether its position is known; flags of its next report (09 R238);
commands filed, the last apply instant passed, the command in force with its SEQ and whether one was ever applied,
hold, missed in a row; trip hold, the trip generation it acted on; gate outputs (bit n is GCn), the tick of each one's
latest turn-on, turn-ons waiting, feedbacks compared, inputs blanked and counted; firing, and the level of BYP_STAT
since it was first seen; the carrier; the sample; the always-on domain; the capture. -/
structure Cell where
  plan : PlanSt
  halted : Bool
  lanePos : Nat
  posKnown : Bool
  viol : Bool
  chkErr : Bool
  tripRx : Bool
  filed : List Filed
  applied : Nat
  everLocked : Bool
  cmd : Cmd
  cseq : Nat
  hasCmd : Bool
  hold : Bool
  missRun : Nat
  tripHold : Bool
  hasTgen : Bool
  tripSeen : Option Nat
  gates : Nat
  onAt : Tab Nat
  waiting : Nat
  compared : Nat
  blanked : Nat
  counted : Nat
  fireWait : Bool
  firing : Bool
  retries : Nat
  confirmed : Bool
  bypPin : Option Bool
  car : Carrier
  pendV : Nat
  pendI : Int
  sample : Sample
  led : Ledger
  cap : Capture
  deriving DecidableEq, Repr, Inhabited

/-- The parts of the station and the model's own counters: ticks of 2.5 ns (10 R267) and free values used. -/
structure Plant where
  nodes : Tab Node
  cvc : Cvc
  hubs : Tab Hub
  cells : Tab Cell
  tick : Nat
  freeCtr : Nat
  deriving DecidableEq, Repr

/-- The state of the block: the parts, the memories of 05 R105 in canonical form, and the commands that wait. -/
structure State where
  plant : Plant
  mem : List Host.Cell
  pending : List Instr
  deriving DecidableEq, Repr

/-- The plant right after a power-on reset: nothing differs from the defaults (16 R436). -/
def Plant.reset : Plant := { nodes := [], cvc := default, hubs := [], cells := [], tick := 0, freeCtr := 0 }

/-- The machine right after reset (16 R429, R436): every object at its default, every part held in its power-on reset,
memory with nothing listed, no command waiting. -/
def State.reset : State := { plant := Plant.reset, mem := [], pending := [] }

end Sys2Proof.Machine
end

