-- ==== Sys2Proof/Machine/Ops.lean ====
section
/-! DEFINITION. The shared operations: reading and writing objects, time, Cave records, frames and ordered sets sent, lanes,
raising a fault, a trip decision and the converter's transitions. -/

namespace Sys2Proof

/-- The frame type (09 R231). -/
def Frame.ty (f : Frame) : Nat := bits f.hdr.toNat 55 52

/-- Blocks of a frame: start, data, terminate (09 R230). -/
def Frame.blocks (f : Frame) : Nat := f.data.length + 2

end Sys2Proof

namespace Sys2Proof.Machine

/-! ### Parts and objects -/

/-- A part as it is right after a power-on reset, before RESET_N rises (16 R429, R436, R437). -/
def nodeDflt (a : Nat) : Node :=
  { part := (partOf a).getD .cvc, objs := [], blobs := [], stored := [], storedBlobs := [], cave := default,
    faults := default,
    power := { core := false, rails := true, held := true, holdStart := 0, longFlag := false, causes := 3,
               restore := false, softDue := false, storing := false, snap := [], snapBlobs := [],
               fwWriting := false, fwVersion := 0, fwNamed := 0, heldMs := 0, releasedAt := 0, imageDue := false,
               sigFw0 := none, sigFw1 := none, sigNew := 0, sigDict := none, sigSafety := none,
               pins := { strap := 0, fwPath := 0, selfX := true, selfY := true, package := true, imageA := true,
                         imageB := true },
               chLow := 0 },
    clock := default, sched := default, lanes := [], slotSwitch := [], seg := none, ckDone := [] }

/-- A part's record. -/
def Plant.node (p : Plant) (q : Part) : Node := Tab.get nodeDflt p.nodes q.node

/-- Writes a part's record. -/
def Plant.setNode (p : Plant) (q : Part) (n : Node) : Plant := { p with nodes := Tab.set nodeDflt p.nodes q.node n }

/-- Changes a part's record. -/
def Plant.onNode (p : Plant) (q : Part) (f : Node → Node) : Plant := p.setNode q (f (p.node q))

/-- The value in effect of an object (15 R399). -/
def Plant.get (p : Plant) (q : Part) (key : Nat) : Int := Tab.get (objDefault q.node) (p.node q).objs key

/-- The value in effect of an unsigned object. -/
def Plant.getN (p : Plant) (q : Part) (key : Nat) : Nat := (p.get q key).toNat

/-- Sets the value in effect of an object. -/
def Plant.put (p : Plant) (q : Part) (key : Nat) (v : Int) : Plant :=
  p.onNode q (fun n => { n with objs := Tab.set (objDefault q.node) n.objs key v })

/-- An object of the CVC. -/
def Plant.c (p : Plant) (key : Nat) : Nat := p.getN .cvc key

/-- Sets an object of the CVC. -/
def Plant.cPut (p : Plant) (key : Nat) (v : Int) : Plant := p.put .cvc key v

/-- The bits of an unsigned object of a part. -/
def objWidth (q : Part) (key : Nat) : Nat :=
  match rowOf q.kind key with
  | some r => 8 * r.ty.size
  | none => 32

/-- Adds to a count that saturates (00_scope.md, Object tables: "saturates"). -/
def Plant.bump (p : Plant) (q : Part) (key : Nat) (n : Nat) : Plant :=
  p.put q key (satAdd (objWidth q key) (p.get q key) n)

/-- Raises a maximum that an object shows. -/
def Plant.raiseMax (p : Plant) (q : Part) (key : Nat) (v : Int) : Plant :=
  if p.get q key < v then p.put q key v else p

/-- A DOMAIN or STRING value. -/
def Plant.blob (p : Plant) (q : Part) (key : Nat) : List Nat := Tab.get (fun _ => []) (p.node q).blobs key

/-- Sets a DOMAIN or STRING value. -/
def Plant.putBlob (p : Plant) (q : Part) (key : Nat) (v : List Nat) : Plant :=
  p.onNode q (fun n => { n with blobs := Tab.set (fun _ => []) n.blobs key v })

/-- The part's core runs (16 R434). -/
def Plant.up (p : Plant) (q : Part) : Bool := (p.node q).power.core


/-- Uses a free value (Config.freeNat; log entry 6). -/
def Plant.free (p : Plant) : Nat × Plant := (Config.freeNat p.freeCtr, { p with freeCtr := p.freeCtr + 1 })

/-- The hub n. -/
def Plant.hub (p : Plant) (n : Fin 8) : Hub := Tab.get (fun _ => default) p.hubs n.val

/-- Changes hub n. -/
def Plant.onHub (p : Plant) (n : Fin 8) (f : Hub → Hub) : Plant :=
  { p with hubs := Tab.upd (fun _ => default) p.hubs n.val f }

/-- A cell controller. -/
def Plant.cell (p : Plant) (c : CellId) : Cell := Tab.get (fun _ => default) p.cells (cellNum c)

/-- Changes a cell controller. -/
def Plant.onCell (p : Plant) (c : CellId) (f : Cell → Cell) : Plant :=
  { p with cells := Tab.upd (fun _ => default) p.cells (cellNum c) f }

/-- A cell's core has stopped on an uncorrectable fault (08 R216). -/
def Plant.halted (p : Plant) (q : Part) : Bool :=
  match q with
  | .cell c => (Tab.get (fun _ => default) p.cells (cellNum c)).halted
  | _ => false

/-- The part's core runs steward firmware: it has not stopped (08 R216) and is not in recovery (16 R447), where a cell only passes
through. -/
def Plant.serving (p : Plant) (q : Part) : Bool := p.up q && !p.halted q && p.getN q K.bootStatus != 2

/-- Changes the CVC's own record. -/
def Plant.onCvc (p : Plant) (f : Cvc → Cvc) : Plant := { p with cvc := f p.cvc }

/-- Maps over the Option. -/
def Plant.ifSome {α : Type} (p : Plant) (o : Option α) (f : Plant → α → Plant) : Plant :=
  match o with
  | some a => f p a
  | none => p

/-- Acts when a condition holds. -/
def Plant.iff (p : Plant) (b : Bool) (f : Plant → Plant) : Plant := if b then f p else p

/-! ### Time (10 R267, R270) -/

/-- O of a clock at a tick, in units of 2^-41 ns. -/
def Clock.offset (c : Clock) (tick : Nat) : Int :=
  let d : Nat := tick - c.oAt
  c.o + 5 * c.rho * d + (if d < c.slewLen then c.slew * d / c.slewLen else c.slew)

/-- N of a clock at a tick, in units of 2^-41 ns: L advances by 2.5 ns a tick. -/
def Clock.n (c : Clock) (tick : Nat) : Int := 5 * 2 ^ 40 * ((tick - c.l0 : Nat) : Int) + c.offset tick

/-- The clock with O as it stands at a tick and what is left of its slew. -/
def Clock.rebase (c : Clock) (tick : Nat) : Clock :=
  let d := tick - c.oAt
  let done := if d < c.slewLen then c.slew * d / c.slewLen else c.slew
  { c with o := c.offset tick, oAt := tick, slew := c.slew - done, slewLen := c.slewLen - d }

/-- N of a part now, in units of 2^-41 ns. -/
def Plant.nowU (p : Plant) (q : Part) : Int := (p.node q).clock.n p.tick

/-- N of a part now, in 1/256 ns. -/
def Plant.now256 (p : Plant) (q : Part) : Int := p.nowU q / 2 ^ 33

/-- N of a part now in ns: 64 bits in the CVC, 32 bits in hubs and cells (10 R268). -/
def Plant.now (p : Plant) (q : Part) : Nat :=
  unsigned (if q.kind = 0 then 64 else 32) (p.nowU q / 2 ^ 41)

/-- N in ns with the wraps a hub or cell has counted (10 R290). -/
def Plant.nowLong (p : Plant) (q : Part) : Nat :=
  if q.kind = 0 then p.now q else p.getN q K.timeWraps * 2 ^ 32 + p.now q

/-- Ticks of 2.5 ns in a number of ns. -/
def ticksNs (ns : Nat) : Nat := ns * 2 / 5

/-- Ticks in a number of microseconds. -/
def ticksUs (us : Nat) : Nat := us * 400

/-- Ticks in a number of milliseconds. -/
def ticksMs (ms : Nat) : Nat := ms * 400000

/-- Hundredths of a ns since the S of the part's schedule, by the part's own clock. -/
def Plant.sinceS (p : Plant) (q : Part) : Int :=
  let n := p.nowU q * 100 / 2 ^ 41
  let s : Int := 100 * ((p.node q).sched.s : Int)
  if q.kind = 0 then n - s
  else (n - s + 50 * 2 ^ 32) % (100 * 2 ^ 32) - 50 * 2 ^ 32

/-- A schedule moved on to the cycle that holds the instant a number of ns after its S, through a change of Tc and Ta announced for a
boundary (02 R28, R29; 10 R274). -/
def Sched.after (sc : Sched) (ns : Int) : Sched :=
  let jump := unsigned 32 ((sc.chgS : Int) - sc.s)
  if sc.chgDue ∧ 0 < jump ∧ (jump : Int) ≤ ns ∧ jump % sc.tc = 0 then
    let d := ((ns - jump) / (sc.chgTc : Int)).toNat
    { sc with
      s := (sc.s + jump + d * sc.chgTc) % 2 ^ 32, k := sc.k + jump / sc.tc + d, tc := sc.chgTc, ta := sc.chgTa, chgDue := false,
      primary := false }
  else
    let d := (ns / (sc.tc : Int)).toNat
    { sc with s := (sc.s + d * sc.tc) % 2 ^ 32, k := sc.k + d, primary := sc.primary && d == 0 }

/-- The schedule of the cycle that a part's own network time shows; the CVC's own boundaries open its cycles. -/
def Plant.schedNow (p : Plant) (q : Part) : Sched :=
  let sc := (p.node q).sched
  if q.kind = 0 ∨ !sc.valid then sc else sc.after (p.sinceS q / 100)

/-- The schedule of the cycle whose S is nearest: at an instant that is an S by the part's own network time. -/
def Plant.schedAtS (p : Plant) (q : Part) : Sched :=
  let sc := (p.node q).sched
  if q.kind = 0 ∨ !sc.valid then sc else sc.after (p.sinceS q / 100 + sc.tc / 2)

/-- A part knows its cycle and checks SEQ by it (R247): the CVC with a cycle open, a locked cell, a hub that is not UNLOCKED (log
entry 85). -/
def Plant.knowsCycle (p : Plant) (q : Part) : Bool :=
  let st := p.getN q K.timeState
  match q with
  | .cvc => (p.node q).sched.valid
  | .hub _ => (p.node q).sched.valid && st != 0
  | .cell _ => st == 2 || st == 3

/-! ### Converter state and role -/

/-- The codes of conv.state (02 R43): OFF 0, STARTING 1, STOPPED 2, CHARGING 3, BLOCKED 4, RUNNING 5, DEGRADED 6,
TRIPPED 7. A CVC held in reset is OFF. -/
def Plant.conv (p : Plant) : Nat := if p.up .cvc then p.c K.convState else 0

/-- The CVC is ACTIVE (14 R379). -/
def Plant.active (p : Plant) : Bool := p.up .cvc && p.c K.redRole == 3

/-- Loops, Harp and items run: RUNNING or DEGRADED in an ACTIVE CVC (02 R49, 14 R379). -/
def Plant.runs (p : Plant) : Bool := p.active && (p.conv == 5 || p.conv == 6)

/-- Tc and Ta in force in the CVC, in ns (02 R28). -/
def Plant.tc (p : Plant) : Nat := (p.node .cvc).sched.tc
/-- Ta in force in the CVC, in ns. -/
def Plant.ta (p : Plant) : Nat := (p.node .cvc).sched.ta
/-- k of the present cycle (02 R29). -/
def Plant.k (p : Plant) : Nat := p.c K.cycleCount
/-- The low 8 bits of k. -/
def Plant.kSeq (p : Plant) : Nat := p.k % 256

/-- The CVC is one of a pair (01 R25). -/
def Plant.paired (p : Plant) : Bool := p.c K.stationPair == 1

/-- The station has a pair, as the CVC holds it in effect or, in reset, stored. -/
def Plant.stationPaired (p : Plant) : Bool :=
  if p.up .cvc then p.paired else Tab.get (objDefault 0) (p.node .cvc).stored K.stationPair == 1

/-- Side B's arms exist (01 R25). -/
def Plant.twoSides (p : Plant) : Bool := p.c K.stationMode == 1

/-- Side of an arm (00_scope.md, Glossary). -/
def sideOf (a : Nat) : Nat := a / 6

/-- The arm that station.string_arm names for a string, 0xFF for none (01 R20). -/
def Plant.mappedArm (p : Plant) (s : Nat) : Nat := p.c (K.stationStringArm + s)

/-- The arm a string feeds, 0xFF for none (01 R20): the entry of a string on a hub that is not part of the station is ignored
(01 R26). -/
def Plant.armOfString (p : Plant) (s : Nat) : Nat :=
  if bitOf (p.c K.stationHubsExpected) (s / 24) then p.mappedArm s else 0xFF

/-- The strings that feed an arm. -/
def Plant.stringsOf (p : Plant) (a : Nat) : List Nat := (rangeFrom 0 192).filter (fun s => p.armOfString s == a)

/-- The cells of a string that have been discovered, by cell identifier. -/
def Plant.cellsOfString (p : Plant) (s : Nat) : List Nat :=
  (rangeFrom (s * 64) (p.c (K.stringCells + s))).filter (fun id => (Tab.get (fun _ => default) p.cvc.cells id).found)

/-- The discovered cells of an arm, in ascending identifier. -/
def Plant.cellsOfArm (p : Plant) (a : Nat) : List Nat := (p.stringsOf a).flatMap p.cellsOfString

/-- An arm is used: it has at least one mapped string (05 R107, USED; 01 R21). -/
def Plant.armUsed (p : Plant) (a : Nat) : Bool := !(p.stringsOf a).isEmpty

/-- The arms in use. -/
def Plant.armsUsed (p : Plant) : List Nat := (rangeFrom 0 12).filter p.armUsed

/-! ### The Cave (12 R344–R350) -/

/-- Records a Cave's queue holds (12 R349). -/
def caveQueueMax : Nat → Nat
  | 0 => 256
  | 1 => 64
  | _ => 16

/-- The time fields of a record made now (12 R346): TB, and TIME. -/
def Plant.caveTime (p : Plant) (q : Part) : Bool × Nat :=
  if q.kind = 0 then
    if p.c K.timeCalSrc = 0 then (true, p.now q)
    else (false, unsigned 64 ((p.now q : Int) + p.get q K.timeCalOffset))
  else (true, p.nowLong q)

/-- A record made now, before it has a sequence number and a slot. -/
def Plant.caveRec (p : Plant) (q : Part) (code src p0 p1 p2 : Nat) (payload : List Nat) : CaveRec :=
  { seq := 0, code := code, epoch := p.getN q K.timeEpoch, tb := (p.caveTime q).1, keep := false, fixed := true,
    src := src, time := (p.caveTime q).2, p0 := p0, p1 := p1, p2 := p2, payload := payload, slot := 0, slots := 1 }

/-- The queue has room. -/
def Plant.caveRoom (p : Plant) (q : Part) : Bool := decide ((p.node q).cave.queue.length < caveQueueMax q.kind)

/-- Puts a record into the queue. -/
def Plant.caveQueue (p : Plant) (q : Part) (r : CaveRec) : Plant :=
  p.onNode q (fun n => { n with cave := { n.cave with queue := n.cave.queue ++ [r] } })

/-! ### Lanes and frames (08, 09) -/

/-- The key of a lane object (08 R225). -/
def laneKey (lane sub : Nat) : Nat := (0x3800 + lane) * 256 + sub
/-- The key of a frame object of a lane (09 R263). -/
def tamKey (lane sub : Nat) : Nat := (0x3900 + lane) * 256 + sub
/-- The key of a time object of a lane (10 R291). -/
def timeKey (lane sub : Nat) : Nat := (0x1280 + lane) * 256 + sub

/-- A lane end. -/
def Plant.lane (p : Plant) (q : Part) (l : Nat) : Lane := Tab.get (fun _ => default) (p.node q).lanes l

/-- Changes a lane end. -/
def Plant.onLane (p : Plant) (q : Part) (l : Nat) (f : Lane → Lane) : Plant :=
  p.onNode q (fun n => { n with lanes := Tab.upd (fun _ => default) n.lanes l f })

/-- The state code of a lane (08 R225): 0 off, 1 training, 2 L0, 3 L1, 4 L2, 5 test or loopback. -/
def Plant.laneState (p : Plant) (q : Part) (l : Nat) : Nat := p.getN q (laneKey l 2)

/-- The lane carries frames: L0 or L1 (08 R200). -/
def Plant.laneUp (p : Plant) (q : Part) (l : Nat) : Bool := p.laneState q l == 2 || p.laneState q l == 3

/-- The bytes of a frame that its check covers (09 R246). -/
def frameBytes (f : Frame) : List Nat :=
  beBytes 7 f.hdr.toNat ++ f.data.flatMap (fun b => beBytes 8 b.toNat) ++ [f.fbh.toNat]

/-- The check of a frame over its bytes (09 R246). -/
def frameCrc (f : Frame) : Nat := crc32c (frameBytes f)

/-- The frame with its own check and none found bad, as its originator sends it. -/
def mkFrame (hdr : Nat) (data : List Nat) : Frame :=
  let f : Frame := ⟨BitVec.ofNat 56 hdr, data.map (BitVec.ofNat 64), 0xFF, 0⟩
  { f with chk := BitVec.ofNat 32 (frameCrc f) }

/-- How a frame's check stands at its receiver: good, stomped upstream, or found bad here (09 R246). -/
inductive ChkState where
  | good | stomped | bad
  deriving DecidableEq, Repr

/-- The check of a received frame (09 R246). -/
def chkState (f : Frame) : ChkState :=
  if f.chk.toNat = frameCrc f then .good
  else if f.chk.toNat = 0xFFFFFFFF - frameCrc f then .stomped
  else .bad

/-- The frame as a hop forwards it with new header and data (09 R246): checked afresh, or stomped. -/
def forwardFrame (hop : Nat) (f : Frame) (hdr : Header) (data : List Block) : Frame :=
  let fbh : Byte := match chkState f with
    | .bad => if f.fbh = 0xFF then BitVec.ofNat 8 hop else f.fbh
    | _ => f.fbh
  let g : Frame := ⟨hdr, data, fbh, 0⟩
  let c := frameCrc g
  { g with chk := BitVec.ofNat 32 (match chkState f with | .good => c | _ => 0xFFFFFFFF - c) }

/-- Requester order of the lane arbiter, lowest first served (09 R254). -/
def framePrec : Nat → Nat
  | 3 => 0
  | 4 => 1
  | 1 => 2
  | 2 => 3
  | 5 => 4
  | _ => 5

/-- Blocks that wait on a lane end. -/
def Lane.waiting (l : Lane) : Nat := (l.txq.map Frame.blocks).sum + (match l.again with | some f => f.blocks | none => 0)

/-- Queues a frame on a lane end; a cell's transmit port buffers 128 blocks (09 R254). A lane that is not in L0 or L1
takes none. -/
def Plant.send (p : Plant) (q : Part) (l : Nat) (f : Frame) : Plant :=
  if !p.laneUp q l then p
  else if q.kind = 2 ∧ 128 < (p.lane q l).waiting + f.blocks then p.bump q (tamKey l 0x0A) 1
  else p.onLane q l (fun e => { e with txq := e.txq ++ [f] })

/-- The lane of a pair that a frame takes: the one with less waiting, the first on a tie (08 R217). -/
def Plant.pairLane (p : Plant) (q : Part) (l0 l1 : Nat) : Option Nat :=
  match p.laneUp q l0, p.laneUp q l1 with
  | true, true =>
    let w := fun l => (p.lane q l).waiting + (match (p.lane q l).tx with | some f => f.blocks | none => 0)
    some (if w l1 < w l0 then l1 else l0)
  | true, false => some l0
  | false, true => some l1
  | false, false => none

/-- Queues a frame on one lane of a pair (08 R217). -/
def Plant.sendPair (p : Plant) (q : Part) (l0 l1 : Nat) (f : Frame) : Plant :=
  p.ifSome (p.pairLane q l0 l1) (fun p l => p.send q l f)

/-- Puts an abort block on a lane end in L0 or L1 (09 R230, R255). -/
def Plant.sendAbort (p : Plant) (q : Part) (l : Nat) : Plant :=
  if p.laneUp q l then p.onLane q l (fun e => { e with aborts := e.aborts + 1 }) else p

/-- The ordered set with its check in [7:0] (08 R205). -/
def mkOs (payload : Nat) : Header :=
  BitVec.ofNat 56 (payload * 256 + crc8 (beBytes 6 payload))

/-- An ordered set passes its check and its CODE is defined (08 R205, R206). -/
def osGood (os : Header) : Bool :=
  let x := os.toNat
  crc8 (beBytes 6 (x / 256)) == x % 256 && (let c := bits x 55 52; c == 1 || c == 2 || c == 3)

/-- Sends an ordered set on a lane end in L0 or L1; `always` sends it whatever the lane's state (08 R206, R210). -/
def Plant.sendOs (p : Plant) (q : Part) (l : Nat) (always : Bool) (os : Header) : Plant :=
  if always || p.laneUp q l then p.onLane q l (fun e => { e with osOut := e.osOut ++ [os] }) else p

/-! ### Raising a fault (12 R335–R343), trips (11 R306) and the converter (02 R43) -/

/-- Actions of R43 that hardware takes at a boundary (events 10, 12 and 14), with the source that caused them. -/
def Plant.convEvent (p : Plant) (ev src : Nat) : Plant :=
  if p.cvc.conv.events.contains (ev, src) then p
  else p.onCvc (fun c => { c with conv := { c.conv with events := c.conv.events ++ [(ev, src)] } })

/-- Arms that event 12 blocks at the next boundary (02 R44). -/
def Plant.armBlockDue (p : Plant) (mask src : Nat) : Plant :=
  p.onCvc (fun c => { c with conv := { c.conv with armBlocks := c.conv.armBlocks ++ [(mask, src)] } })

/-- The trip frame of the CVC (09 R241). -/
def tripFrame (p : Plant) (cause : Nat) : Frame :=
  mkFrame (3 * 2 ^ 52 + p.c K.redId * 2 ^ 51 + p.kSeq * 2 ^ 40 + p.c K.redAepoch * 2 ^ 24 +
    (p.c K.tamTgen % 16) * 2 ^ 20 + cause * 2 ^ 12) []

/-- An uplink lane leads to a hub that stands on the wrong lanes: the CVC carries only service frames there (01 R17). -/
def Plant.serviceOnly (p : Plant) (l : Nat) : Bool := decide (l < 16) && (Tab.get (fun _ => default) p.cvc.hubs (l / 2)).wrong

/-- Sends a frame that is no service frame on a lane of the CVC (01 R17). -/
def Plant.sendTimed (p : Plant) (l : Nat) (f : Frame) : Plant := if p.serviceOnly l then p else p.send .cvc l f

/-- Sends a frame on every uplink lane in L0 or L1 (09 R241; 01 R17). -/
def Plant.sendUplinks (p : Plant) (f : Frame) : Plant :=
  (rangeFrom 0 16).foldl (fun p l => p.sendTimed l f) p

/-- An event for the trigger sequencer (13 R371). -/
def Plant.acqEvent (p : Plant) (code : Nat) : Plant :=
  if p.cvc.acqEv.any (fun e => e.1 == code) then p else p.onCvc (fun c => { c with acqEv := c.acqEv ++ [(code, 0)] })

/-- A step event of the injector with the step number that it carries (04 R94). -/
def Plant.acqStepEvent (p : Plant) (n : Nat) : Plant :=
  p.onCvc (fun c => { c with acqEv := c.acqEv.filter (fun e => e.1 != 3) ++ [(3, n)] })

/-- A source of a part is pending (12 R337, R343). -/
def Plant.pendingSrc (p : Plant) (q : Part) (s : Nat) : Bool := bitOf (p.getN q (K.faultState + s)) 7

/-- The effective severity of a pending source. -/
def Plant.effSev (p : Plant) (q : Part) (s : Nat) : Nat := p.getN q (K.faultState + s) % 16

/-- The highest severity of a part's sources: 7 in the CVC, 3 in hubs and cells (12 R339, R343). -/
def sevMax (kind : Nat) : Nat := if kind = 0 then 7 else 3

/-- Sources that are pending. -/
def Plant.pendingList (p : Plant) (q : Part) : List Nat :=
  (rangeFrom 0 (sourceCount q.kind)).filter (p.pendingSrc q)

/-- A source of a hub or cell that has been acknowledged and stays active by its latch: its deadline field marks it (12 R343). -/
def Plant.ackedSrc (p : Plant) (q : Part) (s : Nat) : Bool :=
  q.kind != 0 && Tab.get (fun _ => 0) (p.node q).faults.deadline s != 0

/-- A fault that arrives is escalated: its class is above 0 and another source that is pending and unacknowledged has it (12 R339). -/
def Plant.escalates (p : Plant) (q : Part) (s sev : Nat) : Bool :=
  decide (0 < sev) && (p.pendingList q).any (fun t => t != s && p.effSev q t == sev && !p.ackedSrc q t)

/-- The sources whose RAISE records are rate limited (12 R350). -/
def rateLimited (kind s : Nat) : Bool :=
  (kind == 0 && (s == 3 || s == 59)) || (kind == 1 && s == 21) || (kind == 2 && s == 46)

/-- The cell's capture takes the latest sample as its trigger sample; a trigger while it is closed is counted (13 R366, R374). -/
def Plant.capTake (p : Plant) (c : CellId) : Plant :=
  let q := Part.cell c
  let e := (p.cell c).cap
  let pre := p.getN q K.capPre
  if p.getN q K.capState = 1 then
    let p := (p.put q K.capState 2).put q K.capTrigTime ((e.recs.head?.bind List.head?).getD 0)
    let p := p.put q K.capPreValid (min e.total 8192 : Nat)
    let p := if e.total < pre then p.put q K.capFlags (p.getN q K.capFlags ||| 2 : Nat) else p
    p.onCell c (fun x => { x with cap := { x.cap with trigger := some e.total, after := 8192 - pre } })
  else if p.getN q K.capState = 3 then p.bump q K.capIgnored 1
  else p

/-- An event of triggers 3 to 6 of the cell's capture (13 R374). -/
def Plant.capEvent (p : Plant) (c : CellId) (code : Nat) : Plant :=
  if p.up (.cell c) ∧ p.getN (.cell c) K.capTrig = code then p.capTake c else p

/-- The cell's capture closes (13 R366, R373). -/
def Plant.capClose (p : Plant) (c : CellId) (flag : Nat) : Plant :=
  let q := Part.cell c
  let e := (p.cell c).cap
  if p.getN q K.capState = 1 ∨ p.getN q K.capState = 2 then
    let valid := e.recs.length
    let post := match e.trigger with
      | some t => e.total - t
      | none => 0
    let p := ((p.put q K.capState 3).put q K.capPreValid (valid - post : Nat)).put q K.capFirstTime
      ((e.recs.getLast?.bind List.head?).getD 0)
    p.put q K.capFlags (p.getN q K.capFlags ||| flag : Nat)
  else p

/-- The type of the raising operation, passed to the operations it calls. -/
abbrev Raiser := Plant → Part → Nat → Int → Nat → Plant

/-- The cost of an activity of a cell (07 R175): 0 boot, 1 and 2 training of lane 0 and 1, 3 and 4 exit of lane 0 and 1
from L2, 5 store sequence, 6 Cave record, 7 fire pulse. -/
def costKey : Nat → Nat
  | 0 => K.nrgCostBoot
  | 1 => K.nrgCostTrain
  | 2 => K.nrgCostTrain
  | 3 => K.nrgCostWake
  | 4 => K.nrgCostWake
  | 5 => K.nrgCostStore
  | 6 => K.nrgCostRecord
  | _ => K.nrgCostFire

/-- The cost of an activity. -/
def Plant.cost (p : Plant) (c : CellId) (a : Nat) : Nat := p.getN (.cell c) (costKey a)

/-- The committed amount (07 R176). -/
def Plant.committed (p : Plant) (c : CellId) : Nat := (((p.cell c).led.holds).map (p.cost c)).sum

/-- free of R176. -/
def Plant.freeEnergy (p : Plant) (c : CellId) : Int := p.get (.cell c) K.nrgAvail - p.committed c

/-- A deferrable activity would be granted now (07 R176). -/
def Plant.deferOk (p : Plant) (c : CellId) (a : Nat) : Bool :=
  p.getN (.cell c) K.nrgState == 2 && decide ((p.getN (.cell c) K.nrgDeferLevel : Int) ≤ p.freeEnergy c - p.cost c a)

/-- Commits an activity's cost (07 R176). -/
def Plant.commit (p : Plant) (c : CellId) (a : Nat) : Plant :=
  p.onCell c (fun e => { e with led := { e.led with holds := a :: e.led.holds } })

/-- Ends an activity: one commitment of it is released (07 R176). -/
def Plant.release (p : Plant) (c : CellId) (a : Nat) : Plant :=
  p.onCell c (fun e => { e with led := { e.led with holds := e.led.holds.erase a } })

/-- A cell's record is granted, and its cost committed until it is written (07 R176); one that is not granted at once is a refusal: it
waits in the ledger queue (07 R177). -/
def Plant.recordAsked (p : Plant) (q : Part) : Plant :=
  match q with
  | .cell c => if p.deferOk c 6 then p.commit c 6 else p.bump q K.nrgRefused 1
  | _ => p

/-- A cell's record that finds the queue full is a refusal, unless it is granted (07 R176, R177). -/
def Plant.recordRefused (p : Plant) (q : Part) : Plant :=
  match q with
  | .cell c => if p.deferOk c 6 then p else p.bump q K.nrgRefused 1
  | _ => p

/-- Makes a Cave record; one that finds the queue full is lost, counted, and raises its source (12 R349). -/
def recordWith (raise : Raiser) (p : Plant) (q : Part) (r : CaveRec) : Plant :=
  if p.caveRoom q then (p.recordAsked q).caveQueue q r
  else match q.kind with
    | 0 => raise (p.bump q K.caveLost 1) q 126 0 0
    | 1 => raise (p.bump q K.caveLost 1) q 6 0 0
    | _ => raise ((p.recordRefused q).bump q K.nrgLost 1) q 34 0 0

/-- A safety image is rejected (11 R318). -/
def rejectWith (raise : Raiser) (p : Plant) (reason : Nat) : Plant :=
  let p := ((p.cPut K.rindImageStatus 4).cPut K.rindImageReject reason).cPut K.rindImageChallenge 0
  let p := (p.putBlob .cvc K.rindImageStage []).onCvc (fun c => { c with rind := { c.rind with commitDue := false, armedBy := 0 } })
  raise p .cvc 102 0 0

/-- Leaving STOPPED ends an image that is staged or armed, with reason 8 (11 R309, R318). -/
def leaveStopped (raise : Raiser) (p : Plant) (old : Nat) : Plant :=
  let st := p.c K.rindImageStatus
  if old = 2 ∧ (st = 1 ∨ st = 2) then rejectWith raise p 8 else p

/-- Takes a transition of R43 with its STATE record (12 R348). -/
def convGoWith (raise : Raiser) (p : Plant) (new ev src : Nat) : Plant :=
  let old := p.conv
  let p := ((((p.cPut K.convStatePrev old).cPut K.convState new).cPut K.convCause (ev * 256 + src : Nat)).cPut
    K.convEntered (p.now .cvc : Nat))
  let p := (if new = 4 then p.cPut K.convArmsBlocked 0 else p).acqEvent 5
  leaveStopped raise (recordWith raise p .cvc (p.caveRec .cvc 4 0xFF (old * 256 + new) ev src [])) old

/-- Records an event that R43 marks Kept. -/
def keptWith (raise : Raiser) (p : Plant) (ev what : Nat) : Plant :=
  recordWith raise p .cvc (p.caveRec .cvc 5 0xFF ev p.conv what [])

/-- Event 13 of R43, at once (02 R43, R44, R46). -/
def tripEventWith (raise : Raiser) (p : Plant) (src : Nat) : Plant :=
  if p.conv = 7 then keptWith raise p 13 src
  else if p.conv = 1 then
    keptWith raise (p.onCvc (fun c => { c with conv := { c.conv with tripKept := true } })) 13 src
  else if p.conv = 0 then p
  else (convGoWith raise p 7 13 src).bump .cvc K.cycleDisturbed 1

/-- rind.out: a trip output is low in a channel that is OFF or STARTING, or that has a trip in force (11 R307). -/
def Plant.showOut (p : Plant) : Plant :=
  let r := p.cvc.rind
  let low := fun (key : Nat) (c : Chan) => decide (p.c key < 2) || c.trip
  let a := low K.rindSaState r.a
  let b := low K.rindSbState r.b
  p.cPut K.rindOut ((if a then 1 else 0) + (if b then 2 else 0) + (if a != r.a.rbBad then 4 else 0) +
    (if b != r.b.rbBad then 8 else 0) : Nat)

/-- The channels that CH names, 1 SA, 2 SB, 3 both, drive their outputs to trip level (11 R306). -/
def Plant.channelTrip (p : Plant) (ch : Nat) : Plant :=
  (p.onCvc (fun c => { c with rind := { c.rind with
    a := { c.rind.a with trip := c.rind.a.trip || bitOf ch 0 },
    b := { c.rind.b with trip := c.rind.b.trip || bitOf ch 1 },
    tripAt := p.tick } })).showOut

/-- The trip decision of 11 R306 with CH and CODE; src is the fault source of a severity 6 or 7 action, or 96. -/
def tripWith (raise : Raiser) (p : Plant) (ch code src : Nat) : Plant :=
  let cause := ch * 64 + code
  let p := p.channelTrip ch
  let p := if p.conv = 7 then p else
    let p := p.cPut K.tamTgen ((p.c K.tamTgen + 1) % 256 : Nat)
    p.sendUplinks (tripFrame p cause)
  let p := (p.cPut K.rindTripCause cause).cPut K.rindTripTime (p.now .cvc : Nat)
  let p := (p.bump .cvc K.rindTrips 1).acqEvent 6
  raise (tripEventWith raise p src) .cvc 96 0 0

/-- The action of a CVC level (12 R335). src 96 is part of its trip and repeats none of it (11 R323). -/
def actionWith (raise : Raiser) (p : Plant) (s lvl mask : Nat) : Plant :=
  let p := p.cPut (K.faultState + s) ((p.c (K.faultState + s)) ||| 0x40 : Nat)
  let wide := lvl = 4 ∧ mask = 0
  let p := match lvl with
    | 3 => p.convEvent 10 s
    | 4 => if mask = 0 then p.convEvent 14 s else p.armBlockDue mask s
    | 5 => p.convEvent 14 s
    | 6 => if s = 96 then p else tripWith raise p 3 0x10 s
    | 7 => (if s = 96 then p else tripWith raise p 3 0x11 s).cPut K.faultSummary
        ((p.c K.faultSummary) ||| 4 : Nat)
    | _ => p
  recordWith raise p .cvc (p.caveRec .cvc (0x300 + s) s (lvl + if wide then 256 else 0) 0 (if lvl = 4 then mask else 0) [])

/-- A raise of a limited source within 1 s of its last RAISE record (12 R350). -/
def Plant.raiseHeld (p : Plant) (q : Part) (s : Nat) : Bool :=
  let last := Tab.get (fun _ => 0) (p.node q).faults.recAt s
  rateLimited q.kind s && last != 0 && decide (p.tick + 1 < last + ticksMs 1000)

/-- Counts a raise whose record is held back (12 R350). -/
def Plant.holdRaise (p : Plant) (q : Part) (s : Nat) : Plant :=
  p.onNode q (fun n => { n with faults := { n.faults with held := Tab.upd (fun _ => 0) n.faults.held s (· + 1) } })

/-- The RAISE record, at most once a second for the limited sources (12 R348, R350). -/
def raiseRecordWith (raise : Raiser) (p : Plant) (q : Part) (s sev eff : Nat) (esc : Bool) (param : Nat) : Plant :=
  let f := (p.node q).faults
  if p.raiseHeld q s then p.holdRaise q s
  else
    let held := min (Tab.get (fun _ => 0) f.held s) 0xFFFF
    let p := p.onNode q (fun n => { n with faults := { n.faults with
      recAt := Tab.set (fun _ => 0) n.faults.recAt s (p.tick + 1), held := Tab.set (fun _ => 0) n.faults.held s 0 } })
    recordWith raise p q (p.caveRec q (0x100 + s) s (sev * 4096 + eff * 256 + (if esc then 1 else 0)) held param [])

/-- Raises a source of a part with its parameter and, in the CVC, its arm mask (12 R336–R340, R343); the arm mask is the
parameter of a source that carries one. The first argument bounds how deep one raise may cause another. -/
def raiseF : Nat → Plant → Part → Nat → Int → Nat → Plant
  | 0, p, _, _, _, _ => p
  | fuel + 1, p, q, s, param, mask =>
    let raise : Raiser := fun p q s x m => raiseF fuel p q s x m
    let prm := unsigned 32 (if mask = 0 then param else (mask : Int))
    let p := (p.bump q (K.faultCount + s) 1).put q (K.faultParam + s) prm
    let oldMask := Tab.get (fun _ => 0) (p.node q).faults.mask s
    if p.pendingSrc q s && !p.ackedSrc q s then
      if q.kind = 0 ∧ p.effSev q s = 4 ∧ mask ≠ 0 ∧ oldMask ||| mask ≠ oldMask then
        let p' := p.onNode q (fun n => { n with faults := { n.faults with
          mask := Tab.set (fun _ => 0) n.faults.mask s (oldMask ||| mask) } })
        if bitOf (p.getN q (K.faultState + s)) 6 then
          let new := (oldMask ||| mask) ^^^ oldMask
          recordWith raise (p'.armBlockDue new s) q (p'.caveRec q (0x300 + s) s 4 0 new [])
        else p'
      else if p.raiseHeld q s then p.holdRaise q s
      else p
    else
      let sev := p.getN q (K.faultSev + s)
      let esc := p.escalates q s sev
      let eff := if esc then min (sev + 1) (sevMax q.kind) else sev
      let p := p.put q (K.faultState + s) (0x80 + (if q.kind ≠ 0 ∧ 0 < eff then 0x40 else 0) + (if esc then 0x20 else 0) + eff : Nat)
      let p := p.onNode q (fun n => { n with faults := { n.faults with
        mask := Tab.set (fun _ => 0) n.faults.mask s mask, deadline := Tab.set (fun _ => 0) n.faults.deadline s 0,
        noteEnd := Tab.set (fun _ => 0) n.faults.noteEnd s (if eff = 0 then p.tick + 1 + ticksMs 1000 else 0) } })
      let p := raiseRecordWith raise p q s sev eff esc prm
      let p := if q.kind = 0 ∧ p.c K.acqEvSev ≤ eff then p.acqEvent 7 else p
      let p := match q with
        | .cell c => if p.getN q K.capSev ≤ eff then p.capEvent c 6 else p
        | _ => p
      if q.kind = 0 ∧ 0 < eff then
        let grace := if eff = 7 then 0 else p.c (K.faultGrace + eff)
        if grace = 0 then actionWith raise p s eff mask
        else p.onNode q (fun n => { n with faults := { n.faults with
          deadline := Tab.set (fun _ => 0) n.faults.deadline s (p.tick + 1 + ticksUs grace) } })
      else p

/-- The raising operation that records and trips call. -/
def fullRaiser : Raiser := fun p q s x m => raiseF 4 p q s x m

/-- Raises a source (12 R337). -/
def Plant.raise (p : Plant) (q : Part) (s : Nat) (param : Int) : Plant := raiseF 5 p q s param 0

/-- Raises a CVC source whose condition names arms (12 R336). -/
def Plant.raiseArms (p : Plant) (s mask : Nat) : Plant := raiseF 5 p .cvc s mask mask

/-- Makes a Cave record (12 R345–R349). -/
def Plant.record (p : Plant) (q : Part) (code p0 p1 p2 : Nat) (payload : List Nat) : Plant :=
  recordWith fullRaiser p q (p.caveRec q code 0xFF p0 p1 p2 payload)

/-- Takes a transition of R43. -/
def Plant.convGo (p : Plant) (new ev src : Nat) : Plant := convGoWith fullRaiser p new ev src

/-- Records an event marked Kept (02 R43). -/
def Plant.kept (p : Plant) (ev what : Nat) : Plant := keptWith fullRaiser p ev what

/-- A trip decision (11 R306). -/
def Plant.trip (p : Plant) (ch code src : Nat) : Plant := tripWith fullRaiser p ch code src

/-- The highest local severity among a part's active sources (09 R238). -/
def Plant.lsev (p : Plant) (q : Part) : Nat := listMax ((p.pendingList q).map (p.effSev q))

/-- fault.summary as it reads (12 R354, R355). -/
def Plant.summary (p : Plant) (q : Part) : Nat :=
  let l := p.pendingList q
  let has := fun v => l.any (fun s => p.effSev q s == v && bitOf (p.getN q (K.faultState + s)) 6)
  p.lsev q * 4096 + (if bitOf (p.getN q K.faultSummary) 2 then 4 else 0) + (if has 2 then 2 else 0) + (if has 1 then 1 else 0)

/-! ### Meanings -/

/-- A meaning that changes the plant only. -/
def State.on (s : State) (f : Plant → Plant) : Host.Outcome State Fault Refusal := .next { s with plant := f s.plant }

/-- A meaning of a command at a part whose core must run (16 R434): held in reset, the part does nothing. -/
def State.onUp (s : State) (q : Part) (f : Plant → Plant) : Host.Outcome State Fault Refusal :=
  .next { s with plant := if s.plant.up q then f s.plant else s.plant }

/-- What the block does when no command waits: 2.5 ns of network time pass (log entry 1). -/
def State.idle (s : State) : State := { s with plant := { s.plant with tick := s.plant.tick + 1 } }

end Sys2Proof.Machine
end

