-- ==== Sys2Proof/Machine/Coupled.lean ====
section
/-! DEFINITION. Coupled groups: the shadows of an index move to the effective copies together, at the boundary after an
accepted apply write, as they stood at that write (00_scope.md R7; 03 R73, 04 R88). -/

namespace Sys2Proof.Machine

/-- The keys of the RWC members of an index of the CVC. -/
def rwcKeys (i : Nat) : List Nat :=
  ((dictPage (i / 256)).filter (fun r => rowHasIndex 0 i r && r.acc == .rwc)).flatMap (fun r =>
    (rangeFrom r.sub r.subs).map (fun s => i * 256 + s))

/-- The shadow of a member. -/
def Plant.shadow (p : Plant) (key : Nat) : Int := p.get .cvc (key + 0x40)

/-- An apply write of value v to the group of index i is accepted (R7). -/
def Plant.acceptApply (p : Plant) (i v : Nat) : Plant :=
  let vals := (rwcKeys i).map (fun k => (k, p.shadow k))
  p.onCvc (fun c => { c with applies := c.applies.filter (fun e => e.1 != i) ++ [(i, v, vals)] })

/-- One group moves. -/
def Plant.moveGroup (p : Plant) (e : Nat × Nat × List (Nat × Int)) : Plant :=
  let p := e.2.2.foldl (fun p kv => p.cPut kv.1 kv.2) p
  if 0x2500 ≤ e.1 ∧ e.1 ≤ 0x250B then
    p.onCvc (fun c => { c with loops := Tab.upd (fun _ => default) c.loops (e.1 - 0x2500) (fun l => { l with applyWith := e.2.1 }) })
  else p

/-- Every pending group moves at the boundary. -/
def Plant.moveGroups (p : Plant) : Plant :=
  let due := p.cvc.applies
  due.foldl (fun p e => p.moveGroup e) (p.onCvc (fun c => { c with applies := [] }))

/-- The Harp group of a side may be applied (03 R73). -/
def Plant.harpGroupOk (p : Plant) (side : Nat) : Bool :=
  decide (p.shadow (K.harpVCellLo + side * 256) < p.shadow (K.harpVCellHi + side * 256))

/-- The loop group of an arm may be applied (04 R88). -/
def Plant.loopGroupOk (p : Plant) (a : Nat) : Bool :=
  let v := fun key => p.shadow (key + a * 256)
  decide (v K.loopIMin ≤ v K.loopIMax) && decide (v K.loopOutMin < v K.loopOutMax) &&
    decide (v K.loopIMin ≤ v K.loopIInit ∧ v K.loopIInit ≤ v K.loopIMax) && decide (0 < v K.loopSpMax) &&
    decide (0 < v K.loopRampRate)

end Sys2Proof.Machine
end

