-- ==== Sys2Proof/Machine/Lanes.lean ====
section
/-! DEFINITION. Lanes: training, loss, power states, equaliser, test patterns, notices and string plans
(08_string_lanes.md). -/

namespace Sys2Proof.Machine

/-! ### Ordered sets (R205) -/

/-- A NOTICE set. -/
def osNotice (kind index nseq : Nat) : Header := mkOs (1 * 2 ^ 44 + kind * 2 ^ 42 + index * 2 ^ 36 + nseq * 2 ^ 28)

/-- A PLAN set. -/
def osPlan (v : PlanV) (rst : Bool) (seq pseq : Nat) : Header :=
  mkOs (2 * 2 ^ 44 + v.a * 2 ^ 38 + v.b * 2 ^ 32 + (if v.brk then 2 ^ 31 else 0) + (if rst then 2 ^ 30 else 0) +
    v.lh * 2 ^ 24 + v.lt * 2 ^ 18 + seq * 2 ^ 10 + v.form * 2 ^ 8 + pseq * 2 ^ 4)

/-- An LSTATE set. -/
def osLstate (st op part : Nat) : Header := mkOs (3 * 2 ^ 44 + st * 2 ^ 42 + op * 2 ^ 39 + part * 2 ^ 36)

/-- The receiver of a lane that is off or in L2 is off (R195, R200). -/
def Plant.receiverOff (p : Plant) (q : Part) (l : Nat) : Bool := p.laneState q l == 0 || p.laneState q l == 4

/-- What a transmitter does: electrical idle, blocks at full or at reduced drive, a pattern by its code, or the received bits sent
again. -/
inductive TxDrive where
  | idle | normal | reduced | pattern (code : Nat) | resent
  deriving DecidableEq, Repr

/-- The transmitter of a lane end (R195, R200, R203, R204). -/
def Plant.txDrive (p : Plant) (q : Part) (l : Nat) : TxDrive :=
  match p.laneState q l with
  | 0 => .idle
  | 3 => .reduced
  | 4 => .idle
  | 5 =>
    match p.getN q (laneKey l 0x12) with
    | 1 => .idle
    | 2 => .idle
    | 3 => .resent
    | _ => if p.getN q (laneKey l 0x0B) = 0 then .normal else .pattern (p.getN q (laneKey l 0x0B))
  | _ => .normal

/-- Where the receiver takes its bits from: its pins, the serialiser's output at its input stage, or the transmit blocks (R204). -/
inductive RxPath where
  | pins | serial | parallel
  deriving DecidableEq, Repr

/-- The receive path of a lane end (R204). -/
def Plant.rxPath (p : Plant) (q : Part) (l : Nat) : RxPath :=
  match p.getN q (laneKey l 0x12) with
  | 1 => .serial
  | 2 => .parallel
  | _ => .pins

/-- A string lane, which alone has module control signals (R194, R195). -/
def stringLaneOf (q : Part) (l : Nat) : Bool :=
  match q with
  | .cell _ => true
  | .hub _ => decide (l < 48)
  | .cvc => false

/-- LANEn_TXDIS of a string lane: high while the lane is off or in L2 (R194). -/
def Plant.txDis (p : Plant) (q : Part) (l : Nat) : Bool := stringLaneOf q l && p.receiverOff q l

/-- A received set passes its check, has the CODE and the field [51:50] or OP that its row names; a set with a bad check
or a reserved CODE is discarded and counted (R206). -/
def Plant.osTake (p : Plant) (port : Port) (os : Header) (code : Nat) (field : Bool) (f : Plant → Plant) : Plant :=
  let q := port.part
  let l := port.lane.val
  if !p.up q && q.kind != 2 ∨ p.receiverOff q l then p
  else if !osGood os then p.bump q (laneKey l 0x0A) 1
  else if bits os.toNat 55 52 = code ∧ field then f p
  else p

/-! ### Strings -/

/-- The other string lane of a cell. -/
def otherLane (l : Nat) : Nat := 1 - l

/-- The string of a hub port. -/
def stringOfPort (h : Fin 8) (k : Nat) : Nat := 24 * h.val + k

/-- The string lane number of a part's lane (R207): a cell's by the position its lane block knows, in pass-through too (R216), a hub's by
its port's end. -/
def Plant.stringLane (p : Plant) (q : Part) (l : Nat) : Nat :=
  match q with
  | .cell c => (p.cell c).lanePos + l
  | .hub _ => if l % 2 = 0 then 0 else p.getN q (K.stringCells + l / 2)
  | .cvc => 0

/-- A hub port. -/
def Plant.hubPort (p : Plant) (h : Fin 8) (k : Nat) : HubPort := Tab.get (fun _ => default) (p.hub h).ports k

/-- Changes a hub port. -/
def Plant.onPort (p : Plant) (h : Fin 8) (k : Nat) (f : HubPort → HubPort) : Plant :=
  p.onHub h (fun u => { u with ports := Tab.upd (fun _ => default) u.ports k f })

/-- Changes what a cell or hub port holds of its string. -/
def Plant.onPlan (p : Plant) (q : Part) (l : Nat) (f : PlanSt → PlanSt) : Plant :=
  match q with
  | .cell c => p.onCell c (fun e => { e with plan := f e.plan })
  | .hub h => if l < 48 then p.onPort h (l / 2) (fun e => { e with plan := f e.plan }) else p
  | .cvc => p

/-- What a cell or hub port holds of its string. -/
def Plant.planSt (p : Plant) (q : Part) (l : Nat) : PlanSt :=
  match q with
  | .cell c => (p.cell c).plan
  | .hub h => (p.hubPort h (l / 2)).plan
  | .cvc => default

/-- Adds a number to a set kept as a list. -/
def addTo (l : List Nat) (x : Nat) : List Nat := if l.contains x then l else l ++ [x]

/-- The lost set as the bits of string.lost (R227). -/
def lostBits (st : PlanSt) : Nat := (st.own ++ st.learned).foldl (fun m j => m ||| 2 ^ j) 0

/-- Shows a hub port's lost set. -/
def Plant.showLost (p : Plant) (h : Fin 8) (k : Nat) : Plant :=
  p.put (.hub h) (K.stringLost + k) (lostBits (p.hubPort h k).plan : Nat)

/-- Sends a NOTICE twice on a lane (R206). -/
def Plant.sendNotice (p : Plant) (q : Part) (l : Nat) (always : Bool) (os : Header) : Plant :=
  (p.sendOs q l always os).sendOs q l always os

/-- The next notice sequence number of a part (R205). -/
def Plant.nextNotice (p : Plant) (q : Part) : Nat × Plant :=
  let n := ((p.lane q 0).nseq + 1) % 256
  (n, p.onLane q 0 (fun e => { e with nseq := n }))

/-- The uplink lanes of a hub, a pair for each CVC (01 R16, 08 R192). -/
def hubPair (cvcB : Bool) : Nat × Nat := if cvcB then (50, 51) else (48, 49)

/-- Sends an ordered set from a hub to both CVCs, on a lane of each pair (R217). -/
def Plant.osUp (p : Plant) (h : Fin 8) (os : Header) : Plant :=
  [false, true].foldl (fun p b =>
    p.ifSome (p.pairLane (.hub h) (hubPair b).1 (hubPair b).2) (fun p l => p.sendNotice (.hub h) l false os)) p

/-- Lane end states as the part's own code names the sender (R205). -/
def partCode (q : Part) : Nat := q.kind

/-- A lane of a string leaves service at a part's end: it joins the lost set, and BREAK goes out on the other lane of the
string and on the lost one (R210). -/
def Plant.breakOwn (p : Plant) (q : Part) (l : Nat) (notify : Bool) : Plant :=
  let j := p.stringLane q l
  match q with
  | .cell _ =>
    let p := p.onPlan q l (fun e => { e with own := addTo e.own j, mends := e.mends.filter (· != j) })
    if notify then
      let (n, p) := p.nextNotice q
      (p.sendNotice q (otherLane l) false (osNotice 0 j n)).sendNotice q l true (osNotice 0 j n)
    else p
  | .hub h =>
    if l < 48 then
      let p := (p.onPlan q l (fun e => { e with own := addTo e.own j, mends := e.mends.filter (· != j) })).showLost h (l / 2)
      if notify then
        let (n, p) := p.nextNotice q
        let other := if l % 2 = 0 then l + 1 else l - 1
        let p := (p.sendNotice q other false (osNotice 0 j n)).sendNotice q l true (osNotice 0 j n)
        p.osUp h (osNotice 0 j n)
      else p
    else p
  | .cvc => p

/-- Bits of hub.uplink_l0 (R229). -/
def Plant.showUplinks (p : Plant) (h : Fin 8) : Plant :=
  p.put (.hub h) K.hubUplinkL0 (((rangeFrom 0 4).foldl (fun m u =>
    if p.laneState (.hub h) (48 + u) = 2 then m + 2 ^ u else m) 0 : Nat) : Int)

/-- No uplink lane of a hub to the active CVC is left (R219, R222). -/
def Plant.noteNoUplink (p : Plant) (q : Part) (l : Nat) : Plant :=
  if q.kind = 0 ∧ l < 16 ∧ p.active ∧ !p.laneUp .cvc (l / 2 * 2) ∧ !p.laneUp .cvc (l / 2 * 2 + 1) then
    p.raise .cvc 52 (l / 2 : Nat)
  else p

/-- The sources a lost lane raises (R222–R224). -/
def Plant.lossSources (p : Plant) (q : Part) (l : Nat) : Plant :=
  match q with
  | .cell _ => p.raise q 40 l
  | .hub _ =>
    if l < 48 then p.raise q 18 l
    else
      let p := p.raise q 16 l
      let a := if l < 50 then 48 else 50
      if !p.laneUp q a && !p.laneUp q (a + 1) then p.raise q 17 (a - 48 : Nat) else p
  | .cvc => if l < 16 then (p.raise .cvc 51 l).noteNoUplink .cvc l else p.raise .cvc 57 (l - 16 : Nat)

/-- Puts a lane into a state; a hub shows which of its uplink lanes are in L0 (R229). -/
def Plant.setLaneState (p : Plant) (q : Part) (l state : Nat) : Plant :=
  let p := p.put q (laneKey l 2) state
  match q with
  | .hub h => if l < 48 then p else p.showUplinks h
  | _ => p

/-- A lane end out of service: no lock, counts at zero, nothing queued or in transmission (R197). One that leaves L2 trains from its last
snapshot coefficients (R201). -/
def Plant.laneDown (p : Plant) (q : Part) (l state : Nat) : Plant :=
  let woken := decide (p.laneState q l = 4 ∧ state = 1)
  let p := (p.setLaneState q l state).put q (laneKey l 3) 0
  p.onLane q l (fun e => { e with
    upSent := 0, upRecv := 0, txq := [], tx := none, wire := none, again := none, coef := if woken then e.snap else e.coef,
    want := none, asked := false, exch := { e.exch with out := false } })

/-- Frames that wait on an uplink lane and may go on the other lane of its pair: those that are spread over the two (R217). -/
def Lane.movable (e : Lane) : List Frame :=
  (e.again.toList ++ e.txq).filter (fun f => f.ty == 1 || f.ty == 2 || f.ty == 5)

/-- Sends on the other lane of the pair what waited on an uplink lane that went out of service; frames in flight are lost (R219). -/
def Plant.respread (p : Plant) (q : Part) (l : Nat) (fs : List Frame) : Plant :=
  let a := l / 2 * 2
  match q with
  | .cvc => if l < 16 then fs.foldl (fun p f => p.sendPair .cvc a (a + 1) f) p else p
  | .hub _ => if l < 48 then p else fs.foldl (fun p f => p.sendPair q a (a + 1) f) p
  | .cell _ => p

/-- An end declares its lane lost (R197, R210). TXFLT, cause 5, turns the lane off and counts as a loss whatever the lane was doing; LOS and
TXFLT exist on string lanes alone (R194, R195). -/
def Plant.declareLost (p : Plant) (q : Part) (l cause : Nat) : Plant :=
  let was := p.laneUp q l
  if (cause = 4 ∨ cause = 5) ∧ !stringLaneOf q l then p
  else if was ∨ (cause = 5 ∧ p.laneState q l ≠ 0) then
    let fs := (p.lane q l).movable
    let p := (p.bump q (laneKey l 4) 1).put q (laneKey l 6) cause
    let p := (p.laneDown q l (if cause = 5 then 0 else 1)).respread q l fs
    let p := p.sendOs q l true (osLstate 0 4 (partCode q))
    (if was then p.breakOwn q l true else p).lossSources q l
  else if p.laneState q l = 1 then p.laneDown q l 1
  else p

/-- LANE_LOST: an end declares its lane lost for one of the causes of lane.last_loss (R197). -/
def execLaneLost (port : Port) (cause : Fin 7) (s : State) : Host.Outcome State Fault Refusal :=
  s.on (fun p => if p.up port.part ∨ port.part.kind = 2 then p.declareLost port.part port.lane.val cause.val else p)

/-- TRAIN_TIMEOUT: an end is not up in time and starts training again (R196). -/
def execTrainTimeout (port : Port) (s : State) : Host.Outcome State Fault Refusal :=
  s.on (fun p =>
    let q := port.part
    let l := port.lane.val
    if p.laneState q l = 1 then
      let p := (p.laneDown q l 1).bump q (laneKey l 5) 1
      if q.kind = 2 then p.raise q 44 l else p
    else p)

/-- A lane may train: it is enabled, and leads to a CVC that the station has (R195, R221; 01 R16). -/
def Plant.mayTrain (p : Plant) (q : Part) (l : Nat) : Bool :=
  p.getN q (laneKey l 1) == 1 &&
    (p.stationPaired || (match q with
      | .cvc => decide (l < 16)
      | .hub _ => decide (l < 50)
      | .cell _ => true))

/-- The hubs of a station. -/
def allHubs : List (Fin 8) := [0, 1, 2, 3, 4, 5, 6, 7]

/-- station.pair has taken effect: the peer lanes of the CVC, and the uplink lanes of the hubs to CVC-B, start to train in a pair and are
off without one (R221; 01 R16). -/
def Plant.pairChanged (p : Plant) : Plant :=
  let set := fun (p : Plant) (q : Part) (l : Nat) =>
    if !p.up q then p
    else if p.mayTrain q l then (if p.laneState q l = 0 then p.laneDown q l 1 else p)
    else if p.laneState q l = 0 then p
    else p.laneDown q l 0
  let p := [16, 17].foldl (fun p l => set p .cvc l) p
  allHubs.foldl (fun p h => [50, 51].foldl (fun p l => set p (.hub h) l) p) p

/-- BLOCK_LOCK: the receiver gains block lock and starts to count UP sets (R196). -/
def execBlockLock (port : Port) (s : State) : Host.Outcome State Fault Refusal :=
  s.on (fun p =>
    let q := port.part
    let l := port.lane.val
    if p.laneState q l = 1 then (p.put q (laneKey l 3) 1).onLane q l (fun e => { e with upRecv := 0, upSent := 0 }) else p)

/-- An end is up: it holds block lock, and has sent and received four UP sets since (R196). -/
def Plant.endUp (p : Plant) (q : Part) (l : Nat) : Bool :=
  p.getN q (laneKey l 3) == 1 && decide (4 ≤ (p.lane q l).upSent) && decide (4 ≤ (p.lane q l).upRecv)

/-- Both ends are up and the lane enters L0 (R196). -/
def Plant.laneToL0 (p : Plant) (q : Part) (l : Nat) : Plant :=
  if p.laneState q l = 1 ∧ p.endUp q l then
    (p.setLaneState q l 2).onLane q l (fun e => { e with exch := { out := false, t1 := 0, results := [], since := 0 } })
  else p

/-- LSTATE_UP: an UP set is received during training, and one is sent: each end sends one every 64 blocks (R196; log entry 84). -/
def execLstateUp (port : Port) (os : Header) (s : State) : Host.Outcome State Fault Refusal :=
  s.on (fun p => p.osTake port os 3 (bits os.toNat 49 47 == 3) (fun p =>
    let q := port.part
    let l := port.lane.val
    if p.laneState q l = 1 ∧ p.getN q (laneKey l 3) = 1 then
      (p.sendOs q l true (osLstate 0 3 (partCode q))).onLane q l (fun e => { e with
        upRecv := min 4 (e.upRecv + 1), upSent := min 4 (e.upSent + 1) })
    else p))

/-- LSTATE_DOWN: the far end declares the lane lost, and so does this one (R197). -/
def execLstateDown (port : Port) (os : Header) (s : State) : Host.Outcome State Fault Refusal :=
  s.on (fun p => p.osTake port os 3 (bits os.toNat 49 47 == 4) (fun p =>
    p.declareLost port.part port.lane.val 6))

/-! ### Power states (R200, R201) -/

/-- The lane state code of a power state of LSTATE: 0 L0, 1 L1, 2 L2. -/
def powerCode (st : Nat) : Nat := 2 + st

/-- Both ends enter a power state; a lane in L2 counts as lost for the plan but raises nothing (R200). -/
def Plant.enterLaneState (p : Plant) (q : Part) (l st : Nat) : Plant :=
  if st = 2 then (p.laneDown q l 4).breakOwn q l false
  else p.setLaneState q l (powerCode st)

/-- An end asks for a power state (R201): while it asks, a REQ set goes out every 16 blocks, of which the sets sent show the first. -/
def Plant.askLane (p : Plant) (q : Part) (l st : Nat) : Plant :=
  if p.laneUp q l then
    (p.onLane q l (fun e => { e with want := some st, asked := true })).sendOs q l false (osLstate st 0 (partCode q))
  else p

/-- LSTATE_REQ: answered with ACK, or with NAK on a lane in a test or loopback mode (R201). -/
def execLstateReq (port : Port) (os : Header) (s : State) : Host.Outcome State Fault Refusal :=
  s.on (fun p => p.osTake port os 3 (bits os.toNat 49 47 == 0 && bits os.toNat 51 50 != 3) (fun p =>
    let q := port.part
    let l := port.lane.val
    let st := bits os.toNat 51 50
    if p.laneState q l = 5 then p.sendOs q l true (osLstate st 2 (partCode q))
    else if p.laneUp q l then (p.sendOs q l false (osLstate st 1 (partCode q))).enterLaneState q l st
    else p))

/-- LSTATE_ACK: both ends enter the state asked for (R201). -/
def execLstateAck (port : Port) (os : Header) (s : State) : Host.Outcome State Fault Refusal :=
  s.on (fun p => p.osTake port os 3 (bits os.toNat 49 47 == 1) (fun p =>
    let q := port.part
    let l := port.lane.val
    match (p.lane q l).want with
    | some st =>
      if (p.lane q l).asked ∧ p.laneUp q l then
        (p.onLane q l (fun e => { e with asked := false, want := none })).enterLaneState q l st
      else p
    | none => p))

/-- LSTATE_NAK: the lane stays as it is (R201). -/
def execLstateNak (port : Port) (os : Header) (s : State) : Host.Outcome State Fault Refusal :=
  s.on (fun p => p.osTake port os 3 (bits os.toNat 49 47 == 2) (fun p =>
    p.onLane port.part port.lane.val (fun e => if e.asked then { e with asked := false, want := none } else e)))

/-- LSTATE_REQ_TIMEOUT: no answer within 10 us; the lane stays in L0 (R201). -/
def execLstateReqTimeout (port : Port) (s : State) : Host.Outcome State Fault Refusal :=
  s.on (fun p => p.onLane port.part port.lane.val (fun e => { e with asked := false }))

/-- LSTATE_REQ_RETRY: after 1 ms the requester repeats its request (R201). -/
def execLstateReqRetry (port : Port) (s : State) : Host.Outcome State Fault Refusal :=
  s.on (fun p =>
    let e := p.lane port.part port.lane.val
    match e.want with
    | some st => if e.asked then p else p.askLane port.part port.lane.val st
    | none => p)

/-! ### Equaliser (R199) -/

/-- At the last block of a frame that is no idle frame, the receiver takes its snapshot (R199). -/
def Plant.snapshot (p : Plant) (q : Part) (l : Nat) : Plant :=
  (p.put q (laneKey l 8) (p.get q (laneKey l 7))).onLane q l (fun e => { e with snap := e.coef })

/-- The far end of a lane, by the wiring (01 R16, R18, 08 R207). -/
def Plant.farEnd (p : Plant) (q : Part) (l : Nat) : Option (Part × Nat) :=
  let fromCvc := if p.c K.redId = 0 then 48 else 50
  match q with
  | .cell c =>
    let h := hubOfString c.str
    let port := 2 * (c.str.val % 24)
    if l = 0 then (if c.pos.val = 0 then some (.hub h, port) else (cellAt c.str.val (c.pos.val - 1)).map (fun d => (.cell d, 1)))
    else if c.pos.val + 1 = p.c (K.stringCells + c.str.val) then some (.hub h, port + 1)
    else (cellAt c.str.val (c.pos.val + 1)).map (fun d => (.cell d, 0))
  | .hub h =>
    let str := stringOfPort h (l / 2)
    if 48 ≤ l then (if fromCvc = l / 2 * 2 then some (.cvc, 2 * h.val + l % 2) else none)
    else if l % 2 = 0 then (cellAt str 0).map (fun d => (.cell d, 0))
    else (cellAt str (p.c (K.stringCells + str) - 1)).map (fun d => (.cell d, 1))
  | .cvc => if h8 : l / 2 < 8 then some (.hub ⟨l / 2, h8⟩, fromCvc + l % 2) else none

/-- A run of idle blocks is in progress on what a receiver takes in: its far end has no frame in transmission (R199). -/
def Plant.idleRun (p : Plant) (q : Part) (l : Nat) : Bool :=
  match p.farEnd q l with
  | some (r, m) => (p.lane r m).tx.isNone
  | none => true

/-- EYE_ESTIMATE: the estimate is shown; during a run of idle blocks, far below the snapshot margin, the snapshot coefficients return
(R199). A frozen receiver, one in L1 (R200) and one that takes in a pattern without sync headers keep their coefficients; the receiver of
a lane that is off or in L2 is off. -/
def execEyeEstimate (port : Port) (eye coef : BitVec 16) (s : State) : Host.Outcome State Fault Refusal :=
  s.on (fun p =>
    let q := port.part
    let l := port.lane.val
    if p.receiverOff q l then p
    else
      let p := p.put q (laneKey l 7) (eye.toNat : Nat)
      if p.getN q (laneKey l 0x16) = 1 ∨ p.laneState q l = 3 ∨ p.getN q (laneKey l 0x0C) ≠ 0 then p
      else if p.idleRun q l ∧ eye.toNat + p.getN q K.laneAdaptGuard < p.getN q (laneKey l 8) then
        let p := (p.onLane q l (fun e => { e with coef := e.snap })).bump q (laneKey l 9) 1
        if q.kind = 2 then p.raise q 42 l else p
      else p.onLane q l (fun e => { e with coef := coef.toNat }))

/-! ### Test patterns and loopbacks (R202–R204) -/

/-- The source of a pattern or loopback in force (R202). -/
def testSource : Nat → Nat
  | 0 => 56
  | 1 => 20
  | _ => 43

/-- A pattern or loopback is selected on a lane. -/
def Plant.testing (p : Plant) (q : Part) (l : Nat) : Bool :=
  p.getN q (laneKey l 0x0B) != 0 || p.getN q (laneKey l 0x0C) != 0 || p.getN q (laneKey l 0x12) != 0

/-- After a write of prbs_gen, prbs_chk or loopback: a lane with one in force counts as lost for every purpose, and trains again after
the last ends (R197, R202). A lane that is off for good has none in force. -/
def Plant.testChanged (p : Plant) (q : Part) (l : Nat) : Plant :=
  if p.testing q l then
    if p.laneState q l = 5 ∨ !p.mayTrain q l then p
    else
      let was := p.laneUp q l
      let fs := (p.lane q l).movable
      let p := (p.laneDown q l 5).respread q l fs
      let p := if was then (p.breakOwn q l true).lossSources q l else p
      p.raise q (testSource q.kind) l
  else if p.laneState q l = 5 then
    (p.put q (laneKey l 0x0D) 0).laneDown q l (if p.mayTrain q l then 1 else 0)
  else p

/-- A write of lane.prbs_chk: a checker that is turned off or takes another pattern is not synchronised (R203). -/
def Plant.checkerChanged (p : Plant) (q : Part) (l : Nat) (old : Int) : Plant :=
  if p.get q (laneKey l 0x0C) = old then p else p.put q (laneKey l 0x0D) 0

/-- Ends the tests of a lane (R202). -/
def Plant.endTest (p : Plant) (q : Part) (l : Nat) : Plant :=
  if p.testing q l then
    ((((p.put q (laneKey l 0x0B) 0).put q (laneKey l 0x0C) 0).put q (laneKey l 0x12) 0).put q (laneKey l 0x0D) 0).testChanged q l
  else p

/-- The tests that run when the converter leaves STOPPED end at that boundary, in every part (R202). -/
def Plant.endTests (p : Plant) : Plant :=
  p.nodes.foldl (fun p e => (rangeFrom 0 (laneCount e.2.part.kind)).foldl (fun p l => p.endTest e.2.part l) p) p

/-- A write of lane.enable (R195, R200). -/
def Plant.laneEnable (p : Plant) (q : Part) (l v : Nat) : Plant :=
  if v = 0 then
    if p.laneState q l = 0 then p
    else
      let was := p.laneUp q l
      let fs := (p.lane q l).movable
      let p := (p.laneDown q l 0).respread q l fs
      if was then (p.breakOwn q l true).noteNoUplink q l else p
  else if p.laneState q l = 0 ∧ p.mayTrain q l then p.laneDown q l 1 else p

/-- PRBS_SYNC: the checker synchronises (R203). -/
def execPrbsSync (port : Port) (s : State) : Host.Outcome State Fault Refusal :=
  s.on (fun p =>
    if p.getN port.part (laneKey port.lane.val 0x0C) ≠ 0 then p.put port.part (laneKey port.lane.val 0x0D) 1 else p)

/-- PRBS_SYNC_LOSS: 32 errors within 64 bits clear prbs_sync; the counters stay, and the bits in error of the second that runs are counted:
those 32, and as many more as came before them, which the command does not say (R203; log entry 84). -/
def execPrbsSyncLoss (port : Port) (s : State) : Host.Outcome State Fault Refusal :=
  s.on (fun p =>
    let q := port.part
    let l := port.lane.val
    if p.getN q (laneKey l 0x0D) = 1 then
      let (v, p) := p.free
      (p.put q (laneKey l 0x0D) 0).bump q (laneKey l 0x0E) (32 + v)
    else p)

/-- PRBS_SECOND: a whole second of network time passes with so many bits in error (R203). -/
def execPrbsSecond (port : Port) (errors : BitVec 32) (s : State) : Host.Outcome State Fault Refusal :=
  s.on (fun p =>
    let q := port.part
    let l := port.lane.val
    if p.getN q (laneKey l 0x0D) = 1 then
      let p := (p.bump q (laneKey l 0x10) 1).bump q (laneKey l 0x0E) errors.toNat
      if errors = 0 then p.bump q (laneKey l 0x0F) 1 else p
    else p)

/-- A write of 1 to lane.prbs_clear (R203). -/
def Plant.prbsClear (p : Plant) (q : Part) (l : Nat) : Plant :=
  (((p.put q (laneKey l 0x0D) 0).put q (laneKey l 0x0E) 0).put q (laneKey l 0x0F) 0).put q (laneKey l 0x10) 0

/-! ### Notices (R205, R210, R211, R216) -/

/-- A notice is new to a lane end: its sender direction, KIND, INDEX and NSEQ have not been seen (R206). -/
def Plant.noticeNew (p : Plant) (q : Part) (l : Nat) (os : Header) : Bool :=
  let x := os.toNat
  !(p.lane q l).seen.contains (bits x 51 50, bits x 49 44, bits x 43 36)

/-- Marks a notice as seen; a lane end keeps the latest 16 (log entry 13). -/
def Plant.noticeSeen (p : Plant) (q : Part) (l : Nat) (os : Header) : Plant :=
  let x := os.toNat
  p.onLane q l (fun e => { e with seen := ((bits x 51 50, bits x 49 44, bits x 43 36) :: e.seen).take 16 })

/-- Takes a new notice of a kind: a cell forwards it on its other string lane (R210, R216). -/
def Plant.noticeTake (p : Plant) (port : Port) (os : Header) (kind : Nat) (f : Plant → Plant) : Plant :=
  p.osTake port os 1 (bits os.toNat 51 50 == kind) (fun p =>
    let q := port.part
    let l := port.lane.val
    if p.noticeNew q l os then
      let p := p.noticeSeen q l os
      let p := if q.kind = 2 then p.sendNotice q (otherLane l) false os else p
      f p
    else p)

/-- Whether a part takes up a notice itself: a cell in pass-through only forwards it (R216). -/
def Plant.noticeActs (p : Plant) (q : Part) : Bool := p.serving q

/-- A hub's BREAK or MEND reaches the CVC: the set names the string lane and not the string, and the CVC shows the lost sets that the hub
holds for its strings (R210, R227; log entry 14). A lane newly lost raises source 54, a second lost lane of its string source 55
(R214). -/
def Plant.takeLost (p : Plant) (h : Fin 8) : Plant :=
  (rangeFrom 0 24).foldl (fun p k =>
    let str := stringOfPort h k
    let old := p.c (K.stringLost + str)
    let new := p.getN (.hub h) (K.stringLost + k)
    if new = old then p
    else
      let p := p.cPut (K.stringLost + str) (new : Nat)
      if new &&& (old ^^^ new) = 0 then p
      else
        let p := p.raise .cvc 54 str
        if (rangeFrom 0 49).any (fun j => new == 2 ^ j) then p else p.raise .cvc 55 str) p

/-- NOTICE_BREAK: a cell or hub port adds the lane to its lost set; the hub forwards it upstream, where the CVC shows it
(R210, R214). -/
def execNoticeBreak (port : Port) (os : Header) (s : State) : Host.Outcome State Fault Refusal :=
  s.on (fun p => p.noticeTake port os 0 (fun p =>
    let q := port.part
    let l := port.lane.val
    let j := bits os.toNat 49 44
    match q with
    | .cell _ =>
      if p.noticeActs q then
        p.onPlan q l (fun e => { e with
          learned := addTo e.learned j,
          rx := e.rx.map (fun r => { r with clears := r.clears.filter (fun x => x != j) }) })
      else p
    | .hub h =>
      if l < 48 then
        let p := p.onPlan q l (fun e => { e with learned := addTo e.learned j })
        let p := p.showLost h (l / 2)
        p.osUp h (osNotice 0 j (bits os.toNat 43 36))
      else p
    | .cvc => if h8 : l / 2 < 8 then p.takeLost ⟨l / 2, h8⟩ else p))

/-- NOTICE_MEND: the hub removes the lane from the string's lost set and sends PLANs with RST for string.mend_cycles
cycles (R211); the CVC shows it (log entry 14). -/
def execNoticeMend (port : Port) (os : Header) (s : State) : Host.Outcome State Fault Refusal :=
  s.on (fun p => p.noticeTake port os 1 (fun p =>
    let q := port.part
    let l := port.lane.val
    let j := bits os.toNat 49 44
    match q with
    | .cell _ => p
    | .hub h =>
      if l < 48 then
        let k := l / 2
        let ends := (if j = 0 then [2 * k] else []) ++ (if j = p.getN q (K.stringCells + k) then [2 * k + 1] else [])
        if ends.any (fun e => !p.laneUp q e) then p
        else
          let p := p.onPlan q l (fun e => { e with
            learned := e.learned.filter (fun x => x != j),
            own := e.own.filter (fun x => x != j), mends := e.mends.filter (fun x => x != j) })
          let p := (p.onPort h k (fun e => { e with rstLeft := p.getN q K.stringMendCycles })).showLost h k
          p.osUp h (osNotice 1 j (bits os.toNat 43 36))
      else p
    | .cvc => if h8 : l / 2 < 8 then p.takeLost ⟨l / 2, h8⟩ else p))

/-- NOTICE_PASS: the hub notes a cell in pass-through (R212, R216). -/
def execNoticePass (port : Port) (os : Header) (s : State) : Host.Outcome State Fault Refusal :=
  s.on (fun p => p.noticeTake port os 2 (fun p =>
    match port.part with
    | .hub h => if port.lane.val < 48 then p.onPort h (port.lane.val / 2) (fun e =>
        { e with passed := addTo e.passed (bits os.toNat 49 44) }) else p
    | _ => p))

/-- NOTICE_SERVE: the cell has left pass-through (R216). -/
def execNoticeServe (port : Port) (os : Header) (s : State) : Host.Outcome State Fault Refusal :=
  s.on (fun p => p.noticeTake port os 3 (fun p =>
    match port.part with
    | .hub h => if port.lane.val < 48 then p.onPort h (port.lane.val / 2) (fun e =>
        { e with passed := e.passed.filter (fun x => x != bits os.toNat 49 44) }) else p
    | _ => p))

/-- Sends MEND for a lane on the other lane of the string (R211). -/
def Plant.sendMend (p : Plant) (q : Part) (l : Nat) : Plant :=
  let (n, p) := p.nextNotice q
  let os := osNotice 1 (p.stringLane q l) n
  match q with
  | .cell _ => p.sendNotice q (otherLane l) false os
  | .hub _ => p.sendNotice q (if l % 2 = 0 then l + 1 else l - 1) false os
  | .cvc => p

/-- MEND_COUNT_REACHED: a lost lane has been in L0 at both ends for string.mend_cycles boundaries; its end sends MEND on
its other lane (R211). -/
def execMendCountReached (port : Port) (s : State) : Host.Outcome State Fault Refusal :=
  s.on (fun p =>
    let q := port.part
    let l := port.lane.val
    let j := p.stringLane q l
    if p.laneUp q l ∧ (p.planSt q l).own.contains j ∧ stringLaneOf q l then
      (p.onPlan q l (fun e => { e with mends := addTo e.mends j })).sendMend q l
    else p)

/-- The latest PLAN held shows the lanes lost so far restored: it clears them (R211). -/
def PlanSt.restored (st : PlanSt) : Bool :=
  match st.rx.head? with
  | some r => r.rst
  | none => false

/-- At a later cycle boundary of a hub or cell MEND goes out again for a lane that stays in L0 and that the PLANs do not yet show restored
(R211). -/
def Plant.mendAgain (p : Plant) (q : Part) : Plant :=
  (rangeFrom 0 (match q with | .cvc => 0 | .hub _ => 48 | .cell _ => 2)).foldl (fun p l =>
    let st := p.planSt q l
    let j := p.stringLane q l
    if st.mends.contains j ∧ st.own.contains j ∧ p.laneUp q l ∧ !st.restored then p.sendMend q l else p) p

/-- PASS or SERVE of a cell, towards both ports (R216). -/
def Plant.passNotice (p : Plant) (c : CellId) (kind : Nat) : Plant :=
  let q := Part.cell c
  let (n, p) := p.nextNotice q
  let os := osNotice kind (p.cell c).lanePos n
  (p.sendNotice q 0 false os).sendNotice q 1 false os

/-- A frame of a cell's own core: a collect frame it launched, or a service response of its own (09 R256). -/
def Plant.ownFrame (p : Plant) (c : CellId) (f : Frame) : Bool :=
  let h := f.hdr.toNat
  (f.ty == 2 && bits h 31 26 == (p.cell c).lanePos) || (f.ty == 5 && bitOf h 51 &&
    (bits h 39 24 == (Part.cell c).node ||
      (bits h 39 24 == 0xFFFF && ofBe ((f.data.drop 1).take 1 |>.flatMap (fun b => beBytes 8 b.toNat)) == p.getN (.cell c) K.idSerial)))

/-- A core in reset or stopped masks its launches and service responses: those that wait are not granted, and one in transmission ends
with an abort block and is not sent again (09 R256). -/
def Plant.maskOwn (p : Plant) (c : CellId) : Plant :=
  [0, 1].foldl (fun p l =>
    let q := Part.cell c
    let cut := match (p.lane q l).tx with | some f => p.ownFrame c f | none => false
    let p := p.onLane q l (fun e => { e with
      txq := e.txq.filter (fun f => !p.ownFrame c f), again := e.again.filter (fun f => !p.ownFrame c f) })
    if cut then (p.onLane q l (fun e => { e with tx := none, wire := none })).sendAbort q l else p) p

/-- PASS_THROUGH_ENTRY: a cell's core has entered reset, or, where it was running, has stopped on an uncorrectable fault, and its lane block
sends PASS (R216). -/
def execPassThroughEntry (c : CellId) (s : State) : Host.Outcome State Fault Refusal :=
  s.on (fun p =>
    if p.up (.cell c) ∧ !(p.cell c).halted then
      ((p.maskOwn c).onCell c (fun e => { e with halted := true })).passNotice c 2
    else p.passNotice c 2)

/-! ### Plans (R207–R212) -/

/-- A PLAN's fields (R205). -/
def planRx (os : Header) (clears : List Nat) : PlanRx :=
  let x := os.toNat
  {
    a := bits x 51 46, b := bits x 45 40, brk := bitOf x 39, rst := bitOf x 38, lh := bits x 37 32, lt := bits x 31 26,
    seq := bits x 25 18, form := bits x 17 16, pseq := bits x 15 12, clears := clears, fresh := true }

/-- PLAN: a cell keeps it for the latch of the cycle it names, and passes it along the string (R209). -/
def execPlan (port : Port) (os : Header) (s : State) : Host.Outcome State Fault Refusal :=
  s.on (fun p => p.osTake port os 2 true (fun p =>
    let q := port.part
    let l := port.lane.val
    match q with
    | .cell c =>
      let p := p.sendOs q (otherLane l) false os
      if p.serving q then
        let st := (p.cell c).plan
        let r := planRx os (if bitOf os.toNat 38 then st.learned ++ st.own else [])
        p.onCell c (fun e => { e with plan := { e.plan with rx := (r :: e.plan.rx).take 3 } })
      else p
    | _ => p))

/-- The smallest of a list that is not empty. -/
def minOf (l : List Nat) (d : Nat) : Nat := match l with | [] => d | x :: t => t.foldl min x

/-- The plan at a latch instant (R209). `up j` says whether the part's own string lane j is in L0 or L1 again; n is used
when no PLAN is held (R212). -/
def latchPlan (st : PlanSt) (kseq n : Nat) (up : Nat → Bool) : PlanSt :=
  let named := st.rx.filter (fun r => decide ((kseq + 256 - r.seq) % 256 < 128))
  match named.head? with
  | none =>
    let lost := st.own ++ st.learned
    let half := (n + 1) / 2
    let a := if lost.isEmpty then half else minOf lost 0
    let b := if lost.isEmpty then half else listMax lost
    { st with latched := some ⟨a, b, !lost.isEmpty, if a = 0 then 63 else a - 1, if b = n then 63 else b, 1⟩ }
  | some r =>
    let clears := fun (x : Nat) => r.rst && r.fresh && r.clears.contains x
    let learned := st.learned.filter (fun x => !clears x)
    let own := st.own.filter (fun x => !(clears x && up x))
    let lost := own ++ learned ++ (if r.brk then [r.a, r.b] else [])
    let a := if lost.isEmpty then r.a else minOf lost 0
    let b := if lost.isEmpty then r.b else listMax lost
    let same := decide (r.a = a ∧ r.b = b)
    let lh := if same then r.lh else if a = 0 then 63 else a - 1
    let lt := if same then r.lt else if b = n then 63 else b
    { st with
              learned := learned, own := own, rx := st.rx.map (fun x => { x with fresh := false }),
              latched := some ⟨a, b, !lost.isEmpty, lh, lt, r.form⟩ }

/-- string.plan of a plan in force (R227). -/
def planWord (v : PlanV) : Nat :=
  v.a * 2 ^ 24 + v.b * 2 ^ 16 + v.lh * 2 ^ 8 + v.lt + (if v.brk then 2 ^ 31 else 0) + v.form * 2 ^ 14

/-- The plan a hub sends: from the string's lost set, with launchers in service (R212). -/
def hubPlan (st : PlanSt) (passed : List Nat) (n form : Nat) : PlanV :=
  let lost := st.own ++ st.learned
  let half := (n + 1) / 2
  let a := if lost.isEmpty then half else minOf lost 0
  let b := if lost.isEmpty then half else listMax lost
  let heads := (rangeFrom 0 a).filter (fun x => !passed.contains x)
  let tails := (rangeFrom b (n - b)).filter (fun x => !passed.contains x)
  ⟨a, b, !lost.isEmpty, if heads.isEmpty then 63 else listMax heads, minOf tails 63, form⟩

/-- A newly latched plan differs from the one before in a or b, with a lane in the lost set: the plan has changed by a
BREAK (R224 source 41, R227 string.heals; log entry 77). A part that has latched none counts from the normal split. -/
def planBroken (old : Option PlanV) (v : PlanV) (n : Nat) (lost : Bool) : Bool :=
  match old with
  | none => lost && decide (¬ (v.a = (n + 1) / 2 ∧ v.b = (n + 1) / 2))
  | some o => lost && decide (¬ (v.a = o.a ∧ v.b = o.b))

/-- Some lane is in the lost set that a part holds. -/
def PlanSt.broken (st : PlanSt) : Bool := !(st.own ++ st.learned).isEmpty

/-- The report form that PLANs announce on a string: full, or compact for either compact form of the uplink (R205, R218). -/
def stringForm (form : Nat) : Nat := if 2 ≤ form then 2 else 1

/-- Latches the plan of a hub port with cells, from the latest PLAN the hub has sent for the cycle and its lost set, and shows it
(R209, R227). -/
def Plant.latchPort (p : Plant) (h : Fin 8) (k : Nat) : Plant :=
  let q := Part.hub h
  let n := p.getN q (K.stringCells + k)
  let e := p.hubPort h k
  let st := if n = 0 then { e.plan with latched := none } else latchPlan e.plan ((p.schedNow q).k % 256) n (fun _ => true)
  let p := p.onPort h k (fun e => { e with
    plan := st, begunHead := false, begunTail := false, cutHead := false, cutTail := false })
  match st.latched with
  | none => p
  | some v =>
    let p := if planBroken e.plan.latched v n st.broken then p.bump q (K.stringHeals + k) 1 else p
    (p.put q (K.stringPlan + k) (planWord v : Nat)).put q (K.stringUnreachable + k) (v.b - v.a : Nat)

/-- Latches the plan of the present cycle in a cell, or in every port of a hub (R209). -/
def Plant.latchPlans (p : Plant) (q : Part) : Plant :=
  match q with
  | .cvc => p
  | .hub h => (rangeFrom 0 24).foldl (fun p k => p.latchPort h k) p
  | .cell c =>
    if !(p.cell c).posKnown then p
    else
      let pos := p.getN q K.stringPos
      let n := p.c (K.stringCells + c.str.val)
      let old := (p.cell c).plan.latched
      let st := latchPlan (p.cell c).plan ((p.schedNow q).k % 256) n (fun j => p.laneUp q (j - pos))
      let p := p.onCell c (fun e => { e with plan := st })
      match st.latched with
      | none => p
      | some v =>
        let seg := if pos < v.a then 0 else if v.b ≤ pos then 1 else 2
        let launch := if v.lh = pos ∧ seg = 0 then 1 else if v.lt = pos ∧ seg = 1 then 2 else 0
        let p := if planBroken old v n st.broken then p.raise q 41 0 else p
        (((p.put q K.stringA v.a).put q K.stringB v.b).put q K.stringSeg (seg : Nat)).put q K.stringLaunch (launch : Nat)

/-- PLAN_LATCH: at S + 260 ns a locked cell, or every port of a locked hub, computes the plan of the cycle (R209); a part that
is not locked latches with its primary time frame instead (10 R279). -/
def execPlanLatch (q : Part) (s : State) : Host.Outcome State Fault Refusal :=
  s.onUp q (fun p => if 2 ≤ p.getN q K.timeState ∧ p.getN q K.timeState ≤ 3 then p.latchPlans q else p)

/-- The PLAN of one port for the coming cycle goes to both its ends; a port without cells sends none (R205, R211). -/
def Plant.sendPlan (p : Plant) (h : Fin 8) (k : Nat) : Plant :=
  let q := Part.hub h
  let n := p.getN q (K.stringCells + k)
  if n = 0 then p
  else
    let e := p.hubPort h k
    let v := hubPlan e.plan e.passed n (stringForm (p.hub h).form)
    let changed := !(decide (v.a = e.last.a ∧ v.b = e.last.b ∧ v.brk = e.last.brk ∧ v.lh = e.last.lh ∧ v.lt = e.last.lt))
    let pseq := if changed then (e.pseq + 1) % 16 else e.pseq
    let os := osPlan v (decide (0 < e.rstLeft)) (((p.schedNow q).k + 1) % 256) pseq
    let p := p.onPort h k (fun e => { e with
      pseq := pseq, last := v, rstLeft := e.rstLeft - 1, plan := { e.plan with rx := (planRx os [] :: e.plan.rx).take 3 } })
    (p.sendOs q (2 * k) false os).sendOs q (2 * k + 1) false os

/-- PLAN_SEND: at S + Tc / 2 the hub sends the PLAN of the next cycle on each end of every string it serves (R212). -/
def execPlanSend (h : Fin 8) (s : State) : Host.Outcome State Fault Refusal :=
  s.onUp (.hub h) (fun p => (rangeFrom 0 24).foldl (fun p k => p.sendPlan h k) p)

end Sys2Proof.Machine
end

