-- ==== Sys2Proof/Machine/Station.lean ====
section
/-! DEFINITION. The station as the CVC knows it: strings and their feeds, path latency, report forms and the need for Ta
(01_architecture.md R16–R26; 02_control_cycle.md R31–R35; 03 R70). Times are in ps. -/

namespace Sys2Proof.Machine

/-- The lane end of a string's link towards the head (true) or the tail: link 0 leaves the head port, link n the tail
port (08 R207). -/
def linkEnd (s : StringNo) (n j : Nat) (towardHead : Bool) : Option (Part × Nat) :=
  if towardHead then
    if j = 0 then some (.hub (hubOfString s), 2 * (s.val % 24)) else (cellAt s.val (j - 1)).map (fun c => (Part.cell c, 1))
  else if j = n then some (.hub (hubOfString s), 2 * (s.val % 24) + 1)
  else (cellAt s.val j).map (fun c => (Part.cell c, 0))

/-- A string by its number. -/
def stringNo (s : Nat) : Option StringNo := if h : s < 192 then some ⟨s, h⟩ else none

/-- Hub n as the CVC knows it. -/
def Plant.hubInfo (p : Plant) (n : Nat) : HubInfo := Tab.get (fun _ => default) p.cvc.hubs n

/-- Changes what the CVC knows of hub n. -/
def Plant.onHubInfo (p : Plant) (n : Nat) (f : HubInfo → HubInfo) : Plant :=
  p.onCvc (fun c => { c with hubs := Tab.upd (fun _ => default) c.hubs n f })

/-- A cell as the CVC knows it. -/
def Plant.cellInfo (p : Plant) (id : Nat) : CellInfo := Tab.get (fun _ => default) p.cvc.cells id

/-- A string as the CVC knows it. -/
def Plant.strInfo (p : Plant) (s : Nat) : StrInfo := Tab.get (fun _ => default) p.cvc.strs s

/-- The hubs that are part of the station and have been found on their own lanes (R17, R21). -/
def Plant.hubServes (p : Plant) (n : Nat) : Bool := (p.hubInfo n).found && !(p.hubInfo n).wrong

/-- The strings mapped to an arm, with their arm, on hubs that are not excluded (R17, R20). -/
def Plant.usedStrings (p : Plant) : List (Nat × Nat) :=
  ((rangeFrom 0 192).map (fun s => (s, p.armOfString s))).filter (fun e => decide (e.2 < 12) && p.hubServes (e.1 / 24))

/-- The used strings with a discovered cell. -/
def Plant.liveStrings (p : Plant) : List (Nat × Nat) := p.usedStrings.filter (fun e => p.c (K.stringCells + e.1) != 0)

/-- Discovered cells of a string. -/
def Plant.cellCount (p : Plant) (s : Nat) : Nat := (p.cellsOfString s).length

/-- Discovered cells of a hub in used strings: N of R23. -/
def Plant.hubCells (p : Plant) (n : Nat) : Nat :=
  ((p.usedStrings.filter (fun e => e.1 / 24 == n)).map (fun e => p.cellCount e.1)).sum

/-- The uplink lanes of a hub in lock to this CVC: L of R23. -/
def Plant.hubLanes (p : Plant) (n : Nat) : Nat :=
  (if p.laneUp .cvc (2 * n) then 1 else 0) + (if p.laneUp .cvc (2 * n + 1) then 1 else 0)

/-! ### Report forms (R23) -/

/-- N reports or commands of r bits fit L lanes in a period of tc ns at 20 Gb/s a lane. -/
def fits (n r l tc : Nat) : Bool := decide (n * r ≤ l * 20 * tc)

/-- The report form of a population on L lanes: 1 full, 2 compact, 3 compact with strings left out. -/
def formOf (n l tc : Nat) : Nat := if fits n 128 l tc then 1 else if fits n 64 l tc then 2 else 3

/-- The strings left out, from those of a hub in ascending order with their cells (R23). -/
def leftOutOf (l tc : Nat) : Nat → Bool → List (Nat × Nat) → List Nat
  | _, _, [] => []
  | sum, past, e :: t =>
    let past := past || !fits (sum + e.2) 64 l tc
    if past then e.1 :: leftOutOf l tc sum true t else leftOutOf l tc (sum + e.2) false t

/-- Chooses the report form of one hub (R23). With no lane in lock every string is left out (R219). -/
def Plant.chooseForm (p : Plant) (n : Nat) : Plant :=
  let strs := (p.usedStrings.filter (fun e => e.1 / 24 == n)).map (fun e => (e.1, p.cellCount e.1))
  let l := p.hubLanes n
  let total := (strs.map (·.2)).sum
  let form := if l = 0 then 3 else formOf total l p.tc
  let out := if l = 0 then strs.map (·.1) else if form = 3 then leftOutOf l p.tc 0 false strs else []
  let mask := out.foldl (fun m s => m ||| 2 ^ (s % 24)) 0
  let p := p.onHubInfo n (fun i => { i with form := if i.found then form else 0, leftOut := mask, leftOutPrev := i.leftOut })
  if (p.hubInfo n).found ∧ l ≠ 0 ∧ mask ≠ 0 then p.raise .cvc 53 n else p

/-- Chooses every hub's form and shows it (R23, 01 objects). -/
def Plant.chooseForms (p : Plant) : Plant :=
  let p := (rangeFrom 0 8).foldl (fun p n => p.chooseForm n) p
  let p := p.cPut K.stationReportForm ((rangeFrom 0 8).foldl (fun m n => m + (p.hubInfo n).form * 4 ^ n) 0 : Nat)
  p.cPut K.stationLaneTolerant ((rangeFrom 0 8).foldl (fun m n =>
    if (p.hubInfo n).found ∧ fits (p.hubCells n) 64 1 p.tc then m + 2 ^ n else m) 0 : Nat)

/-- A string is left out of the reports of cycle k, the present one or the one before (R23). -/
def Plant.stringLeftOut (p : Plant) (s k : Nat) : Bool :=
  let i := p.hubInfo (s / 24)
  bitOf (if k = p.k then i.leftOut else i.leftOutPrev) (s % 24)

/-! ### Feeds and path latency (R25, 08 R207–R212) -/

/-- The link numbers in a lost set. -/
def lostLinks (m : Nat) : List Nat := (rangeFrom 0 49).filter (bitOf m)

/-- a and b of a string of n cells with a lost set (08 R207, R209). -/
def feedOf (n lost : Nat) : Nat × Nat :=
  let l := lostLinks lost
  if l.isEmpty then ((n + 1) / 2, (n + 1) / 2) else (minOf l 0, listMax l)

/-- a and b of a string as the CVC knows its lost set. -/
def Plant.feed (p : Plant) (s : Nat) : Nat × Nat := feedOf (p.c (K.stringCells + s)) (p.c (K.stringLost + s))

/-- Shows the plan the CVC follows (08 R227). -/
def Plant.showFeed (p : Plant) (s : Nat) : Plant :=
  let n := p.c (K.stringCells + s)
  if n = 0 then p
  else
    let lost := lostLinks (p.c (K.stringLost + s))
    let st : PlanSt := { rx := [], learned := lost, own := [], mends := [], latched := none }
    let v := hubPlan st [] n (stringForm (p.hubInfo (s / 24)).form)
    let w := p.c (K.stringPlan + s)
    let old : Option PlanV := if w = 0 then none else some ⟨bits w 29 24, bits w 21 16, false, 63, 63, 1⟩
    let p := if planBroken old v n st.broken then p.bump .cvc (K.stringHeals + s) 1 else p
    (p.cPut (K.stringPlan + s) (planWord v : Nat)).cPut (K.stringUnreachable + s) (v.b - v.a : Nat)

/-- The calibrated delay of a string's link (10 R277). -/
def Plant.linkDelay (p : Plant) (s n j : Nat) : Nat :=
  match stringNo s with
  | none => 0
  | some str => match linkEnd str n j true with
    | some e => p.getN e.1 (timeKey e.2 1)
    | none => 0

/-- The largest calibrated delay of a hub's uplink lanes. -/
def Plant.uplinkDelay (p : Plant) (n : Nat) : Nat :=
  max (p.getN .cvc (timeKey (2 * n) 1)) (p.getN .cvc (timeKey (2 * n + 1) 1))

/-- Propagation from the CVC over links first to last of a string. -/
def Plant.propagation (p : Plant) (s n first count : Nat) : Nat :=
  p.uplinkDelay (s / 24) + ((rangeFrom first count).map (p.linkDelay s n)).sum

/-- Upstream and downstream parts of R25 for the farthest of `count` cells served from one end, over propagation d. -/
def pathUp (d count : Nat) : Nat := d + (count - 1) * 12800 + 16000 + 2560
/-- The downstream part. -/
def pathDown (d count : Nat) : Nat := d + 16000 + (count - 1) * 12800 + 6400

/-- The cells served from each end of a string with the propagation to the farthest of them. -/
def Plant.served (p : Plant) (s n a b : Nat) : List (Nat × Nat) :=
  (if a = 0 then [] else [(p.propagation s n 0 a, a)]) ++
  (if b ≥ n then [] else [(p.propagation s n (b + 1) (n - b), n - b)])

/-- The two feeds of a whole string from one end alone. -/
def Plant.singles (p : Plant) (s n : Nat) : List (Nat × Nat) :=
  [(p.propagation s n 0 n, n), (p.propagation s n 1 n, n)]

/-- T_H of N cells in ps (03 R70). -/
def harpTime (n : Nat) : Nat := (32 + (n + 7) / 8 * 3) * 1000

/-- Discovered cells of an arm in used strings. -/
def Plant.armCells (p : Plant) (a : Nat) : Nat :=
  ((p.usedStrings.filter (fun e => e.2 == a)).map (fun e => p.cellCount e.1)).sum

/-- T_H of the largest used arm (R31). -/
def Plant.tH (p : Plant) : Nat := listMax ((p.usedStrings.map (fun e => harpTime (p.armCells e.2))))

/-- The path latencies over every used string and both ends, each with its floor (R25). -/
def Plant.paths (p : Plant) : List (Nat × Nat) :=
  p.liveStrings.flatMap (fun e =>
    let n := p.c (K.stringCells + e.1)
    let t := harpTime (p.armCells e.2)
    (p.singles e.1 n).map (fun x => (pathUp x.1 n + t + pathDown x.1 n, 2 * x.1 + 2 * (2560 + n * 6400) + t)))

/-- The first pair with the largest first member. -/
def maxPair : List (Nat × Nat) → Nat × Nat
  | [] => (0, 0)
  | e :: t => let m := maxPair t; if m.1 ≤ e.1 then e else m

/-- Recomputes station.path_latency and station.path_floor (R25). -/
def Plant.showPaths (p : Plant) : Plant :=
  let m := maxPair p.paths
  (p.cPut K.stationPathLatency (m.1 : Nat)).cPut K.stationPathFloor (m.2 : Nat)

/-- Recomputes what the station shows of its arms, and T_H of each arm (01 objects, 03 R70). -/
def Plant.showArms (p : Plant) : Plant :=
  (rangeFrom 0 12).foldl (fun p a =>
    let n := p.armCells a
    let p := p.cPut (K.stationArmCells + a) (n : Nat)
    let p := p.cPut (K.stationArmStrings + a) (((rangeFrom 0 192).filter (fun s => p.mappedArm s == a)).length : Nat)
    p.cPut (K.harpTH + a) (harpTime n : Nat)) p

/-! ### The need for Ta (R31–R33) -/

/-- The terms of the table before R31, in ps. -/
structure Terms where
  pUp : Nat
  pDown : Nat
  dUp : Nat
  dDown : Nat
  fUp : Nat
  fDown : Nat
  deriving DecidableEq, Repr

/-- Bits of a report of a form. -/
def reportBits (form : Nat) : Nat := if form = 1 then 128 else 64

/-- The time of r bits for each of n cells over L lanes at 20 Gb/s, in ps. Of a hub without a lane in lock, where the formula of D_up
and D_down would divide by 0, it is 0 (DESIGN CHOICE, log entry 66): no report or command of it passes. -/
def uplinkTime (n r l : Nat) : Nat := if l = 0 then 0 else n * r * 50 / l

/-- The terms for string feeds and lane counts (R33). -/
def Plant.terms (p : Plant) (feed : Nat → Nat → Nat × Nat) (lanes : Nat → Nat) : Terms :=
  let live := p.liveStrings
  let ends := live.flatMap (fun e =>
    let n := p.c (K.stringCells + e.1)
    let ab := feed e.1 n
    let r := reportBits (formOf (p.hubCells (e.1 / 24)) (lanes (e.1 / 24)) p.tc)
    (p.served e.1 n ab.1 ab.2).map (fun x => (x, r)))
  let hubs := (rangeFrom 0 8).filter (fun n => p.hubCells n != 0)
  {
    pUp := listMax (ends.map (fun x => pathUp x.1.1 x.1.2)),
    pDown := listMax (ends.map (fun x => pathDown x.1.1 x.1.2)),
    dUp := listMax (hubs.map (fun n =>
      uplinkTime (p.hubCells n) (reportBits (formOf (p.hubCells n) (lanes n) p.tc)) (lanes n))),
    dDown := listMax (hubs.map (fun n => uplinkTime (p.hubCells n) 64 (lanes n))),
    fUp := listMax (ends.map (fun x => x.1.2 * x.2 * 100)),
    fDown := listMax (ends.map (fun x => x.1.2 * 64 * 100)) }

/-- T_need of R33 with path latency P, in ps. -/
def needOf (t : Terms) (pathP work : Nat) : Nat :=
  300000 + pathP + max t.dUp t.fUp + work * 1000 + max t.dDown t.fDown + 100000

/-- Every string fed from both ends at its normal split, two lanes a hub. -/
def Plant.termsDual (p : Plant) : Terms := p.terms (fun _ n => feedOf n 0) (fun _ => 2)
/-- Every string fed whole from one end, two lanes a hub; P is taken from station.path_latency. -/
def Plant.termsSingle (p : Plant) : Terms := p.terms (fun _ n => (n, n)) (fun _ => 2)
/-- The feeds and lanes in force. -/
def Plant.termsNow (p : Plant) : Terms := p.terms (fun s _ => p.feed s) p.hubLanes

/-- Recomputes the needs and H − S (R31, R33). cycle.h_offset is a U32: while H lies before S it shows 0, and `hOff` holds the
negative difference (DESIGN CHOICE, log entry 18). -/
def Plant.showNeeds (p : Plant) : Plant :=
  let w := p.c K.cycleWorkBudget
  let th := p.tH
  let d := p.termsDual
  let now := p.termsNow
  let p := p.cPut K.cycleTaNeedDual (needOf d (d.pUp + th + d.pDown) w : Nat)
  let p := p.cPut K.cycleTaNeedSingle (needOf p.termsSingle (p.c K.stationPathLatency) w : Nat)
  let p := p.cPut K.cycleTaNeedNow (needOf now (now.pUp + th + now.pDown) w : Nat)
  let off : Int := (p.ta * 1000 : Nat) - (th + max now.dDown now.fDown + now.pDown + 100000 : Nat)
  (p.onCvc (fun c => { c with hOff := off })).cPut K.cycleHOffset off.toNat

/-- Everything the CVC recomputes of its station at a cycle boundary (02, terms; R23, R33). -/
def Plant.stationBoundary (p : Plant) : Plant :=
  let p := p.chooseForms.showArms.showPaths
  let p := p.usedStrings.foldl (fun p e => p.showFeed e.1) p
  p.showNeeds

end Sys2Proof.Machine
end

