-- ==== Sys2Proof/Machine/Vat.lean ====
section
/-! DEFINITION. The Vat: slots, tags, instances, deposits, readiness, deadlines and placement epochs
(05_control_engines_and_vat.md R112–R126). -/

namespace Sys2Proof.Machine

/-! ### Slots (R112, R113) -/

/-- An instance that is not armed. -/
def instDflt : Inst := { st := .idle, k := 0, ops := [], present := 0, readyTick := 0 }

/-- A slot no package describes: disabled, at epoch 1 (R123, R127). -/
def slotDflt : SlotState :=
  {
    ctrl := 0, arms := 0, entry := 0, tags := [], epoch := 1, i0 := instDflt, i1 := instDflt, fault := false,
    rearm := false, moveDue := none, newDesc := none, flags := 0, code := 0, runs := 0, tagDone := [] }

/-- A slot. -/
def Plant.slot (p : Plant) (n : Nat) : SlotState := Tab.get (fun _ => slotDflt) p.cvc.slots n

/-- Changes a slot. -/
def Plant.onSlot (p : Plant) (n : Nat) (f : SlotState → SlotState) : Plant :=
  p.onCvc (fun c => { c with slots := Tab.upd (fun _ => slotDflt) c.slots n f })

/-- Sink slots 4,032–4,091 (R112). -/
def isSink (n : Nat) : Bool := decide (4032 ≤ n ∧ n < 4092)

/-- The control word of a slot; a sink's is fixed: enabled, cycle-critical, cyclic, one tag (R112). -/
def Plant.ctrlOf (p : Plant) (n : Nat) : Nat :=
  if isSink n then 0xE1000001 else if n < 4032 then (p.slot n).ctrl else 0

/-- EN. -/
def ctrlEn (c : Nat) : Bool := bitOf c 31
/-- CLASS: cycle-critical. -/
def ctrlCritical (c : Nat) : Bool := bitOf c 30
/-- CYCLIC. -/
def ctrlCyclic (c : Nat) : Bool := bitOf c 29
/-- NTAGS. -/
def ctrlTags (c : Nat) : Nat := bits c 27 24
/-- GROUPS. -/
def ctrlGroups (c : Nat) : Nat := bits c 19 16
/-- DIV. -/
def ctrlDiv (c : Nat) : Nat := bits c 15 0

/-- A tag word of a slot (R114); a sink's is VALUE. -/
def Plant.tagOf (p : Plant) (n t : Nat) : Nat := if isSink n then 0x10000000 else nth (p.slot n).tags t
/-- KIND of a tag word. -/
def tagKind (w : Nat) : Nat := bits w 31 28
/-- SOURCE of a tag word. -/
def tagSource (w : Nat) : Nat := bits w 27 20
/-- PARAM of a tag word. -/
def tagParam (w : Nat) : Nat := bits w 15 0

/-- An instance of a slot. -/
def SlotState.inst (s : SlotState) (i : Nat) : Inst := if i = 0 then s.i0 else s.i1
/-- Sets an instance of a slot. -/
def SlotState.setInst (s : SlotState) (i : Nat) (x : Inst) : SlotState := if i = 0 then { s with i0 := x } else { s with i1 := x }

/-- Changes an instance of a slot. -/
def Plant.onInst (p : Plant) (n i : Nat) (f : Inst → Inst) : Plant := p.onSlot n (fun s => s.setInst i (f (s.inst i)))

/-- The placement epoch of a slot: 1–0xFFFF, never 0 (R123). -/
def Plant.epochOf (p : Plant) (n : Nat) : Nat :=
  ((p.slot n).epoch - 1 + (if n < 4032 then p.cvc.epItems else p.cvc.epSinks)) % 65535 + 1

/-- The next epoch of a slot's own count (R123). -/
def nextEpoch (e : Nat) : Nat := e % 65535 + 1

/-- The slots that are listed, by number. -/
def Plant.slotList (p : Plant) : List Nat := p.cvc.slots.map (·.1)

/-- Slots are armed and items dispatched (R126): in CHARGING and above, in an ACTIVE CVC (14 R379). -/
def Plant.vatOn (p : Plant) : Bool := p.active && decide (3 ≤ p.conv)

/-- The enabled item slots. -/
def Plant.enabledSlots (p : Plant) : List Nat := p.slotList.filter (fun n => decide (n < 4032) && ctrlEn (p.ctrlOf n))

/-! ### Engines (R101, R119, R120) -/

/-- No registers. -/
def regsDflt : Regs := { x := [], f := [], pc := 0, fcsr := 0, hx := 0, resv := none, csr := [] }

/-- An engine with no item. -/
def engDflt : EngState :=
  { item := none, regs := regsDflt, saved := none, savedRegs := regsDflt, tnowHi := 0, busyAt := 0, busyAcc := 0, load := [] }

/-- An engine. -/
def Plant.eng (p : Plant) (e : Eng) : EngState := Tab.get (fun _ => engDflt) p.cvc.engines e.val

/-- Changes an engine. -/
def Plant.onEng (p : Plant) (e : Eng) (f : EngState → EngState) : Plant :=
  p.onCvc (fun c => { c with engines := Tab.upd (fun _ => engDflt) c.engines e.val f })

/-- Every engine. -/
def allEngines : List Eng := List.finRange 16

/-- The engines of groups (R101). -/
def enginesOf (groups : Nat) : List Eng := allEngines.filter (fun e => bitOf groups (e.val / 4))

/-- An engine takes an item up. -/
def Plant.engTake (p : Plant) (e : Eng) (it : Item) (r : Regs) : Plant :=
  p.onEng e (fun g => { g with
    item := some { it with startTick := p.tick }, regs := r, busyAt := if g.item.isSome then g.busyAt else p.tick })

/-- An engine becomes idle. -/
def Plant.engIdle (p : Plant) (e : Eng) : Plant :=
  p.onEng e (fun g => { g with item := none, regs := regsDflt, busyAcc := g.busyAcc + (p.tick - g.busyAt) })

/-- eng.state of an engine (R130). -/
def Plant.engState (p : Plant) (e : Eng) : Nat :=
  let g := p.eng e
  (match g.item with | some it => if it.critical then 1 else 2 | none => 0) + (if g.saved.isSome then 4 else 0)

/-- An item of a slot and instance runs, or is suspended, on some engine. -/
def Plant.slotOnEngine (p : Plant) (n i : Nat) : Option InstState :=
  let is := fun (it : Option Item) => match it with | some it => it.slot == n && it.inst == i | none => false
  if allEngines.any (fun e => is (p.eng e).item) then some .running
  else if allEngines.any (fun e => is (p.eng e).saved) then some .suspended
  else none

/-- The state of an instance as vat.slot_state shows it (R131). -/
def Plant.instState (p : Plant) (n i : Nat) : InstState :=
  let c := p.ctrlOf n
  let x := (p.slot n).inst i
  if !ctrlEn c then .disabled
  else if (p.slot n).fault then .fault
  else match p.slotOnEngine n i with
    | some st => st
    | none =>
      if isSink n then
        (if x.present ≠ 0 ∧ (x.k = p.k ∨ x.k + 1 = p.k) then .ready else if p.vatOn then .waiting else .idle)
      else x.st

/-- vat.slot_state (R131). -/
def Plant.slotState (p : Plant) (n : Nat) : Nat := (p.instState n 1).code * 16 + (p.instState n 0).code

/-! ### Deposits (R118) -/

/-- The instance of a sink for a cycle is open: the present cycle or the one before (R112, R115). -/
def Plant.sinkOpen (p : Plant) (n c : Nat) : Bool :=
  p.vatOn && (c == p.k || c + 1 == p.k) && !((p.slot n).inst (c % 2)).present.testBit 0 ||
    (p.vatOn && (c == p.k || c + 1 == p.k) && ((p.slot n).inst (c % 2)).k != c)

/-- S of a cycle in ns, from the schedule of the present one (02 R29). -/
def Plant.sOf (p : Plant) (k : Nat) : Int :=
  let sc := (p.node .cvc).sched
  (sc.s : Int) - ((p.k : Int) - k) * sc.tc

/-- H of the present cycle or of the one before, in ps of network time (02 R31). -/
def Plant.hPs (p : Plant) (k : Nat) : Int :=
  p.sOf k * 1000 + (if k = p.k then p.cvc.hOff else p.cvc.hOffPrev)

/-- Network time of the CVC in ps. -/
def Plant.nowPs (p : Plant) : Int := p.nowU .cvc * 1000 / 2 ^ 41

/-- H of a cycle has passed. -/
def Plant.pastH (p : Plant) (c : Nat) : Bool := decide (c < p.cvc.hLast)

/-- Items ready and not dispatched. -/
def Plant.readyCount (p : Plant) : Nat :=
  (p.enabledSlots.map (fun n =>
    (if (p.slot n).i0.st = .ready then 1 else 0) + (if (p.slot n).i1.st = .ready then 1 else 0))).sum

/-- Stores an operand into an instance; with every tag present the instance becomes ready (R118). -/
def storeTag (tick ntags t v : Nat) (x : Inst) : Inst :=
  let ops := (x.ops ++ List.replicate (8 - x.ops.length) 0).set t v
  let present := x.present ||| 2 ^ t
  let full := (rangeFrom 0 ntags).all (bitOf present)
  { x with ops := ops, present := present, st := if full then .ready else .waiting, readyTick := if full then tick else x.readyTick }

/-- What a deposit meets, before it is stored (R118): a result of 2 to 5, or the instance it goes to. -/
def Plant.depositTo (p : Plant) (src : Option Item) (cyc n t hEpoch : Nat) : Nat ⊕ Nat :=
  let c := p.ctrlOf n
  let s := p.slot n
  let w := p.tagOf n t
  if 4092 ≤ n ∨ !ctrlEn c ∨ s.fault ∨ ctrlTags c ≤ t then .inl 5
  else if src.isSome ∧ tagKind w ≠ 1 then .inl 5
  else
    let stale := match src with
      | some it => if p.epochOf it.slot != it.epoch then 3 else if hEpoch != p.epochOf n then 2 else 0
      | none => 0
    if stale ≠ 0 then .inl stale
    else if !p.vatOn then .inl 4
    else if ctrlCyclic c then
      let k := match src with
        | some it => if ctrlCyclic (p.ctrlOf it.slot) then it.k else p.k
        | none => cyc
      let i := if ctrlCritical c then k % 2 else 0
      let open_ := if isSink n then p.sinkOpen n k else decide ((s.inst i).k = k ∧ (s.inst i).st = .waiting)
      if !open_ then .inl 4
      else if ctrlCritical c ∧ p.pastH k then .inl 4
      else .inr i
    else .inr 0

/-- Counts a deposit's result (R118). -/
def Plant.countResult (p : Plant) (item : Bool) (n r : Nat) : Plant :=
  match r with
  | 0 => p
  | 1 => p.bump .cvc K.vatOverwrites 1
  | 2 => (p.bump .cvc K.vatStaleEpoch 1).raise .cvc 35 n
  | 3 => (p.bump .cvc K.vatStaleEpoch 1).raise .cvc 35 n
  | 4 => p.bump .cvc K.vatStaleCycle 1
  | _ =>
    let p := p.bump .cvc K.vatBadHandle 1
    if item then p.raise .cvc 38 n else p

/-- A deposit that is discarded because H of its cycle has passed (R118, 02 R37): its lateness. -/
def Plant.lateDeposit (p : Plant) (src : Option Item) (cyc n r : Nat) : Plant :=
  let k := match src with
    | some it => it.k
    | none => cyc
  if r = 4 ∧ ctrlCritical (p.ctrlOf n) ∧ p.vatOn ∧ p.pastH k then
    p.raiseMax .cvc K.cycleLateMax (p.nowPs - (match src with | some it => it.hAt | none => p.hPs cyc))
  else p

/-- A deposit of v into tag t of slot n (R118): by an item with a handle's epoch, or by hardware for a cycle. -/
def Plant.deposit (p : Plant) (src : Option Item) (cyc n t hEpoch v : Nat) : Nat × Plant :=
  match p.depositTo src cyc n t hEpoch with
  | .inl r => (r, (p.lateDeposit src cyc n r).countResult src.isSome n r)
  | .inr i =>
    let k := match src with
      | some it => if ctrlCyclic (p.ctrlOf it.slot) then it.k else p.k
      | none => cyc
    let fresh : Inst := { st := .waiting, k := k, ops := [], present := 0, readyTick := 0 }
    let x := (p.slot n).inst i
    let x := if isSink n ∧ x.k ≠ k then fresh else x
    let r := if bitOf x.present t then 1 else 0
    let p := p.onSlot n (fun s => s.setInst i (storeTag p.tick (ctrlTags (p.ctrlOf n)) t v x))
    (r, (p.countResult src.isSome n r).raiseMax .cvc K.vatReadyMax p.readyCount)

/-- A hardware producer deposits into every enabled tag whose KIND and SOURCE match (R118). -/
def Plant.hwDeposit (p : Plant) (kind source cyc v : Nat) : Plant :=
  p.enabledSlots.foldl (fun p n =>
    (rangeFrom 0 (ctrlTags (p.ctrlOf n))).foldl (fun p t =>
      let w := p.tagOf n t
      if tagKind w = kind ∧ tagSource w = source then (p.deposit none cyc n t 0 v).2 else p) p) p

/-- The operand of input j of an arm for a cycle, when it is present (R112). -/
def Plant.sinkOperand (p : Plant) (a j k : Nat) : Option Nat :=
  let x := (p.slot (4032 + 5 * a + j)).inst (k % 2)
  if x.k = k ∧ bitOf x.present 0 then some (nth x.ops 0) else none

/-! ### Completion and traps (R102–R104, R122) -/

/-- Lateness of an item past the H of its cycle (02 R37). -/
def Plant.noteLate (p : Plant) (it : Item) : Plant :=
  if it.critical ∧ p.pastH it.k then p.raiseMax .cvc K.cycleLateMax (p.nowPs - it.hAt) else p

/-- VDONE: the item's flags are gathered and it is complete; one dispatched under an older epoch is not recorded as complete
(R111, R122, R124). -/
def Plant.itemDone (p : Plant) (e : Eng) (it : Item) (code hx : Nat) : Plant :=
  let p := (p.noteLate it).engIdle e
  if p.epochOf it.slot ≠ it.epoch then
    (p.onSlot it.slot (fun s => { s with flags := s.flags ||| hx })).onInst it.slot it.inst (fun x => if x.st = .running then { x with st := .idle } else x)
  else
    let p := p.onSlot it.slot (fun s => { s with flags := s.flags ||| hx, code := code, runs := min (s.runs + 1) (2 ^ 32 - 1) })
    let p := p.bump .cvc (K.engItems + e.val) 1
    if ctrlCyclic (p.ctrlOf it.slot) then p.onInst it.slot it.inst (fun x => { x with st := .done })
    else p.onInst it.slot 0 (fun x => if x.present = 0 then { x with st := .done } else x)

/-- An item ends by an exception or its limit: the trap is recorded, the slot is in FAULT, and the source carries the slot's arm mask
(R103, R104, 12 R336). -/
def Plant.trapItem (p : Plant) (e : Eng) (mepc cause src : Nat) : Plant :=
  match (p.eng e).item with
  | none => p
  | some it =>
    let p := (p.cPut (K.engLastTrap + e.val) (mepc * 2 ^ 32 + it.slot * 2 ^ 20 + cause % 256 : Nat)).bump .cvc
      (K.engTraps + e.val) 1
    let p := p.engIdle e
    let p := p.onSlot it.slot (fun s => { s with fault := true })
    let p := if ctrlCyclic (p.ctrlOf it.slot) then p.onInst it.slot it.inst (fun x => { x with st := .fault }) else p
    p.raiseArms src (p.slot it.slot).arms

/-- ITEM_EXCEPTION: an exception ends the item of an engine at its pc (R103); an uncorrectable memory error is such an exception, an
access fault of the item that reads. An error that the ECC corrects is counted, and one that it cannot correct in the Vat's own
storage raises source 39 (R105; log entry 74). -/
def execItemException (e : Eng) (cause : ItemEvent) (s : State) : Host.Outcome State Fault Refusal :=
  s.onUp .cvc (fun p =>
    match cause with
    | .trap c => p.trapItem e (p.eng e).regs.pc c.toNat 32
    | .corrected => p.bump .cvc K.vatEccCorrected 1
    | .vatStorage => p.raise .cvc 39 0)

/-- ITEM_LIMIT: an item has run for eng.item_limit; mcause 24 and source 33 (R104). -/
def execItemLimit (e : Eng) (s : State) : Host.Outcome State Fault Refusal :=
  s.onUp .cvc (fun p => p.trapItem e (p.eng e).regs.pc 24 33)

/-! ### Dispatch (R102, R119, R120) -/

/-- n free values of 32 bits (log entry 6). -/
def Plant.freeWords : Nat → Plant → List Nat × Plant
  | 0, p => ([], p)
  | n + 1, p =>
    let (v, p) := p.free
    let (l, p) := Plant.freeWords n p
    (v % 2 ^ 32 :: l, p)

/-- hxitem of an item (R111). -/
def hxItem (it : Item) : Nat :=
  it.epoch * 2 ^ 16 + it.inst * 2 ^ 13 + (if it.critical then 2 ^ 12 else 0) + it.slot

/-- The registers an item begins with: pc, a0, a1, sp, fcsr and hxflags as R102 names them, every other one a free value. -/
def Plant.startRegs (p : Plant) (it : Item) (entry : Nat) : Regs × Plant :=
  let (x, p) := Plant.freeWords 32 p
  let (f, p) := Plant.freeWords 32 p
  let (m, p) := Plant.freeWords 4 p
  let x := ((((x.set 0 0).set 2 (if it.critical then 0x20000 else 0x1E000)).set 10 (hxItem it)).set 11 (it.k % 2 ^ 32))
  ({
     x := x, f := f, pc := entry, fcsr := 0, hx := 0, resv := none,
     csr := [(0x340, nth m 0), (0x341, nth m 1), (0x342, nth m 2), (0x343, nth m 3)] }, p)

/-- A cycle-critical item that an engine may run is ready (R119). -/
def Plant.criticalReady (p : Plant) (e : Eng) : Bool :=
  p.vatOn && p.enabledSlots.any (fun n =>
    let c := p.ctrlOf n
    ctrlCritical c && bitOf (ctrlGroups c) (e.val / 4) && !(p.slot n).fault &&
      ((p.slot n).i0.st == .ready || (p.slot n).i1.st == .ready))

/-- An engine may take a ready item now (R119, R120): it is idle, with no suspended item and no ready cycle-critical one before a
background one; or every engine of the groups is busy and it runs a background item that a cycle-critical one pre-empts. -/
def Plant.mayTake (p : Plant) (e : Eng) (groups : Nat) (critical : Bool) : Bool :=
  let g := p.eng e
  bitOf groups (e.val / 4) && (match g.item with
    | none => critical || (g.saved.isNone && !p.criticalReady e)
    | some it => critical && !it.critical && g.saved.isNone && (enginesOf groups).all (fun x => (p.eng x).item.isSome))

/-- The cycle of an item: that of a cyclic instance, or the present one for an event slot (R102, R118). -/
def Plant.itemCycle (p : Plant) (n i : Nat) : Nat := if ctrlCyclic (p.ctrlOf n) then ((p.slot n).inst i).k else p.k

/-- ITEM_DISPATCH: a ready item starts on an engine of its groups, pre-empting a background item where R120 says so. -/
def execItemDispatch (slot : Slot) (inst : Fin 2) (e : Eng) (s : State) : Host.Outcome State Fault Refusal :=
  s.onUp .cvc (fun p =>
    let n := slot.toNat
    let c := p.ctrlOf n
    let sl := p.slot n
    let x := sl.inst inst.val
    if 4032 ≤ n ∨ !ctrlEn c ∨ sl.fault ∨ !p.vatOn ∨ x.st ≠ .ready ∨ !p.mayTake e (ctrlGroups c) (ctrlCritical c) then p
    else
      let it : Item := {
        slot := n, inst := inst.val, critical := ctrlCritical c, k := p.itemCycle n inst.val,
        sAt := p.sOf (p.itemCycle n inst.val), hAt := p.hPs (p.itemCycle n inst.val), epoch := p.epochOf n,
        ops := x.ops, startTick := p.tick, usedTicks := 0 }
      let p := match (p.eng e).item with
        | some old =>
          let p := p.onEng e (fun g => { g with
            saved := some { old with usedTicks := old.usedTicks + (p.tick - old.startTick) }, savedRegs := g.regs })
          let p := if ctrlCyclic (p.ctrlOf old.slot) then p.onInst old.slot old.inst (fun y => { y with st := .suspended }) else p
          p.bump .cvc (K.engPreempts + e.val) 1
        | none => p
      let (r, p) := p.startRegs it sl.entry
      let p := p.engTake e it r
      let p := if ctrlCyclic c then p.onInst n inst.val (fun y => { y with st := .running }) else p.onInst n 0 (fun _ => instDflt)
      if ctrlCritical c then p.raiseMax .cvc K.vatDispatchMax ((p.tick - x.readyTick) * 2500 : Nat) else p)

/-- ITEM_RESUME: an idle engine resumes its suspended item when no cycle-critical one it may run is ready (R119); what
R120 does not save comes back as free values, without a reservation. -/
def execItemResume (e : Eng) (s : State) : Host.Outcome State Fault Refusal :=
  s.onUp .cvc (fun p =>
    let g := p.eng e
    match g.item, g.saved with
    | none, some it =>
      if p.criticalReady e then p else
      let (m, p) := Plant.freeWords 4 p
      let r := { g.savedRegs with
        resv := none, csr := [(0x340, nth m 0), (0x341, nth m 1), (0x342, nth m 2), (0x343, nth m 3)] }
      let p := (p.engTake e it r).onEng e (fun g => { g with saved := none, savedRegs := regsDflt })
      if ctrlCyclic (p.ctrlOf it.slot) then p.onInst it.slot it.inst (fun y => { y with st := .running }) else p
    | _, _ => p)

/-! ### Hardware tags (R114) -/

/-- The cycle whose S lies PARAM × 10 ns back, at the instant a tag's time comes (R114). -/
def Plant.paramCycle (p : Plant) (w : Nat) : Nat := p.k - tagParam w * 10 / max 1 p.tc

/-- TIMER_TAG: a TIMER tag becomes present with the low 32 bits of the cycle number (R114). -/
def execTimerTag (slot : Slot) (tag : Pin8) (s : State) : Host.Outcome State Fault Refusal :=
  s.onUp .cvc (fun p =>
    let n := slot.toNat
    let w := p.tagOf n tag.val
    if tagKind w = 6 ∧ ctrlEn (p.ctrlOf n) ∧ tag.val < ctrlTags (p.ctrlOf n) then
      (p.deposit none (p.paramCycle w) n tag.val 0 (p.paramCycle w % 2 ^ 32)).2
    else p)

/-- A report record of a cell for a cycle, when it is one that an item would use (R106). -/
def Plant.reportOf (p : Plant) (id k : Nat) : Option RepRec :=
  let r := Tab.get (fun _ => default) p.cvc.reports (k % 2 * 0x3000 + id)
  if r.valid ∧ r.k = k then some r else none

/-- The number of VALID records of cells for a cycle (R114). -/
def Plant.validReports (p : Plant) (ids : List Nat) (k : Nat) : Nat := (ids.filter (fun id => (p.reportOf id k).isSome)).length

/-- A string's ends that serve cells have delivered their frames' ends; one left out is not waited for (R114). -/
def Plant.stringDelivered (p : Plant) (k s : Nat) : Bool :=
  let n := p.c (K.stringCells + s)
  let ab := p.feed s
  let i := p.strInfo s
  p.stringLeftOut s k || ((ab.1 == 0 || decide (k < i.headDone)) && (decide (n ≤ ab.2) || decide (k < i.tailDone)))

/-- The strings a REPORTS tag waits for, and the cells it counts (R114). -/
def Plant.reportScope (p : Plant) (w : Nat) : List Nat × List Nat :=
  if tagKind w = 2 then
    ((p.usedStrings.filter (fun e => e.2 == tagSource w)).map (·.1), p.cellsOfArm (tagSource w))
  else ([tagSource w], p.cellsOfString (tagSource w))

/-- A REPORTS tag becomes present for cycle k, once in a cycle: at the last frame end or at its time, whichever comes first
(R114). -/
def Plant.reportsPresent (p : Plant) (n t k : Nat) : Plant :=
  if k < Tab.get (fun _ => 0) (p.slot n).tagDone t then p
  else
    let v := p.validReports (p.reportScope (p.tagOf n t)).2 k
    let p := p.onSlot n (fun s => { s with tagDone := Tab.set (fun _ => 0) s.tagDone t (k + 1) })
    (p.deposit none k n t 0 v).2

/-- The REPORTS tags of enabled slots whose strings have all delivered in cycle k become present (R114); `sel` names the tags looked
at by the strings they wait for. -/
def Plant.reportsAll (p : Plant) (k : Nat) (sel : List Nat → Bool) : Plant :=
  p.enabledSlots.foldl (fun p n =>
    (rangeFrom 0 (ctrlTags (p.ctrlOf n))).foldl (fun p t =>
      let w := p.tagOf n t
      let strs := (p.reportScope w).1
      if (tagKind w = 2 ∨ tagKind w = 3) ∧ sel strs ∧ strs.all (p.stringDelivered k) then p.reportsPresent n t k
      else p) p) p

/-- A string end delivered: the REPORTS tags that waited for it last become present (R114). -/
def Plant.reportsDelivered (p : Plant) (str k : Nat) : Plant := p.reportsAll k (fun strs => strs.contains str)

/-- REPORTS_CUTOFF: a REPORTS tag becomes present at its time, before every string end has delivered (R114). -/
def execReportsCutoff (slot : Slot) (tag : Pin8) (s : State) : Host.Outcome State Fault Refusal :=
  s.onUp .cvc (fun p =>
    let n := slot.toNat
    let w := p.tagOf n tag.val
    if ctrlEn (p.ctrlOf n) ∧ tag.val < ctrlTags (p.ctrlOf n) ∧ (tagKind w = 2 ∨ tagKind w = 3) ∧ tagParam w ≠ 0 then
      p.reportsPresent n tag.val (p.paramCycle w)
    else p)

/-! ### Deadlines (R122) and the cycle (R115, R116, R123–R126) -/

/-- An instance that waits or is ready. -/
def Inst.pendingSt (x : Inst) : Bool := x.st == .waiting || x.st == .ready

/-- The item of a cycle-critical slot for a cycle is complete. -/
def Plant.itemComplete (p : Plant) (n k : Nat) : Bool :=
  let x := (p.slot n).inst (k % 2)
  x.k == k && x.st == .done

/-- H of cycle k in the Vat: instances not dispatched are discarded; answers the arms that overrun and whether an item bound to
no arm is late (R122). -/
def Plant.vatDeadline (p : Plant) (k : Nat) : Nat × Bool × Plant :=
  if !p.vatOn ∨ p.cvc.armFrom = 0 ∨ k + 1 < p.cvc.armFrom then (0, false, p)
  else
    (p.enabledSlots.filter (fun n => ctrlCritical (p.ctrlOf n))).foldl (fun (acc : Nat × Bool × Plant) n =>
      let (m, u, p) := acc
      if p.itemComplete n k then acc
      else
        let x := (p.slot n).inst (k % 2)
        let p := if x.k = k ∧ x.pendingSt then
            (p.onInst n (k % 2) (fun _ => instDflt)).bump .cvc K.vatUnfired 1
          else p
        let arms := (p.slot n).arms
        if arms = 0 then (m, true, p.bump .cvc K.vatLateUnbound 1) else (m ||| arms, u, p)) (0, false, p)

/-- The slot's descriptor written since the last boundary takes effect (R126). -/
def Plant.applyDesc (p : Plant) (n : Nat) : Plant :=
  match (p.slot n).newDesc with
  | none => p
  | some d =>
    p.onSlot n (fun s => { s with ctrl := nth d 0, arms := nth d 1, entry := nth d 2, tags := d.drop 3, newDesc := none })

/-- Suspended items of a slot are discarded. -/
def Plant.dropSaved (p : Plant) (sel : Item → Bool) : Plant :=
  allEngines.foldl (fun p e =>
    match (p.eng e).saved with
    | some it =>
      if sel it then
        (p.onEng e (fun g => { g with saved := none, savedRegs := regsDflt })).onInst it.slot it.inst
          (fun x => if x.st = .suspended then instDflt else x)
      else p
    | none => p) p

/-- An instance bound to an earlier cycle and not yet dispatched is discarded (R124). -/
def Plant.discardOld (p : Plant) (n i k : Nat) : Plant :=
  let x := (p.slot n).inst i
  if x.pendingSt ∧ (!ctrlCyclic (p.ctrlOf n) ∨ x.k < k) ∧ x.st ≠ .idle then
    if ctrlCyclic (p.ctrlOf n) then (p.onInst n i (fun _ => instDflt)).bump .cvc K.vatUnfired 1 else p
  else p

/-- A move takes effect at S_k (R124). -/
def Plant.applyMove (p : Plant) (n k : Nat) : Plant :=
  match (p.slot n).moveDue with
  | none => p
  | some g =>
    let p := p.onSlot n (fun s => { s with moveDue := none })
    if g = ctrlGroups (p.slot n).ctrl then p
    else
      let p := (p.discardOld n 0 k).discardOld n 1 k
      let p := p.onSlot n (fun s => { s with ctrl := s.ctrl - ctrlGroups s.ctrl * 2 ^ 16 + g * 2 ^ 16 })
      p.dropSaved (fun it => it.slot == n)

/-- What a boundary makes of a slot's descriptor: a written one, then a move. The epoch increments once where GROUPS has changed
(R123, R124, R126). -/
def Plant.applySlot (p : Plant) (n k : Nat) : Plant :=
  let old := ctrlGroups (p.slot n).ctrl
  let p := (p.applyDesc n).applyMove n k
  if ctrlGroups (p.slot n).ctrl = old then p else p.onSlot n (fun s => { s with epoch := nextEpoch s.epoch })

/-- A re-arm takes effect: the slot leaves FAULT (R103). -/
def Plant.applyRearm (p : Plant) (n : Nat) : Plant :=
  if (p.slot n).rearm then
    p.onSlot n (fun s => { s with
      fault := false, rearm := false, i0 := if s.i0.st = .fault then instDflt else s.i0,
      i1 := if s.i1.st = .fault then instDflt else s.i1 })
  else p

/-- An instance runs or is suspended. -/
def Inst.busy (x : Inst) : Bool := x.st == .running || x.st == .suspended

/-- Arms a cyclic slot at S_k (R115), or counts that it could not (R116). -/
def Plant.armSlot (p : Plant) (n k : Nat) : Plant :=
  let c := p.ctrlOf n
  let s := p.slot n
  if !ctrlCyclic c ∨ s.fault then p
  else
    let fresh : Inst := { st := .waiting, k := k, ops := [], present := 0, readyTick := 0 }
    if ctrlCritical c then
      if (s.inst (k % 2)).busy then
        let p := p.bump .cvc K.vatNotArmed 1
        p.raiseArms 36 s.arms
      else p.onInst n (k % 2) (fun _ => fresh)
    else if k % max 1 (ctrlDiv c) = 0 then
      if s.i0.busy then (p.bump .cvc K.vatBgSkips 1).raise .cvc 37 n else p.onInst n 0 (fun _ => fresh)
    else p

/-- Clears every operand and discards suspended items on entering STOPPED; what runs goes on with its own copy (R117, R126). -/
def Plant.vatClear (p : Plant) : Plant :=
  let p := p.dropSaved (fun _ => true)
  p.slotList.foldl (fun p n =>
    let clr := fun (x : Inst) => if x.busy ∨ x.st = .fault then { x with ops := [], present := 0 } else instDflt
    p.onSlot n (fun s => { s with i0 := clr s.i0, i1 := clr s.i1 })) p

/-- eng.load at a boundary: busy time of the last 1,024 cycles in per mille (R130). -/
def Plant.engLoad (p : Plant) : Plant :=
  allEngines.foldl (fun p e =>
    let g := p.eng e
    let busy := g.busyAcc + (if g.item.isSome then p.tick - g.busyAt else 0)
    if busy = 0 ∧ g.load.all (· == 0) then p
    else
      let load := (busy :: g.load).take 1024
      let p := p.onEng e (fun g => { g with busyAcc := 0, busyAt := p.tick, load := load })
      p.cPut (K.engLoad + e.val) (load.sum * 1000 / (1024 * max 1 (ticksNs p.tc)) : Nat)) p

/-- REPORTS tags that wait for no string end in cycle k, because no end of theirs is in the report plan, are present at once
(R114). -/
def Plant.reportsNone (p : Plant) (k : Nat) : Plant := p.reportsAll k (fun _ => true)

/-- Descriptors, moves and re-arms take effect at S_k (R103, R123, R124, R126). -/
def Plant.slotBoundary (p : Plant) (k : Nat) : Plant := p.slotList.foldl (fun p n => (p.applySlot n k).applyRearm n) p

/-- The Vat at S_k, after the converter's transition (R115, R116, R126). `stopped` says that this boundary entered
STOPPED. -/
def Plant.vatBoundary (p : Plant) (k : Nat) (stopped : Bool) : Plant :=
  let p := p.engLoad
  let p := if stopped then p.vatClear else p
  if p.vatOn then
    let p := p.onCvc (fun c => { c with armFrom := if c.armFrom = 0 then k + 1 else c.armFrom })
    (p.enabledSlots.foldl (fun p n => p.armSlot n k) p).reportsNone k
  else p.onCvc (fun c => { c with armFrom := 0 })

/-! ### Writes (R103, R124, R131) -/

/-- vat.move accepted (R124). -/
def Plant.vatMove (p : Plant) (v : Nat) : Plant := p.onSlot (bits v 11 0) (fun s => { s with moveDue := some (bits v 19 16) })

/-- vat.rearm accepted (R103). -/
def Plant.vatRearm (p : Plant) (v : Nat) : Plant := p.onSlot v (fun s => { s with rearm := s.fault })

/-- vat.flags_clear accepted (R131). -/
def Plant.vatFlagsClear (p : Plant) (v : Nat) : Plant := p.onSlot v (fun s => { s with flags := 0 })

end Sys2Proof.Machine
end

