-- ==== Sys2Proof/Machine/Loop.lean ====
section
/-! DEFINITION. The Arm Loop Engines and the test-signal injector (04_arm_loop_engines.md). -/

namespace Sys2Proof.Machine

/-- The engine of an arm. -/
def Plant.loop (p : Plant) (a : Nat) : ArmLoop := Tab.get (fun _ => default) p.cvc.loops a
/-- Changes the engine of an arm. -/
def Plant.onLoop (p : Plant) (a : Nat) (f : ArmLoop → ArmLoop) : Plant :=
  p.onCvc (fun c => { c with loops := Tab.upd (fun _ => default) c.loops a f })

/-- A loop object of a snapshot, by subindex (R97); 0x2C and 0x2D are i_rind and di_rind. -/
def parAt (par : List Int) (sub : Nat) : Int := par.getD (sub - 1) 0

/-- The loop objects of an arm in effect now, with the Rind limits in use (R80, R86). -/
def Plant.loopPars (p : Plant) (a : Nat) : List Int :=
  (rangeFrom 1 0x2B).map (fun s => p.get .cvc ((0x2500 + a) * 256 + s)) ++
    [p.get .cvc (K.loopIRind + a), p.get .cvc (K.loopDiRind + a)]

/-- An engine runs: RUNNING or DEGRADED, a used arm that is not blocked (R78). -/
def Plant.loopRuns (p : Plant) (a : Nat) : Bool :=
  p.runs && p.armUsed a && !bitOf (p.c K.convArmsBlocked) a

/-- The cycle an engine is to run: the cycle before the present one while the engine is to run for it, has not run for it, and its H
has not passed (R80). -/
def Plant.loopCycle (p : Plant) (a : Nat) : Nat :=
  let l := p.loop a
  if p.tc < p.ta ∧ 0 < p.k ∧ l.lastK < p.k ∧ !p.pastH (p.k - 1) ∧ l.fromK ≠ 0 ∧ l.fromK ≤ p.k then p.k - 1 else p.k

/-- The objects of the run for a cycle. -/
def Plant.loopParsAt (p : Plant) (a k : Nat) : List Int := if k = p.k then (p.loop a).par else (p.loop a).parPrev

/-! ### Measurement (R79) -/

/-- The state of a measurement source for a cycle: usable with its raw value, unusable, or still to come. -/
inductive Meas where
  | usable (raw : Int) | unusable | awaited
  deriving DecidableEq, Repr

/-- A measurement source for a cycle. -/
def Plant.measure (p : Plant) (src k : Nat) : Meas :=
  if src / 2 ^ 14 = 0 then
    let ch := src % 16
    if p.c (K.bsFault + ch) ≠ 0 then .unusable
    else .usable (Tab.get (fun _ => 0) (if k = p.k then p.cvc.bsAtS else p.cvc.bsPrev) ch)
  else
    let id := src % 2 ^ 14
    let r := Tab.get (fun _ => default) p.cvc.reports (k % 2 * 0x3000 + id)
    if r.k = k ∧ r.seq = k % 256 ∧ r.land ≠ 0 then
      if r.valid ∧ !r.loss ∧ !r.compact then .usable r.i else .unusable
    else if p.stringDelivered k (id / 64) then .unusable else .awaited

/-- The measurement of an arm for a cycle, and whether the alternate gave it (R79). `late` says that the launch can wait no longer: a
report that has not landed is then missing, and its source unusable. -/
def Plant.armMeasure (p : Plant) (par : List Int) (k : Nat) (late : Bool) : Option (Int × Bool) :=
  let alt :=
    let src := (parAt par 2).toNat
    if src = 0xFFFF then none else match p.measure src k with
      | .usable x => some (x, true)
      | _ => none
  match p.measure (parAt par 1).toNat k with
  | .usable x => some (x, false)
  | .awaited => if late then alt else none
  | .unusable => alt

/-! ### The loop, stage by stage (R82–R84) -/

/-- What a run takes in. -/
structure LoopIn where
  t : Int
  m : Int
  mSat : Bool
  ff : Int
  upost : Int
  injSp : Int
  injOut : Int
  deriving DecidableEq, Repr

/-- What a run leaves: the new state and what it shows. -/
structure LoopOut where
  r : Int
  s : Int
  e : Int
  integ : Int
  z1 : List Int
  z2 : List Int
  limPrev : Int
  y : Int
  u : Int
  flags : Nat
  deriving DecidableEq, Repr

/-- Flags of R100 as bits. -/
def flagBit (b : Bool) (n : Nat) : Nat := if b then 2 ^ n else 0

/-- A line's exact sum in units of 2^-48, rounded once (R84). -/
def line (x : Int) : Int := rdiv x 16777216

/-- One biquad section on x: its output, new states and whether one saturated (R83). -/
def biquad (b : List Int) (x z1 z2 : Int) : Int × Int × Int × Bool :=
  let y' := line (b.getD 0 0 * x + z1 * 16777216)
  let y := satPU y'
  let n1 := line (b.getD 1 0 * x - b.getD 3 0 * y + z2 * 16777216)
  let n2 := line (b.getD 2 0 * x - b.getD 4 0 * y)
  (y, satPU n1, satPU n2, satHit y' || satHit n1 || satHit n2)

/-- Sections j … 3 in turn; one that is not in use passes x and its states hold at 0 (R83). -/
def biquads (par z1 z2 : List Int) : List Nat → Int → Int × List Int × List Int × Nat
  | [], x => (x, [], [], 0)
  | j :: t, x =>
    if bitOf (parAt par 0x0E).toNat j then
      let b := (par.drop (0x17 + 5 * j)).take 5
      let (y, n1, n2, sat) := biquad b x (z1.getD j 0) (z2.getD j 0)
      let (v, l1, l2, f) := biquads par z1 z2 t y
      (v, n1 :: l1, n2 :: l2, f + flagBit sat (3 + j))
    else
      let (v, l1, l2, f) := biquads par z1 z2 t x
      (v, 0 :: l1, 0 :: l2, f)

/-- The sign of a number: −1, 0 or 1. -/
def signI (x : Int) : Int := if x < 0 then -1 else if 0 < x then 1 else 0

/-- One run of the loop (R82, R84). -/
def loopStep (par : List Int) (l : ArmLoop) (i : LoopIn) : LoopOut :=
  let iRind := parAt par 0x2C
  let diRind := parAt par 0x2D
  let lim := min (parAt par 6) iRind
  let rate := min (parAt par 7) diRind
  let limFlag := if iRind < parAt par 6 then 13 else 12
  let rateFlag := if diRind < parAt par 7 then 13 else 11
  let tc := clampI (-lim) lim i.t
  let step := tc - l.r
  let cs := clampI (-rate) rate step
  let r := clampI (-lim) lim (l.r + cs)
  let s0 := r + i.injSp
  let s1 := clampI (l.sPrev - diRind) (l.sPrev + diRind) s0
  let s := clampI (-lim) lim s1
  let f := flagBit (tc != i.t || r != l.r + cs || s != s1) limFlag ||| flagBit (cs != step) rateFlag |||
    flagBit (s1 != s0) 13
  let e := satPU (s - i.m)
  let f := f ||| flagBit (i.mSat || satHit (s - i.m)) 10
  let p' := line (parAt par 8 * e)
  let frozen := parAt par 0x0D == 1 && l.limPrev != 0 && signI (parAt par 9 * e) == l.limPrev
  let i' := line (l.integ * 16777216 + parAt par 9 * e)
  let integ := if frozen then l.integ else clampI (parAt par 0x0B) (parAt par 0x0A) (satPU i')
  let f := f ||| flagBit frozen 7 ||| flagBit (!frozen && (satHit i' || integ != i')) 8
  let x' := satPU p' + integ
  let f := f ||| flagBit (satHit p' || satHit x') 9
  let (x, z1, z2, bf) := biquads par l.z1 l.z2 [0, 1, 2, 3] (satPU x')
  let v' := line ((x + i.injOut) * 16777216 + parAt par 0x10 * i.ff)
  let y := clampI (parAt par 0x12) (parAt par 0x11) (satPU v')
  let limPrev := if y = parAt par 0x11 then 1 else if y = parAt par 0x12 then -1 else 0
  let post := clampI (-(parAt par 0x14)) (parAt par 0x14) i.upost
  let u' := y + post
  let f := f ||| bf ||| flagBit (satHit v') 2 ||| flagBit (limPrev != 0) 1 ||| flagBit (post != i.upost || satHit u') 0
  { r := r, s := s, e := e, integ := integ, z1 := z1, z2 := z2, limPrev := limPrev, y := y, u := satPU u', flags := f }

/-! ### Runs (R80, R81, R85, R87) -/

/-- The measured current m = raw × loop.meas_gain, and whether it saturated. -/
def measured (par : List Int) (raw : Int) : Int × Bool :=
  let x := puMulX raw (parAt par 3)
  (satPU x, satHit x)

/-- The value injected into an arm in a cycle, and whether at the output (R90). -/
def Plant.injOf (p : Plant) (a k : Nat) : Int × Bool :=
  let i := p.cvc.inj
  if k = p.k then (if bitOf i.arms a then i.value else 0, i.point == 1)
  else (if bitOf i.armsPrev a then i.valuePrev else 0, i.pointPrev == 1)

/-- The inputs of a run for a cycle, when every enabled one is ready (R79, R80), and whether the alternate is used. -/
def Plant.loopInputs (p : Plant) (a k : Nat) (late : Bool) : Option (LoopIn × Bool) :=
  let par := p.loopParsAt a k
  let operand := fun (on : Bool) (j : Nat) (other : Int) =>
    if on then (p.sinkOperand a j k).map (signed 32) else some other
  match p.armMeasure par k late, operand (parAt par 4 == 0) 0 (parAt par 5), operand (parAt par 0x0F == 1) 1 0,
    operand (parAt par 0x13 == 1) 2 0 with
  | some x, some t, some ff, some up =>
    let m := measured par x.1
    let inj := p.injOf a k
    some ({
      t := t, m := m.1, mSat := m.2, ff := ff, upost := up, injSp := if inj.2 then 0 else inj.1,
      injOut := if inj.2 then inj.1 else 0 }, x.2)
  | _, _, _, _ => none

/-- The reset state (R87): integ at loop.i_init, no biquad state, no history; r follows a usable m. -/
def Plant.loopReset (p : Plant) (a : Nat) : Plant :=
  let par := (p.loop a).par
  let m := match p.armMeasure par p.k true with | some x => (measured par x.1).1 | none => (p.loop a).r
  let p := p.onLoop a (fun l => { l with
    running := false, fromK := 0, r := m, sPrev := m, integ := parAt par 0x0C, z1 := [], z2 := [], limPrev := 0,
    waiting := false })
  p.cPut (K.loopLimRun + a) 0

/-- Flags whose first appearance in the live flags raises source 26: ERR_SAT, P_SAT, BQj_SAT, FF_SAT, POST_SAT (R96). -/
def src26 : Nat := 0x600 + 0x78 + 4 + 1

/-- Shows the live flags and raises sources 25 and 26 (R96, R98, R100). -/
def Plant.loopFlags (p : Plant) (a f : Nat) : Plant :=
  let old := p.c (K.loopFlagsLive + a)
  let p := (p.cPut (K.loopFlagsLive + a) (f : Nat)).cPut (K.loopFlags + a) (p.c (K.loopFlags + a) ||| f : Nat)
  if f &&& src26 ≠ f &&& src26 &&& old then p.raiseArms 26 (2 ^ a) else p

/-- A run's effects (R82, R98). -/
def Plant.loopRun (p : Plant) (a k : Nat) (i : LoopIn) (alt : Bool) : Plant :=
  let l := p.loop a
  let par := p.loopParsAt a k
  let l := if l.running then l else
    { l with r := i.m, sPrev := i.m, integ := parAt par 0x0C, z1 := [], z2 := [], limPrev := 0 }
  let o := loopStep par l i
  let p := p.onLoop a (fun _ => { l with
    running := true, lastK := k + 1, r := o.r, sPrev := o.s, integ := o.integ, z1 := o.z1, z2 := o.z2,
    limPrev := o.limPrev, m := i.m, waiting := true, uNext := o.u, injAbort := false,
    run := { k1 := k + 1, inj := i.injSp + i.injOut, s := o.s, m := i.m, e := o.e, integ := o.integ, y := o.y, u := o.u },
    runPrev := l.run })
  let p := ((((p.cPut (K.loopS + a) o.s).cPut (K.loopMeas + a) i.m).cPut (K.loopErr + a) o.e).cPut
    (K.loopInteg + a) o.integ).cPut (K.loopY + a) o.y
  let p := p.cPut (K.loopLaunch + a) (clampI 0 4294967295 (p.nowPs - p.sOf k * 1000))
  let p := if alt then p.bump .cvc (K.loopAltUsed + a) 1 else p
  let p := p.loopFlags a (o.flags ||| flagBit l.injAbort 14)
  let run := if o.limPrev = 0 then 0 else min (p.c (K.loopLimRun + a) + 1) 65535
  let p := p.cPut (K.loopLimRun + a) (run : Nat)
  if parAt par 0x15 ≤ run ∧ run ≠ 0 then p.raiseArms 25 (2 ^ a) else p

/-- ARM_LOOP_LAUNCH: the engine runs its loop for the cycle once every enabled input is ready (R80, R82). -/
def execArmLoopLaunch (a : Arm) (s : State) : Host.Outcome State Fault Refusal :=
  s.onUp .cvc (fun p =>
    let n := a.val
    let k := p.loopCycle n
    if !p.loopRuns n ∨ k < (p.loop n).lastK then p
    else match p.loopInputs n k false with
      | some i => p.loopRun n k i.1 i.2
      | none => p)

/-- ARM_LOOP_OUTPUT: u reaches the arm context, and LOOP tags become present (R80, 05 R107, R114). -/
def execArmLoopOutput (a : Arm) (s : State) : Host.Outcome State Fault Refusal :=
  s.onUp .cvc (fun p =>
    let n := a.val
    let l := p.loop n
    if !l.waiting then p
    else
      let p := p.onLoop n (fun l => { l with
        waiting := false, u := l.uNext, ctxI := l.m, ctxS := l.sPrev, seq := (l.lastK - 1) % 256 })
      p.hwDeposit 4 n (l.lastK - 1) (unsigned 32 l.uNext))

/-- A run is skipped: no state moves, SKIPPED is set, and the cycle is counted (R81). -/
def Plant.loopSkip (p : Plant) (a k : Nat) : Plant :=
  let f := 0x8000 ||| flagBit (p.loop a).injAbort 14
  let p := p.onLoop a (fun l => { l with lastK := k + 1, skippedK := k + 1, skipNew := true, injAbort := false })
  let p := (p.cPut (K.loopFlagsLive + a) (f : Nat)).cPut (K.loopFlags + a) (p.c (K.loopFlags + a) ||| f : Nat)
  p.bump .cvc (K.loopSkipped + a) 1

/-- LOOP_SKIP: H − 40 ns with an enabled input not ready. A report that has not landed is missing there, so a usable alternate makes the
measurement ready, and the engine launches with it (R79, R80); otherwise the run is skipped, and the arm overruns at H (R81). -/
def execLoopSkip (a : Arm) (s : State) : Host.Outcome State Fault Refusal :=
  s.onUp .cvc (fun p =>
    let n := a.val
    let k := p.loopCycle n
    if !p.loopRuns n ∨ k < (p.loop n).lastK ∨ (p.loopInputs n k false).isSome then p
    else match p.loopInputs n k true with
      | some i => p.loopRun n k i.1 i.2
      | none => p.loopSkip n k)

/-! ### The test-signal injector (R90–R93) -/

/-- The frequency product f × Tc × 2^32 as a fraction over 10^12: f in mHz, Tc in ns. -/
def phaseStep (f tc : Nat) : Nat := (rdiv ((f * tc * 2 ^ 32 : Nat) : Int) 1000000000000).toNat

/-- Whether half-step s − ½ lies at or below x × (g ÷ f)^(j ÷ n), where x = f × tc × 2^32 ÷ 10^12. -/
def logBelow (f g tc j n s : Nat) : Bool :=
  decide ((2 * s - 1) ^ n * 1000000000000 ^ n * f ^ j ≤ (2 * f * tc * 2 ^ 32) ^ n * g ^ j)

/-- The largest s of the remaining bits for which logBelow holds. -/
def logSearch (f g tc j n : Nat) : Nat → Nat → Nat
  | 0, s => s
  | b + 1, s => if logBelow f g tc j n (s + 2 ^ b) then logSearch f g tc j n b (s + 2 ^ b) else logSearch f g tc j n b s

/-- The phase step of sweep step j of N (R91), rounded once. -/
def sweepStep (f g tc j n : Nat) (logarithmic : Bool) : Nat :=
  if logarithmic then logSearch f g tc j (n - 1) 32 0
  else (rdiv (((f * (n - 1) + j * (g - f)) * tc * 2 ^ 32 : Nat) : Int) (1000000000000 * (n - 1))).toNat

/-- π in units of 2^-64. -/
def piFix : Nat := 57952155664616982739

/-- Terms of the sine series at x (in 2^-64), from term t of power 2m + 1. -/
def sineTerms (x2 : Int) : Nat → Nat → Int → Int
  | 0, _, t => t
  | n + 1, m, t => t + sineTerms x2 n (m + 1) (-(t * x2 / 2 ^ 64) / ((2 * m + 2) * (2 * m + 3) : Nat))

/-- sin(2π φ ÷ 2^32) in units of 2^-64, by the quadrant of φ. -/
def sineFix (phi : Nat) : Int :=
  let q := phi / 2 ^ 30 % 4
  let r := phi % 2 ^ 30
  let r := if q % 2 = 0 then r else 2 ^ 30 - r
  let x : Int := ((r * piFix / 2 ^ 31 : Nat) : Int)
  let v := sineTerms (x * x / 2 ^ 64) 16 0 x
  if q < 2 then v else -v

/-- A × sin(2π φ ÷ 2^32) in steps of PU32, with a free value for the error of up to 4 steps that R91 allows (log entry 6). -/
def Plant.sineValue (p : Plant) (a : Int) (phi : Nat) : Int × Plant :=
  let (v, p) := p.free
  (a * sineFix phi / 2 ^ 64 - 3 + (v % 8 : Nat), p)

/-- The taps of a PRBS order (R92). -/
def prbsTaps : Nat → List Nat
  | 7 => [7, 6]
  | 8 => [8, 6, 5, 4]
  | 9 => [9, 5]
  | 10 => [10, 7]
  | 11 => [11, 9]
  | 12 => [12, 6, 4, 1]
  | 13 => [13, 4, 3, 1]
  | 14 => [14, 5, 3, 1]
  | _ => [15, 14]

/-- The next bit and register: stage i is bit i − 1, and the register shifts towards stage n (R92). -/
def prbsNext (n reg : Nat) : Bool × Nat :=
  let x := (prbsTaps n).foldl (fun b t => b != bitOf reg (t - 1)) false
  (x, (reg * 2 + if x then 1 else 0) % 2 ^ n)

/-- The phase step of the present sweep step, or of the sine. -/
def Plant.injPhaseStep (p : Plant) (j : Nat) : Nat :=
  if p.c K.loopInjKind = 1 then
    sweepStep (p.c K.loopInjF0) (p.c K.loopInjF1) p.tc j (p.c K.loopInjSteps) (p.c K.loopInjSpacing == 1)
  else phaseStep (p.c K.loopInjF0) p.tc

/-- Cycles of a sweep step. -/
def Plant.injStepLen (p : Plant) : Nat := p.c K.loopInjSettle + p.c K.loopInjMeasure

/-- Cycles of the run; 0 is until stopped (R93). -/
def Plant.injLength (p : Plant) : Nat :=
  if p.c K.loopInjKind = 1 then p.c K.loopInjSteps * p.injStepLen else p.c K.loopInjLength

/-- The value injected in the present cycle from the injector's state (R91). -/
def Plant.injValue (p : Plant) : Plant :=
  let i := p.cvc.inj
  let a := p.get .cvc K.loopInjAmp
  if p.injLength ≠ 0 ∧ p.injLength ≤ i.cyc ∨ (p.c K.loopInjKind = 1 ∧ p.injStepLen ≤ i.inStep) then
    p.onCvc (fun c => { c with inj := { c.inj with value := 0 } })
  else if p.c K.loopInjKind = 2 then p.onCvc (fun c => { c with inj := { c.inj with value := if i.bit then a else -a } })
  else
    let (v, p) := p.sineValue a i.phase
    p.onCvc (fun c => { c with inj := { c.inj with value := v } })

/-- An injector event for the trigger sequencer (R94): 2 start, 4 end. -/
def Plant.injEvent (p : Plant) (code : Nat) : Plant := if p.c K.loopInjCapture = 1 then p.acqEvent code else p

/-- A step event, with the number of the step that begins (R94). -/
def Plant.injStepEvent (p : Plant) (n : Nat) : Plant := if p.c K.loopInjCapture = 1 then p.acqStepEvent n else p

/-- The injector starts at a boundary: cycle 0 (R91, R92, R94). -/
def Plant.injBegin (p : Plant) : Plant :=
  let n := p.c K.loopInjOrder
  let b := prbsNext n (p.c K.loopInjSeed % 2 ^ n)
  let p := ((p.cPut K.loopInjState 2).cPut K.loopInjCycle (p.k : Nat)).cPut K.loopInjStep 0
  let p := p.onCvc (fun c => { c with inj := {
    phase := 0, step := p.injPhaseStep 0, cyc := 0, inStep := 0, reg := b.2, bit := b.1, held := 1, value := 0,
    valuePrev := p.cvc.inj.valuePrev, arms := p.c K.loopInjArms, armsPrev := p.cvc.inj.armsPrev, point := p.c K.loopInjPoint,
    pointPrev := p.cvc.inj.pointPrev, stopDue := false } })
  let p := p.injEvent 2
  (if p.c K.loopInjKind = 1 then p.injStepEvent 0 else p).injValue

/-- The injector moves on by one cycle. -/
def Plant.injAdvance (p : Plant) : Plant :=
  let n := p.c K.loopInjOrder
  let i := p.cvc.inj
  let next := p.c K.loopInjHold ≤ i.held
  let b := if next then prbsNext n i.reg else (i.bit, i.reg)
  let p := p.onCvc (fun c => { c with inj := { i with
    phase := (i.phase + i.step) % 2 ^ 32, cyc := i.cyc + 1, inStep := i.inStep + 1, bit := b.1, reg := b.2,
    held := if next then 1 else i.held + 1 } })
  p.injValue

/-- The injector ends: inj is 0 from now (R93). -/
def Plant.injOver (p : Plant) (state : Nat) : Plant :=
  (p.cPut K.loopInjState (state : Nat)).onCvc (fun c => { c with inj := { c.inj with value := 0, stopDue := false } })

/-- The arms in the injector's mask. -/
def Plant.injArms (p : Plant) : List Nat := (rangeFrom 0 12).filter (bitOf (p.c K.loopInjArms))

/-- An injection may not go on (R93): the converter has left RUNNING, or a masked arm is blocked. -/
def Plant.injBarred (p : Plant) : Bool :=
  !p.active || p.conv != 5 || p.injArms.any (fun a => bitOf (p.c K.convArmsBlocked) a)

/-- A run is aborted at this boundary (R93): it may not go on, or a masked arm was skipped since the boundary before. -/
def Plant.injAborts (p : Plant) : Bool := p.injBarred || p.injArms.any (fun a => (p.loop a).skipNew)

/-- An abort: inj is 0 from now, the flag is set in every masked arm, in the run that follows too, and source 27 is raised (R93). -/
def Plant.injAbort (p : Plant) : Plant :=
  let p := p.injArms.foldl (fun p a =>
    ((p.cPut (K.loopFlags + a) (p.c (K.loopFlags + a) ||| 0x4000 : Nat)).cPut (K.loopFlagsLive + a)
      (p.c (K.loopFlagsLive + a) ||| 0x4000 : Nat)).onLoop a (fun l => { l with injAbort := true })) p
  (p.injOver 4).raise .cvc 27 0

/-- The values of the cycle that ends are those of the cycle before from now on, and the skips have been seen. -/
def Plant.injShift (p : Plant) : Plant :=
  p.onCvc (fun c => { c with
    inj := { c.inj with valuePrev := c.inj.value, armsPrev := c.inj.arms, pointPrev := c.inj.point },
    loops := c.loops.map (fun e => (e.1, { e.2 with skipNew := false })) })

/-- The injector at a boundary, after everything else of R89. p.k is the cycle that opens. A run in progress that is armed anew
restarts here without an end event (log entry 31). -/
def Plant.injBoundary (p : Plant) : Plant :=
  let aborts := p.injAborts
  let p := p.injShift
  match p.c K.loopInjState with
  | 1 => if p.cvc.inj.stopDue then p.injOver 3 else if p.injBarred then p.injAbort else p.injBegin
  | 2 =>
    if aborts then p.injAbort.injEvent 4
    else if p.cvc.inj.stopDue then (p.injOver 3).injEvent 4
    else p.injAdvance
  | _ => p

/-- INJ_STEP: the present sweep step has run its cycles, and the next begins with phase 0 and a step event (R91, R94). It
follows the boundary that ends the step. -/
def execInjStep (s : State) : Host.Outcome State Fault Refusal :=
  s.onUp .cvc (fun p =>
    let j := p.c K.loopInjStep + 1
    if p.c K.loopInjState = 2 ∧ p.c K.loopInjKind = 1 ∧ p.injStepLen ≤ p.cvc.inj.inStep ∧ j < p.c K.loopInjSteps then
      let p := p.cPut K.loopInjStep (j : Nat)
      let p := p.onCvc (fun c => { c with inj := { c.inj with phase := 0, step := p.injPhaseStep j, inStep := 0 } })
      (p.injStepEvent j).injValue
    else p)

/-- INJ_END: the run has reached its length; inj is 0 and the injector is done (R93, R94). It follows the boundary that ends
the run. -/
def execInjEnd (s : State) : Host.Outcome State Fault Refusal :=
  s.onUp .cvc (fun p =>
    if p.c K.loopInjState = 2 ∧ p.injLength ≠ 0 ∧ p.injLength ≤ p.cvc.inj.cyc then (p.injOver 3).injEvent 4 else p)

/-- The start check of loop.inj_ctrl = 1, as a GDP status (R90). -/
def Plant.injCheck (p : Plant) : Nat :=
  let arms := p.injArms
  let below := fun f => decide (0 < f) && decide (2 * f * p.tc < 1000000000000)
  let kind := p.c K.loopInjKind
  let f0 := p.c K.loopInjF0
  let f1 := p.c K.loopInjF1
  if p.conv ≠ 5 ∨ !arms.all (fun a => p.armUsed a && !bitOf (p.c K.convArmsBlocked) a) then 0x0204
  else if arms.isEmpty ∨ (kind ≠ 2 ∧ !below f0) ∨ (kind = 1 ∧ (!below f1 ∨ f1 ≤ f0)) ∨
      (kind = 2 ∧ p.c K.loopInjSeed % 2 ^ p.c K.loopInjOrder = 0) then 0x0303
  else 0

/-- loop.inj_ctrl accepted: 1 arms, 2 stops (R90, R93). A 1 while the injector runs arms it anew: it injects on to the end of the cycle
and starts again at the boundary (log entry 31). -/
def Plant.injCtrl (p : Plant) (v : Nat) : Plant :=
  if v = 1 then (p.cPut K.loopInjState 1).onCvc (fun c => { c with inj := { c.inj with stopDue := false } })
  else if p.c K.loopInjState = 1 ∨ p.c K.loopInjState = 2 then
    p.onCvc (fun c => { c with inj := { c.inj with stopDue := true } })
  else p

/-! ### The cycle boundary (R80, R87–R89) -/

/-- State handling of an apply that has moved (R88). -/
def Plant.loopApplied (p : Plant) (a : Nat) : Plant :=
  let l := p.loop a
  if l.applyWith = 0 then p
  else
    let init := p.get .cvc (K.loopIInit + a * 256)
    p.onLoop a (fun l => { l with
      applyWith := 0, z1 := if 2 ≤ l.applyWith then [] else l.z1, z2 := if 2 ≤ l.applyWith then [] else l.z2,
      integ := if l.applyWith = 3 then init else l.integ })

/-- An engine that does not run is held in reset state (R87). A STANDBY's engines hold the states of the mirror instead, with which they
would start (14 R389, R392). -/
def Plant.loopHeld (p : Plant) (a : Nat) : Plant :=
  if p.c K.redRole = 2 ∧ p.cvc.mirror.any then p else p.loopReset a

/-- The loop objects in effect at the S that opens, and the states of engines that do not run, those of unused arms among them
(R78, R80, R87, R88). -/
def Plant.loopBoundary (p : Plant) : Plant :=
  (rangeFrom 0 12).foldl (fun p a =>
    let p := p.loopApplied a
    let v := p.loopPars a
    let p := p.onLoop a (fun l => { l with parPrev := l.par, par := v })
    if p.loopRuns a then p.onLoop a (fun l => { l with fromK := if l.fromK = 0 then p.k + 1 else l.fromK })
    else p.loopHeld a) p

/-- At H: engines that do not run follow the measured current (R87). -/
def Plant.loopTrack (p : Plant) : Plant :=
  (rangeFrom 0 12).foldl (fun p a => if p.loopRuns a then p else p.loopHeld a) p

/-- Arms whose run of a cycle was skipped (R81). -/
def Plant.loopSkips (p : Plant) (k : Nat) : Nat :=
  (rangeFrom 0 12).foldl (fun m a => if (p.loop a).skippedK = k + 1 then m + 2 ^ a else m) 0

/-- BITSTREAM_TAG: at S + 100 ns the tags of a control channel take its output at S (05 R114). -/
def execBitstreamTag (ch : Fin 16) (s : State) : Host.Outcome State Fault Refusal :=
  s.onUp .cvc (fun p => p.hwDeposit 5 ch.val p.k (unsigned 32 (Tab.get (fun _ => 0) p.cvc.bsAtS ch.val)))

end Sys2Proof.Machine
end

