-- ==== Sys2Proof/Machine/Memory.lean ====
section
/-! DEFINITION. The memories of 05 R105: engine memories, acquisition memory, and what an unlisted byte reads as. The key of a
byte of a tightly coupled memory is 2^32 × (engine + 1) plus its address; every other byte's is its address. -/

namespace Sys2Proof.Machine

/-- What an unlisted byte of memory reads as (log entry 2). -/
def Memory.dflt : Nat → BitVec 8 := fun _ => 0

/-- The canonical form of the memories. -/
def Memory.wf (m : List Host.Cell) : Bool := Tab.wf Memory.dflt m

/-- A byte. -/
def memByte (m : List Host.Cell) (k : Nat) : Nat := (Tab.get Memory.dflt m k).toNat

/-- Writes a byte. -/
def memSet (m : List Host.Cell) (k v : Nat) : List Host.Cell := Tab.set Memory.dflt m k (BitVec.ofNat 8 v)

/-- n bytes from a key on. -/
def memBytes (m : List Host.Cell) (k n : Nat) : List Nat := (rangeFrom k n).map (memByte m)

/-- Writes bytes from a key on. -/
def memPut (m : List Host.Cell) : Nat → List Nat → List Host.Cell
  | _, [] => m
  | k, b :: t => memPut (memSet m k b) (k + 1) t

/-- A value of n bytes, least significant first (00_scope.md R3). -/
def memRead (m : List Host.Cell) (k n : Nat) : Nat := ofLe (memBytes m k n)

/-- Writes a value of n bytes, least significant first. -/
def memWrite (m : List Host.Cell) (k n v : Nat) : List Host.Cell := memPut m k (leBytes n v)

/-- Clears the bytes whose key is in a range. -/
def memClear (m : List Host.Cell) (k n : Nat) : List Host.Cell := m.filter (fun e => !(decide (k ≤ e.1) && decide (e.1 < k + n)))

/-- The key of a byte of the tightly coupled memories of engine e. -/
def tcmKey (e addr : Nat) : Nat := 2 ^ 32 * (e + 1) + addr

end Sys2Proof.Machine
end

