-- ==== Sys2Proof/Machine/Values.lean ====
section
/-! DEFINITION. Values as hosts and images carry them: encoding, range, and the entries of an image body
(15_dictionary_and_hosts.md R401–R404; 00_scope.md R3, R5; 11 R314; 16 R444). -/

namespace Sys2Proof.Machine

/-- The value that bytes carry, most significant first (15 R401). -/
def decodeVal (ty : ObjType) (bs : List Nat) : Int :=
  if ty.isSigned then signed (8 * ty.size) (ofBe bs) else ofBe bs

/-- A value as bytes, most significant first (15 R401). -/
def encodeVal (ty : ObjType) (v : Int) : List Nat := beBytes ty.size (unsigned (8 * ty.size) v)

/-- A cell identifier that a cell can have (15 R399). -/
def cellIdOk (id : Nat) : Bool := decide (id ≤ 0x2FEF) && decide (id % 64 ≤ 47)

/-- A measurement source (04 R97). -/
def measOk (allowNone : Bool) (v : Nat) : Bool :=
  (allowNone && v == 0xFFFF) || decide (v < 16) || (v / 2 ^ 14 == 1 && cellIdOk (v % 2 ^ 14))

/-- A slot table entry sets no reserved bit and names no reserved reference (09 R248). -/
def slotEntryOk (v : Nat) : Bool := bits v 55 32 == 0 && bits v 59 58 != 3 && bits v 57 56 != 3

/-- A value that an object's meaning permits (R5, R10). -/
def Range.ok (r : Range) (v : Int) : Bool :=
  match r with
  | .rng lo hi => decide (lo ≤ v ∧ v ≤ hi)
  | .mult lo hi step => decide (lo ≤ v ∧ v ≤ hi) && decide ((v - lo) % step = 0)
  | .orVal x lo hi => v == x || decide (lo ≤ v ∧ v ≤ hi)
  | .mask m => decide (0 ≤ v) && decide (v.toNat &&& m = v.toNat)
  | .measSrc n => measOk n v.toNat
  | .slotEntry => slotEntryOk v.toNat

/-- Step 10 of 15 R404: a value of another type or length than the object's (15 R401); 0 when it passes. -/
def typeStatus (r : ObjRow) (ty : Nat) (bs : List Nat) : Nat :=
  if ty ≠ r.ty.code then 0x0301
  else match r.ty with
    | .string => if 240 < bs.length then 0x0301 else if r.maxLen < bs.length then 0x0304 else 0
    | .domain => if r.maxLen < bs.length then 0x0304 else 0
    | t => if bs.length ≠ t.size then 0x0301 else 0

/-- Step 11 of 15 R404: a value outside the object's own range; 0 when it passes. -/
def rangeStatus (r : ObjRow) (bs : List Nat) : Nat :=
  match r.ty with
  | .string => 0
  | .domain => 0
  | .bool => if nth bs 0 ≤ 1 then 0 else 0x0302
  | t => if r.range.ok (decodeVal t bs) then 0 else 0x0302

/-- Steps 10 and 11 of 15 R404 for a value that names a type: 0 when it passes. -/
def valueStatus (r : ObjRow) (ty : Nat) (bs : List Nat) : Nat :=
  let t := typeStatus r ty bs
  if t ≠ 0 then t else rangeStatus r bs

/-- The value of a row is held as bytes. -/
def ObjRow.isBlob (r : ObjRow) : Bool := r.ty == .string || r.ty == .domain

/-- The entries of an image body (11 R314): key and value bytes; none when the body is not made of whole entries. The first
argument bounds their number. -/
def bodyEntries : Nat → List Nat → Option (List (Nat × List Nat))
  | 0, bs => if bs.isEmpty then some [] else none
  | n + 1, bs =>
    match bs with
    | [] => some []
    | i0 :: i1 :: sub :: len :: rest =>
      let pad := (4 - len % 4) % 4
      if rest.length < len + pad then none
      else match bodyEntries n (rest.drop (len + pad)) with
        | some es => some (((i0 + 256 * i1) * 256 + sub, rest.take len) :: es)
        | none => none
    | _ => none

/-- 32 bits stored least significant byte first, at an offset. -/
def le32 (bs : List Nat) (o : Nat) : Nat := ofLe ((bs.drop o).take 4)

/-- Length of a signature trailer (16 R438). -/
def trailerLen : Nat := 132

/-- The key slot that an image's trailer names (16 R438). -/
def keySlot (image : List Nat) : Nat := nth image (image.length - trailerLen)

/-- The body of an image after its 20-byte header (11 R314, 16 R438). -/
def imageBody (image : List Nat) : List Nat := (image.drop 20).take (le32 image 0x0C)

/-- An image is whole: header, body and trailer (11 R314, 16 R438). -/
def imageWhole (image : List Nat) : Bool := image.length == 20 + le32 image 0x0C + trailerLen

/-- The body matches BODY_CRC of the header (16 R439). -/
def imageCrcOk (image : List Nat) : Bool := crc32c (imageBody image) == le32 image 0x10

/-- A key slot is programmed and not revoked (16 R439, boot.keys). -/
def Plant.keyOk (p : Plant) (q : Part) (slot : Nat) : Bool :=
  let k := p.getN q K.bootKeys
  decide (slot < 4) && bitOf k slot && !bitOf k (4 + slot)

end Sys2Proof.Machine
end

