-- ==== Sys2Proof/Machine/Rind.lean ====
section
/-! DEFINITION. The Rind: channels and their faults, measurement, the safely limited functions, trips, DEGRADED and the status
mirror (11_rind_safety.md R292–R312, R320, R321). Channel 0 is SA, channel 1 is SB. -/

namespace Sys2Proof.Machine

/-! ### Channels (R292, R293) -/

/-- A channel. -/
def Plant.chan (p : Plant) (ch : Nat) : Chan := if ch = 0 then p.cvc.rind.a else p.cvc.rind.b

/-- Changes the Rind's record. -/
def Plant.onRind (p : Plant) (f : RindSt → RindSt) : Plant := p.onCvc (fun c => { c with rind := f c.rind })

/-- Changes a channel. -/
def Plant.onChan (p : Plant) (ch : Nat) (f : Chan → Chan) : Plant :=
  p.onRind (fun r => if ch = 0 then { r with a := f r.a } else { r with b := f r.b })

/-- A channel's state: 0 OFF, 1 STARTING, 2 HEALTHY, 3 FAULTED. -/
def Plant.chState (p : Plant) (ch : Nat) : Nat := p.c (K.rindSaState + ch)

/-- A channel evaluates: HEALTHY or FAULTED. -/
def Plant.chRuns (p : Plant) (ch : Nat) : Bool := decide (2 ≤ p.chState ch)

/-- A trip decision of a channel (R306). When the other channel decided within 100 ns, the two are one trip with CH 3 and SA's
CODE (R309): the cause is joined, in the trip frames that still wait as well. -/
def Plant.rindTrip (p : Plant) (ch code : Nat) : Plant :=
  let old := p.c K.rindTripCause
  let near := p.conv == 7 && old / 64 == 2 - ch && decide (p.tick ≤ p.cvc.rind.tripAt + 40) && (p.chan (1 - ch)).trip
  if near then
    let joined := 3 * 64 + (if ch = 0 then code else old % 64)
    let p := p.trip 3 (joined % 64) 96
    p.onNode .cvc (fun n => { n with lanes := n.lanes.map (fun e => (e.1, { e.2 with
      txq := e.2.txq.map (fun f =>
        if f.ty = 3 ∧ bits f.hdr.toNat 19 12 = old then mkFrame (setField f.hdr.toNat 19 12 joined) [] else f) })) })
  else p.trip (ch + 1) code 96
where
  /-- Changes the bits [hi:lo] of a header. -/
  setField (x hi lo v : Nat) : Nat := x - bits x hi lo * 2 ^ lo + (v % 2 ^ (hi + 1 - lo)) * 2 ^ lo

/-- Sets a fault bit of a channel. A HEALTHY channel becomes FAULTED, which is event 10 of R43; with the other channel FAULTED
as well it is a trip with CODE 0x08 and source 106 (R293, R309, R310). A STARTING channel stays in STARTING (R317) with its bits, and an
OFF one, which has no conditions of its own, shows the heartbeat that the other channel misses (log entry 48). -/
def Plant.chFault (p : Plant) (ch bit : Nat) : Plant :=
  let st := p.chState ch
  if st = 0 ∧ bit ≠ 2 then p
  else
    let p := p.cPut (K.rindSaFault + ch) ((p.c (K.rindSaFault + ch)) ||| 2 ^ bit : Nat)
    let p := p.onChan ch (fun c => { c with clearDue := false })
    if st = 2 then
      let p := (p.cPut (K.rindSaState + ch) 3).raise .cvc (97 + ch) 0
      if p.chState (1 - ch) = 3 then (p.trip 3 8 96).raise .cvc 106 0
      else p.convEvent 10 (97 + ch)
    else p

/-- A channel enters HEALTHY; with a condition of R293 noted while it was STARTING it is FAULTED at once. -/
def Plant.chHealthy (p : Plant) (ch : Nat) : Plant :=
  let p := p.cPut (K.rindSaState + ch) 2
  let bad := p.c (K.rindSaFault + ch)
  match (rangeFrom 0 8).find? (fun b => bitOf bad b) with
  | some b => p.chFault ch b
  | none => p

/-- Fault bits 5 and 7 are suspended in OFF and STARTING (16 R435). -/
def Plant.chFaultRun (p : Plant) (ch bit : Nat) : Plant := if 2 ≤ p.conv then p.chFault ch bit else p

/-- CROSSLINK_TRIP: a channel receives the other's decision and drives its own output to trip level (R306). -/
def execCrosslinkTrip (ch : Fin 2) (s : State) : Host.Outcome State Fault Refusal :=
  s.onUp .cvc (fun p =>
    if (p.chan (1 - ch.val)).trip then (p.onChan ch.val (fun c => { c with trip := true })).showOut else p)

/-- HEARTBEAT_LOSS: a channel has had no heartbeat of the other for 3 consecutive cycles: a trip with its own CH and CODE 0x09,
and fault bit 2 of the other (R293). -/
def execHeartbeatLoss (ch : Fin 2) (s : State) : Host.Outcome State Fault Refusal :=
  s.onUp .cvc (fun p =>
    if !p.chRuns ch.val then p else (p.rindTrip ch.val 9).chFault (1 - ch.val) 2)

/-- CLOCK_COMPARE: every 1 ms the channels compare their clocks, and each checks the interval of S by its own (R293): more than
1 % apart, bit 0 of both; an interval off by more than 0.1 %, bit 7 of the channel whose bit of `sOff` is set. -/
def execClockCompare (offBy : Bool) (sOff : BitVec 2) (s : State) : Host.Outcome State Fault Refusal :=
  s.onUp .cvc (fun p =>
    let p := if offBy then (p.chFault 0 0).chFault 1 0 else p
    let p := if sOff.getLsbD 0 then p.chFaultRun 0 7 else p
    if sOff.getLsbD 1 then p.chFaultRun 1 7 else p)

/-- READBACK_MISMATCH: a readback has differed from its output for 1 us: fault bit 6 and source 103 (R293, R307). -/
def execReadbackMismatch (ch : Fin 2) (s : State) : Host.Outcome State Fault Refusal :=
  s.onUp .cvc (fun p =>
    if p.chState ch.val = 0 then p
    else ((p.onChan ch.val (fun c => { c with rbBad := true })).showOut.raise .cvc 103 0).chFault ch.val 6)

/-- The conditions of a channel's fault bits that the model itself sees: its supply, rails 5 and 6 (17 R461). -/
def Plant.chClear (p : Plant) (ch : Nat) : Bool := !bitOf (p.getN .cvc K.pwrRails) (5 + ch)

/-- FAULT_CLEAR_TIMEOUT: a channel's fault condition has been absent for 1 s in STOPPED or TRIPPED; it returns to HEALTHY at the
next boundary (R293). -/
def execFaultClearTimeout (ch : Fin 2) (s : State) : Host.Outcome State Fault Refusal :=
  s.onUp .cvc (fun p =>
    if p.chState ch.val = 3 ∧ (p.conv = 2 ∨ p.conv = 7) ∧ p.chClear ch.val then
      p.onChan ch.val (fun c => { c with clearDue := true })
    else p)

/-- TRIP_HOLD_EXPIRE: rind.trip_hold has passed without a breach; a channel that is not FAULTED releases its output, after CODE
0x08 or 0x09 only with both channels HEALTHY (R308). -/
def execTripHoldExpire (ch : Fin 2) (s : State) : Host.Outcome State Fault Refusal :=
  s.onUp .cvc (fun p =>
    let code := p.c K.rindTripCause % 64
    let both := p.chState 0 == 2 && p.chState 1 == 2
    if p.conv = 7 ∧ p.chState ch.val = 2 ∧ !(p.chan ch.val).breach ∧ ((code ≠ 8 ∧ code ≠ 9) ∨ both) then
      (p.onChan ch.val (fun c => { c with trip := false })).showOut
    else p)

/-- Both trip outputs are released (R308). -/
def Plant.tripsReleased (p : Plant) : Bool := !p.cvc.rind.a.trip && !p.cvc.rind.b.trip

/-- PARAMETER_STORE_SCAN: a periodic scan ends with a CRC; another than the accepted image's sets fault bit 3 (R293, R317). -/
def execParameterStoreScan (ch : Fin 2) (crc : BitVec 32) (s : State) : Host.Outcome State Fault Refusal :=
  s.onUp .cvc (fun p =>
    if p.chRuns ch.val ∧ crc.toNat ≠ p.c K.rindImageCrc then p.chFault ch.val 3 else p)

/-! ### Measurement (R294–R297) -/

/-- The role of input n of a channel (R295). -/
def Plant.inRole (p : Plant) (ch n : Nat) : Nat := p.c (K.rindInRole + ch * 256 + n)

/-- MODULATOR_CLOCK_LOST: the clock of a safety input with a role is lost: fault bit 4 (R293). -/
def execModulatorClockLost (input : Fin 16) (s : State) : Host.Outcome State Fault Refusal :=
  s.onUp .cvc (fun p =>
    let ch := input.val / 8
    if p.inRole ch (input.val % 8) ≠ 0 then p.chFault ch 4 else p)

/-- The latest outputs of a channel's input with a role, latest first. -/
def Plant.inputOf (p : Plant) (ch role : Nat) : List Int :=
  match (rangeFrom 0 8).find? (fun n => p.inRole ch n == role) with
  | some n => Tab.get (fun _ => []) (p.chan ch).inputs n
  | none => []

/-- The latest output of a channel's input with a role. -/
def Plant.inputNow (p : Plant) (ch role : Nat) : Option Int := (p.inputOf ch role).head?

/-- A side's Rind object. -/
def Plant.rs (p : Plant) (key side : Nat) : Int := p.get .cvc (key + side * 256)

/-- The sides in use (R316). -/
def Plant.sides (p : Plant) : List Nat := if p.twoSides then [0, 1] else [0]

/-- SLDR of R300 on the outputs of a DC current input: the rise over s outputs against the limit in pu per ms, T_out in 2.5 ns:
|Δy| ÷ (s × T_out) > limit. -/
def sldrBreach (ys : List Int) (span dec div : Nat) (limit : Int) : Bool :=
  match ys.head?, ys[span]? with
  | some y, some x => decide (limit * (span * dec * div * 5 : Nat) < 2000000 * ((y - x).natAbs : Int))
  | _, _ => false

/-- SAFETY_FILTER_OUTPUT: a safety input's filter gives an output, at ±1.0 = ±2^24 before its gain. An input with a role at full
scale or at one level for 256 clocks sets fault bit 4; SLDR is evaluated on a DC current (R293–R295, R300, R302). -/
def execSafetyFilterOutput (input : Fin 16) (code : BitVec 32) (bad : Bool) (s : State) : Host.Outcome State Fault Refusal :=
  s.onUp .cvc (fun p =>
    let ch := input.val / 8
    let n := input.val % 8
    let role := p.inRole ch n
    if role = 0 ∨ p.chState ch = 0 then p
    else
      let y := puMul code.toInt (p.get .cvc (K.rindInGain + ch * 256 + n))
      let p := p.onChan ch (fun c => { c with
        inputs := Tab.upd (fun _ => []) c.inputs n (fun l => (y :: l).take 17) })
      let p := if bad ∨ code.toInt = puOne ∨ code.toInt = -puOne then p.chFault ch 4 else p
      if (role = 1 ∨ role = 2) ∧ p.chRuns ch ∧ 2 ≤ p.conv then
        let side := role - 1
        if sldrBreach (Tab.get (fun _ => []) (p.chan ch).inputs n) (p.rs K.rindSldrSpan side).toNat
            (p.c (K.rindDec + ch * 256)) (p.c (K.rindMclkDiv + ch * 256)) (p.rs K.rindSldrTrip side) then
          (p.onChan ch (fun c => { c with breach := true })).rindTrip ch 3
        else p
      else p)

/-- The two reporters of an arm in a channel (R327). -/
def Plant.reporterIds (p : Plant) (ch a : Nat) : List Nat :=
  let w := p.c (K.rindReporters + a)
  ((if ch = 0 then [bits w 63 48, bits w 47 32] else [bits w 31 16, bits w 15 0])).filter (· != 0xFFFF)

/-- Some cell identifier reports to the Rind (R296). -/
def Plant.isReporter (p : Plant) (id : Nat) : Bool :=
  (rangeFrom 0 12).any (fun a => (p.reporterIds 0 a).contains id || (p.reporterIds 1 a).contains id)

/-- The reporters' currents of cycle k in pu (R297): full scale of the I field is 2^15 codes. -/
def Plant.reporterCurrents (p : Plant) (ch a k : Nat) : List Int :=
  (p.reporterIds ch a).filterMap (fun id =>
    let r := Tab.get (fun _ => (0, 0)) p.cvc.rind.reps id
    if r.1 = k + 1 then some (puMul (r.2 * 512) (p.rs K.rindRepGain (sideOf a))) else none)

/-- The arm current of a channel in cycle k, and whether its reporters differ (R297). -/
def Plant.armCurrent (p : Plant) (ch a k : Nat) : Option Int × Bool :=
  if (rangeFrom 0 8).any (fun n => p.inRole ch n == 0x10 + a) then (p.inputNow ch (0x10 + a), false)
  else match p.reporterCurrents ch a k with
    | x :: y :: _ => (some (if x.natAbs < y.natAbs then y else x), decide (p.get .cvc K.rindXcTolI < ((x - y).natAbs : Int)))
    | [x] => (some x, false)
    | [] => (none, false)

/-- v of a cell in pu of the side's Rind cell voltage base (R296): 0 for a FIRED cell; base in mV. -/
def Plant.rindCellV (p : Plant) (id base : Nat) : Int :=
  if Tab.get (fun _ => 0) p.cvc.rind.cellSt id % 16 = 5 then 0
  else satPU (rdiv ((Tab.get (fun _ => 0) p.cvc.rind.cellV id * 16777216 : Nat) : Int) (100 * base))

/-- The energy w of an arm (R300): Σ v² ÷ rind.slew_n; a free value where the base or the rated number is not set, which no
accepted image leaves for a side in use (log entry 6). -/
def Plant.armEnergy (p : Plant) (a : Nat) : Int × Plant :=
  let side := sideOf a
  let n := (p.rs K.rindSlewN side).toNat
  let base := (p.rs K.rindBaseVcell side).toNat
  if n = 0 ∨ base = 0 then
    let (v, p) := p.free
    (signed 32 v, p)
  else
    let sq := (p.cellsOfArm a).map (fun id => let v := p.rindCellV id base; v * v)
    (satPU (rdiv (sumI sq) (16777216 * n)), p)

/-! ### DEGRADED (R303, R304, R310) -/

/-- The degraded factor in force. -/
def Plant.degFactor (p : Plant) : Int := puOne - p.cvc.rind.below

/-- rind.degraded_left in ms (R310). -/
def Plant.degradedLeft (p : Plant) : Nat := if p.conv = 6 then (p.cvc.rind.degEnd - p.tick + 399999) / 400000 else 0

/-- The steps of the ramp: ⌈rind.degrade_ramp ÷ Tc⌉. -/
def Plant.degSteps (p : Plant) : Nat := (p.c K.rindDegradeRamp * 1000000 + p.tc - 1) / max 1 p.tc

/-- What the factor lies below 1.0 after j of n equal steps, the factor rounded (R310). -/
def belowAt (frac : Int) (n j : Nat) : Int :=
  if n ≤ j then puOne - frac else puOne - rdiv (puOne * n - j * (puOne - frac)) n

/-- The degraded factor at a boundary (R310): `before` is the state before its transition. -/
def Plant.degBoundary (p : Plant) (before : Nat) : Plant :=
  let now := p.conv
  if before = 6 ∧ now = 6 then
    let j := p.cvc.rind.degJ + 1
    p.onRind (fun r => { r with degJ := j, below := belowAt (p.get .cvc K.rindDegradedFrac) p.degSteps j })
  else if before ≠ 6 ∧ now = 6 then p.onRind (fun r => { r with degJ := 0, below := 0 })
  else if before ≠ 6 then p.onRind (fun r => { r with degJ := 0, below := 0 })
  else p

/-- The DEGRADED timer starts (R310). -/
def Plant.degEnter (p : Plant) : Plant :=
  p.onRind (fun r => { r with degEnd := p.tick + ticksMs (p.c K.rindDegradedTime) })

/-- The power limit in force of a side (R304). -/
def Plant.pLimit (p : Plant) (side : Nat) : Int := puMul (p.rs K.rindPMax side) p.degFactor

/-- A limit of R303 for an arm: × the degraded factor, converted to the side's arm current base; a free value while that base
is 0, which it can be in STOPPED only (02 R48; log entry 6). -/
def Plant.loopLimit (p : Plant) (key side : Nat) : Int × Plant :=
  let base := p.get .cvc (K.baseIArmA + side)
  if base = 0 then
    let (v, p) := p.free
    (v % 2 ^ 31, p)
  else (satPU (rquot (puMul (p.rs key side) p.degFactor * p.rs K.rindBaseI side) base), p)

/-- The limits given to the Arm Loop Engine of every arm at a boundary, when a channel gives values (R303). Both stores hold the same
values, so the smaller of the two is either. -/
def Plant.rindLimits (p : Plant) : Plant :=
  if !p.chRuns 0 && !p.chRuns 1 then p
  else (rangeFrom 0 12).foldl (fun p a =>
    let (i, p) := p.loopLimit K.rindSlacILim (sideOf a)
    let (d, p) := p.loopLimit K.rindSlacDiLim (sideOf a)
    (p.cPut (K.loopIRind + a) i).cPut (K.loopDiRind + a) d) p

/-- DEGRADED_TIMEOUT: the timer expires: event 11, and source 101 (R310). -/
def execDegradedTimeout (s : State) : Host.Outcome State Fault Refusal :=
  s.onUp .cvc (fun p => if p.conv = 6 then (p.convEvent 11 101).raise .cvc 101 0 else p)

/-! ### Evaluation (R298–R302) -/

/-- The functions that a converter state evaluates (R302): SLAC; SLEW high; SLEW low and SLPD. -/
def slacOn (st : Nat) : Bool := decide (2 ≤ st)
/-- SLEW high. -/
def slewHighOn (st : Nat) : Bool := decide (3 ≤ st)
/-- SLEW low and SLPD. -/
def slewLowOn (st : Nat) : Bool := st == 5 || st == 6

/-- A consecutive count. -/
def countOf (b : Bool) (n : Nat) : Nat := if b then min (n + 1) 65535 else 0

/-- The first code of a list of breaches, in the order of R300. -/
def firstCode (l : List (Bool × Nat)) : Option Nat := (l.find? (·.1)).map (·.2)

/-- Arm currents, missing arms and energies of a channel (R297, R300). -/
def Plant.measureArm (p : Plant) (ch k a : Nat) : Plant :=
  let (i, differ) := p.armCurrent ch a k
  let p := if differ then p.raiseArms 100 (2 ^ a) else p
  let (w, p) := p.armEnergy a
  let run := if i.isNone then Tab.get (fun _ => 0) (p.chan ch).miss a + 1 else 0
  let p := p.onChan ch (fun c => { c with
    iPrev := Tab.set (fun _ => none) c.iPrev a (Tab.get (fun _ => none) c.iArm a),
    iArm := Tab.set (fun _ => none) c.iArm a i, wArm := Tab.set (fun _ => none) c.wArm a (some w),
    miss := Tab.set (fun _ => 0) c.miss a (min run 65535) })
  if 0 < run ∧ p.c K.rindRepMiss ≤ run then
    (p.cPut K.rindRepMissing (p.c K.rindRepMissing ||| 2 ^ a : Nat)).chFaultRun ch 5
  else if run = 0 ∧ Tab.get (fun _ => 0) (p.chan (1 - ch)).miss a = 0 then
    p.cPut K.rindRepMissing (setBit (p.c K.rindRepMissing) a false : Nat)
  else p

/-- The breaches of one arm in a channel (R300), with the consecutive counts moved on. -/
def Plant.armBreach (p : Plant) (ch a : Nat) : List (Bool × Nat) × Plant :=
  let c := p.chan ch
  let side := sideOf a
  let st := p.conv
  let i := Tab.get (fun _ => none) c.iArm a
  let was := Tab.get (fun _ => none) c.iPrev a
  let w := (Tab.get (fun _ => none) c.wArm a).getD 0
  let hi := countOf (slewHighOn st && decide (p.rs K.rindSlewHi side < w)) (Tab.get (fun _ => 0) c.hi a)
  let lo := countOf (slewLowOn st && decide (w < p.rs K.rindSlewLo side)) (Tab.get (fun _ => 0) c.lo a)
  let need := (p.rs K.rindSlewCycles side).toNat
  let peak := match i with | some x => slacOn st && decide (p.rs K.rindSlacITrip side < (x.natAbs : Int)) | none => false
  let rate := match i, was with
    | some x, some y => slacOn st && decide (p.rs K.rindSlacDiTrip side < ((x - y).natAbs : Int))
    | _, _ => false
  ([(peak, 1), (rate, 2), (hi != 0 && decide (need ≤ hi), 4), (lo != 0 && decide (need ≤ lo), 5)],
    p.onChan ch (fun c => { c with hi := Tab.set (fun _ => 0) c.hi a hi, lo := Tab.set (fun _ => 0) c.lo a lo }))

/-- The power of a side in a channel (R300). -/
def Plant.sidePower (p : Plant) (ch side : Nat) : Option Int :=
  match p.inputNow ch (3 + side), p.inputNow ch (1 + side) with
  | some v, some i => some (puMul v i)
  | _, _ => none

/-- The direction that R301 forbids a side. -/
def Plant.dirForbidden (p : Plant) (side : Nat) (x : Int) : Bool :=
  let dead := p.rs K.rindPDead side
  let low := decide (x < -dead)
  let high := decide (dead < x)
  let dir := (p.rs K.rindSlpdDir side).toNat
  let tr := if p.twoSides then p.c K.rindSlpdTransfer else 0
  (dir == 1 && low) || (dir == 2 && high) ||
    (tr == 1 && (if side = 0 then low else high)) || (tr == 2 && (if side = 0 then high else low))

/-- The breaches of one side in a channel (R300, R301). -/
def Plant.sideBreach (p : Plant) (ch side : Nat) : List (Bool × Nat) × Plant :=
  let c := p.chan ch
  let on := slewLowOn p.conv
  let x := p.sidePower ch side
  let dir := countOf (on && (match x with | some x => p.dirForbidden side x | none => false))
    (Tab.get (fun _ => 0) c.dirRun side)
  let pow := countOf (on && (match x with | some x => decide (p.pLimit side < (x.natAbs : Int)) | none => false))
    (Tab.get (fun _ => 0) c.powRun side)
  let need := (p.rs K.rindSlpdCycles side).toNat
  ([(dir != 0 && decide (need ≤ dir), 6), (pow != 0 && decide (need ≤ pow), 7)],
    p.onChan ch (fun c => { c with
      dirRun := Tab.set (fun _ => 0) c.dirRun side dir, powRun := Tab.set (fun _ => 0) c.powRun side pow }))

/-- One channel's evaluation: the CODE of a breach, if there is one (R300–R302). -/
def Plant.evalChan (p : Plant) (ch k : Nat) : Option Nat × Plant :=
  if !p.chRuns ch ∨ !slacOn p.conv then
    (none, p.onChan ch (fun c => { c with iArm := [], iPrev := [], wArm := [], hi := [], lo := [], dirRun := [], powRun := [] }))
  else
    let p := p.armsUsed.foldl (fun p a => p.measureArm ch k a) p
    let (l, p) := p.armsUsed.foldl (fun (acc : List (Bool × Nat) × Plant) a =>
      let (b, p) := acc.2.armBreach ch a
      (acc.1 ++ b, p)) ([], p)
    let (l, p) := p.sides.foldl (fun (acc : List (Bool × Nat) × Plant) side =>
      let (b, p) := acc.2.sideBreach ch side
      (acc.1 ++ b, p)) (l, p)
    let code := [1, 2, 4, 5, 6, 7].find? (fun n => l.any (fun e => e.1 && e.2 == n))
    (code, p.onChan ch (fun c => { c with breach := code.isSome }))

/-- Two values differ by more than a tolerance, or only one channel has it (R299). -/
def apart (x y : Option Int) (tol : Int) : Bool :=
  match x, y with
  | some x, some y => decide (tol < ((x - y).natAbs : Int))
  | none, none => false
  | _, _ => true

/-- Some value of the two channels differs beyond tolerance (R299). -/
def Plant.crossDiffers (p : Plant) : Bool :=
  let ti := p.get .cvc K.rindXcTolI
  let tv := p.get .cvc K.rindXcTolV
  let tw := p.get .cvc K.rindXcTolW
  p.armsUsed.any (fun a =>
    apart (Tab.get (fun _ => none) p.cvc.rind.a.iArm a) (Tab.get (fun _ => none) p.cvc.rind.b.iArm a) ti ||
    apart (Tab.get (fun _ => none) p.cvc.rind.a.wArm a) (Tab.get (fun _ => none) p.cvc.rind.b.wArm a) tw) ||
  p.sides.any (fun s =>
    apart (p.inputNow 0 (1 + s)) (p.inputNow 1 (1 + s)) ti || apart (p.inputNow 0 (3 + s)) (p.inputNow 1 (3 + s)) tv ||
    apart (p.sidePower 0 s) (p.sidePower 1 s) tw)

/-- Cross-comparison (R299): a disagreement after rind.xc_window cycles of difference, over after as many of agreement. -/
def Plant.crossCompare (p : Plant) : Plant :=
  if !(p.chRuns 0 && p.chRuns 1) ∨ !slacOn p.conv then p
  else
    let d := p.crossDiffers
    let win := p.c K.rindXcWindow
    let run := countOf d p.cvc.rind.xcRun
    let ok := countOf (!d) p.cvc.rind.agreeRun
    let was := p.cvc.rind.disagree
    let p := p.onRind (fun r => { r with
      xcRun := run, agreeRun := ok, disagree := if was then decide (ok < win) else decide (win ≤ run) })
    if !was ∧ win ≤ run then ((p.bump .cvc K.rindXcFails 1).raise .cvc 99 0).convEvent 10 99 else p

/-- Writes a word of the status mirror. -/
def Plant.mirrorPut (p : Plant) (o v : Nat) : Plant := p.onRind (fun r => { r with mirror := Tab.set (fun _ => 0) r.mirror o v })

/-- Writes a word of the status mirror where there is a value to show; else the word stays (R321). -/
def Plant.mirrorOpt (p : Plant) (o : Nat) (v : Option Int) : Plant :=
  match v with
  | some v => p.mirrorPut o (unsigned 32 v)
  | none => p

/-- A channel's part of the status mirror (R321). -/
def Plant.mirrorChan (p : Plant) (ch : Nat) : Plant :=
  let b := 0x100 * ch
  let p := p.armsUsed.foldl (fun p a =>
    (p.mirrorOpt (0x100 + b + 4 * a) (Tab.get (fun _ => none) (p.chan ch).iArm a)).mirrorOpt (0x130 + b + 4 * a)
      (Tab.get (fun _ => none) (p.chan ch).wArm a)) p
  p.sides.foldl (fun p s =>
    ((p.mirrorOpt (0x160 + b + 4 * s) (p.inputNow ch (1 + s))).mirrorOpt (0x168 + b + 4 * s) (p.inputNow ch (3 + s))).mirrorOpt
      (0x170 + b + 4 * s) (p.sidePower ch s)) p

/-- The status mirror is refreshed at E_k (R321). -/
def Plant.mirrorRefresh (p : Plant) : Plant :=
  let p := p.mirrorPut 0 (p.c K.rindTripCause * 256 + (if p.conv = 6 then 128 else 0) + (if p.cvc.rind.disagree then 64 else 0) +
    p.chState 1 * 4 + p.chState 0)
  let p := (p.mirrorPut 4 p.degradedLeft).mirrorPut 8 p.kSeq
  let p := (rangeFrom 0 2).foldl (fun p s =>
    (p.mirrorPut (0x10 + 8 * s) (unsigned 32 (p.pLimit s))).mirrorPut (0x14 + 8 * s)
      (p.c K.rindSlpdTransfer * 4 + (p.rs K.rindSlpdDir s).toNat)) p
  let p := (rangeFrom 0 12).foldl (fun p a =>
    (p.mirrorPut (0x40 + 8 * a) (unsigned 32 (p.get .cvc (K.loopIRind + a)))).mirrorPut (0x44 + 8 * a)
      (unsigned 32 (p.get .cvc (K.loopDiRind + a)))) p
  (p.mirrorChan 0).mirrorChan 1

/-- RIND_EVALUATION: at E_k each channel evaluates its functions and the two compare their values; breaches of both are one trip
with CH 3 and SA's CODE (R298–R302, R309). -/
def execRindEvaluation (s : State) : Host.Outcome State Fault Refusal :=
  s.onUp .cvc (fun p =>
    let (ca, p) := p.evalChan 0 p.k
    let (cb, p) := p.evalChan 1 p.k
    let p := p.crossCompare
    let p := match ca, cb with
      | some c, some _ => p.trip 3 c 96
      | some c, none => p.rindTrip 0 c
      | none, some c => p.rindTrip 1 c
      | none, none => p
    p.mirrorRefresh)

/-! ### Check units (R319, R320) -/

/-- The memory key of an address that a CVC's check unit scans: instruction memory of engine e from e × 64 KiB (R319). -/
def scanKey (a : Nat) : Nat := if a < 0x100000 then tcmKey (a / 0x10000) (a % 0x10000) else a

/-- The final value of a scan: computed over the engine memories that the model holds as bytes; over the parameter stores and a
cell's memories it is the value the command brings (log entry 7). -/
def scanValue (m : List Host.Cell) (cvc : Bool) (ctrl start len given : Nat) : Nat :=
  if cvc && decide (start < 0x10800000) then
    let bs := memBytes m (scanKey start) len
    if bitOf ctrl 1 then crc32 bs else crc32c bs
  else given

/-- A check unit's completed scan (R319): source 104, or local source 51 in a cell, on a mismatch. -/
def Plant.scanDone (p : Plant) (q : Part) (u v : Nat) : Plant :=
  let key := fun (sub : Nat) => (0x5A00 + u) * 256 + sub
  let p := (p.put q (key 5) v).put q (key 6) (((p.getN q (key 6) + 1) % 2 ^ 32 : Nat) : Int)
  if v ≠ p.getN q (key 4) then (p.bump q (key 7) 1).raise q (if q.kind = 0 then 104 else 51) (if q.kind = 0 then u else 0) else p

/-- The part has the check unit, and it is enabled (R330). -/
def Plant.unitOn (p : Plant) (q : Part) (u : Nat) : Bool :=
  (q.kind == 0 || (q.kind == 2 && u == 0)) && bitOf (p.getN q ((0x5A00 + u) * 256 + 1)) 0

/-- An enabled unit scans: again and again in continuous mode, else once after its set-up is written (R319; log entry 86). -/
def Plant.unitScans (p : Plant) (q : Part) (u : Nat) : Bool :=
  p.unitOn q u && (bitOf (p.getN q ((0x5A00 + u) * 256 + 1)) 2 || !(p.node q).ckDone.contains u)

/-- A write of a check unit's set-up: the unit starts (R319). -/
def Plant.unitSet (p : Plant) (q : Part) (u : Nat) : Plant :=
  p.onNode q (fun n => { n with ckDone := n.ckDone.filter (· != u) })

/-- CHECK_SCAN_DONE: an enabled check unit completes a scan (R319). -/
def execCheckScanDone (q : Part) (u : Fin 4) (result : BitVec 32) (s : State) : Host.Outcome State Fault Refusal :=
  s.onUp q (fun p =>
    if !p.unitScans q u.val then p
    else
      let key := fun (sub : Nat) => p.getN q ((0x5A00 + u.val) * 256 + sub)
      (p.onNode q (fun n => { n with ckDone := u.val :: n.ckDone.filter (· != u.val) })).scanDone q u.val
        (scanValue s.mem (q.kind == 0) (key 1) (key 2) (key 3) result.toNat))

/-- CHECK_STALL: ck.alive has not advanced within ck.alive_max: source 105, or local source 52 (R320). -/
def execCheckStall (q : Part) (u : Fin 4) (s : State) : Host.Outcome State Fault Refusal :=
  s.onUp q (fun p =>
    if !p.unitOn q u.val then p
    else p.raise q (if q.kind = 0 then 105 else 52) (if q.kind = 0 then u.val else 0))

/-! ### Start and boundary (R293, R303, R310, R316, R317) -/

/-- The channels start: HEALTHY with a stored image that verifies in both, else STARTING and source 102; one whose supply is below its
threshold is OFF, and one whose supply is out of range has fault bit 1 (R293, R317; 17 R461). -/
def Plant.rindStart (p : Plant) (a b : Bool) : Plant :=
  let ok := a && b && p.c K.rindImageId != 0
  let low := (p.node .cvc).power.chLow
  let st := fun (ch : Nat) => if bitOf low ch then (0 : Int) else if ok then 2 else 1
  let p := ((p.cPut K.rindSaState (st 0)).cPut K.rindSbState (st 1)).showOut
  let p := if ok then p else p.raise .cvc 102 0
  let check := fun (p : Plant) (ch : Nat) => if p.chClear ch then p else p.chFault ch 1
  check (check p 0) 1

/-- FAULTED channels whose condition has gone return to HEALTHY at a boundary (R293). -/
def Plant.chReturn (p : Plant) (ch : Nat) : Plant :=
  if (p.chan ch).clearDue ∧ (p.conv = 2 ∨ p.conv = 7) then
    (((p.cPut (K.rindSaState + ch) 2).cPut (K.rindSaFault + ch) 0).onChan ch (fun c => { c with
      clearDue := false, rbBad := false, miss := [] })).showOut
  else p

/-- The Rind at a boundary, after the converter's transition; `before` is the state before it. -/
def Plant.rindBoundary (p : Plant) (before : Nat) : Plant :=
  let p := (p.chReturn 0).chReturn 1
  let p := if before ≠ 6 ∧ p.conv = 6 then p.degEnter else p
  (p.degBoundary before).rindLimits

end Sys2Proof.Machine
end

