-- ==== Sys2Proof/Machine/Acq.lean ====
section
/-! DEFINITION. The acquisition system of the CVC (13_acquisition.md R357–R372, R376): channels, capture memory, the trigger
sequencer and mask tests. -/

namespace Sys2Proof.Machine

/-- Changes the acquisition system. -/
def Plant.onAcq (p : Plant) (f : AcqSt → AcqSt) : Plant := p.onCvc (fun c => { c with acq := f c.acq })

/-- A channel. -/
def Plant.acqCh (p : Plant) (ch : Nat) : AcqCh := Tab.get (fun _ => default) p.cvc.acq.chans ch

/-- Changes a channel. -/
def Plant.onAcqCh (p : Plant) (ch : Nat) (f : AcqCh → AcqCh) : Plant :=
  p.onAcq (fun a => { a with chans := Tab.upd (fun _ => default) a.chans ch f })

/-! ### Sources (R359–R362) -/

/-- acq.ch_src of a channel. -/
def Plant.acqSrc (p : Plant) (ch : Nat) : Nat := p.c (K.acqChSrc + ch)

/-- KIND of a source. -/
def srcKind (w : Nat) : Nat := w / 2 ^ 28

/-- A kind 5 source names a readable CVC object of a numeric type (R359). -/
def srcObjOk (key : Nat) : Bool :=
  match rowOf 0 key with
  | some r => r.acc != .wo && r.ty != .string && r.ty != .domain
  | none => false

/-- A value that acq.ch_src may hold (R359). -/
def acqSrcOk (w : Nat) : Bool :=
  match srcKind w with
  | 0 => w == 0
  | 1 => decide (w % 2 ^ 28 < 16)
  | 2 => decide (16 ≤ w % 2 ^ 28 ∧ w % 2 ^ 28 < 32)
  | 3 => bits w 27 12 == 0 && bits w 7 4 == 0 && decide (bits w 11 8 < 12) && decide (bits w 3 0 ≤ 8)
  | 4 => bits w 27 17 == 0 && bits w 15 14 == 0 && decide (bits w 13 0 ≤ 0x2FEF) && decide (bits w 5 0 ≤ 47)
  | 5 => bits w 27 24 == 0 && srcObjOk (w % 2 ^ 24)
  | _ => false

/-- A control word that acq.cond may hold (R371). -/
def acqCondOk (w : Nat) : Bool :=
  decide (bits w 27 24 ≤ 8) && decide (bits w 23 20 ≤ 6) && (bits w 23 20 != 6 || decide (bits w 19 14 ≤ 8)) &&
    (!bitOf w 31 || bits w 13 0 != 0)

/-- The enabled channels, in ascending number. -/
def Plant.acqChans (p : Plant) : List Nat := (rangeFrom 0 64).filter (fun ch => srcKind (p.acqSrc ch) != 0)

/-- The divider of the modulator clock of a bitstream channel (R357, R294). -/
def Plant.acqDiv (p : Plant) (ch : Nat) : Nat :=
  let w := p.acqSrc ch
  if srcKind w = 1 then p.c K.bsMclkDiv else p.c (K.rindMclkDiv + ((w % 32 - 16) / 8) * 256)

/-- The sample period of a channel in 1/256 ns (R360). -/
def Plant.acqPeriod (p : Plant) (ch : Nat) : Nat :=
  if srcKind (p.acqSrc ch) ≤ 2 then p.c (K.acqChDec + ch) * p.acqDiv ch * 640 else p.tc * p.c K.acqCycDiv * 256

/-- acq.skew of a channel in 1/256 ns. -/
def Plant.acqSkewOf (p : Plant) (ch : Nat) : Int := rdiv (p.get .cvc (K.acqSkew + ch) * 256) 1000

/-- The time of a bitstream-rate sample taken now, in 1/256 ns: its decimation instant less the group delay and the skew
(R362). -/
def Plant.acqBitTime (p : Plant) (ch : Nat) : Int :=
  let t : Int := (max 1 (p.acqPeriod ch) : Nat)
  p.now256 .cvc / t * t - (3 * (p.c (K.acqChDec + ch) - 1) * p.acqDiv ch * 320 : Nat) - p.acqSkewOf ch

/-- A sample as it is written (R361): 0x8000_0000 for one that is not available. -/
def acqWord (v : Option Int) : Nat :=
  match v with
  | none => 0x80000000
  | some x => if unsigned 32 x = 0x80000000 then 0x80000001 else unsigned 32 x

/-! ### Banks (R363, R364) -/

/-- Size of a bank. -/
def Plant.acqBankSize (p : Plant) : Nat := if p.c K.acqMode = 1 then 0x1000000 else 0x2000000

/-- The address of a bank. -/
def acqBase (bank : Nat) : Nat := 0x20000000 + bank * 0x1000000

/-- The address of the ring of the j-th enabled channel. -/
def Plant.acqRing (p : Plant) (j : Nat) : Nat := acqBase p.cvc.acq.bank + 0x1000 + j * p.c K.acqDepth * 4

/-- Valid samples of a channel. -/
def Plant.acqValid (p : Plant) (ch : Nat) : Nat := min (p.acqCh ch).total (p.c K.acqDepth)

/-- The 32 bytes of a channel's header entry. -/
def Plant.acqEntry (p : Plant) (ch : Nat) : List Nat :=
  let c := p.acqCh ch
  let depth := p.c K.acqDepth
  let valid := p.acqValid ch
  let post := if c.left.isSome then c.total - c.atTrig else 0
  let first := c.t0 + ((c.total - valid) * c.period : Nat)
  leBytes 4 ch ++ leBytes 4 (p.acqSrc ch) ++ leBytes 8 (unsigned 64 first) ++ leBytes 4 (c.period * 1000 / 256) ++
    leBytes 4 (if c.total ≤ depth then 0 else c.total % max 1 depth) ++ leBytes 4 (valid - post) ++ leBytes 4 valid

/-- The header of the present record (R364). -/
def Plant.acqHeader (p : Plant) (complete : Bool) : List Nat :=
  let a := p.cvc.acq
  let chans := p.acqChans
  let v := a.viol.getD { time := 0, ch := 0xFF, idx := 0, val := 0 }
  let body := leBytes 4 (a.coinc * 2 ^ 16 + a.flags + if complete then 1 else 0) ++ leBytes 4 a.recno ++
    leBytes 8 a.trigTime ++ leBytes 4 (a.fromSt * 256 + a.cause) ++ leBytes 4 a.cycle ++ leBytes 8 (unsigned 64 a.calK) ++
    leBytes 4 a.epoch ++ leBytes 4 chans.length ++ leBytes 8 (unsigned 64 (v.time / 256)) ++ leBytes 4 v.ch ++
    leBytes 4 v.idx ++ leBytes 4 (unsigned 32 v.val) ++ leBytes 4 a.viols ++ leBytes 4 a.recIgn ++ leBytes 4 0 ++
    leBytes 8 a.recIgnFirst ++ List.replicate 48 0 ++
    chans.flatMap (fun ch => if complete then p.acqEntry ch else leBytes 4 ch ++ leBytes 4 (p.acqSrc ch) ++ List.replicate 24 0)
  body ++ List.replicate (2176 - body.length) 0

/-- Writes the header of the present record into its bank. -/
def State.acqHeaderOut (s : State) (complete : Bool) : State :=
  { s with mem := memPut s.mem (acqBase s.plant.cvc.acq.bank) (s.plant.acqHeader complete) }

/-! ### Mask tests (R372) -/

/-- The limits of a channel's envelope for a post-trigger sample, when it is tested. -/
def Plant.acqLimits (p : Plant) (ch idx : Nat) : Option (Int × Int) :=
  let m := p.blob .cvc (K.acqMask + ch)
  let pt := idx / max 1 (p.c K.acqMaskSpan)
  if bitOf (p.c K.acqMaskEn) ch ∧ 8 * (pt + 1) ≤ m.length then
    some (signed 32 (ofLe ((m.drop (8 * pt)).take 4)), signed 32 (ofLe ((m.drop (8 * pt + 4)).take 4)))
  else none

/-- Every channel stops after at most n further samples; whether that shortens one. -/
def Plant.acqShorten (p : Plant) (n : Nat) : Plant :=
  let cut := p.acqChans.any (fun ch => match (p.acqCh ch).left with | some l => decide (n < l) | none => false)
  let p := p.acqChans.foldl (fun p ch => p.onAcqCh ch (fun c => { c with left := c.left.map (min n) })) p
  if cut then p.onAcq (fun a => { a with flags := a.flags ||| 2 }) else p

/-- A violating sample (R372). -/
def Plant.acqViolation (p : Plant) (v : AcqViol) : Plant :=
  let a := p.cvc.acq
  let first := match a.viol with
    | none => true
    | some w => decide (v.time < w.time) || (decide (v.time = w.time) && decide (v.ch < w.ch))
  let p := p.onAcq (fun a => { a with viols := min (a.viols + 1) 0xFFFFFFFF, viol := if first then some v else a.viol })
  if a.viols = 0 ∧ p.c K.acqMaskMode = 1 then p.acqShorten (p.c K.acqMaskPost) else p

/-- A sample of a tested channel against its envelope. -/
def Plant.acqTest (p : Plant) (ch idx : Nat) (v time : Int) : Plant :=
  match p.acqLimits ch idx with
  | some (lo, hi) => if v < lo ∨ hi < v then p.acqViolation { time := time, ch := ch, idx := idx, val := v } else p
  | none => p

/-! ### Samples (R365, R366) -/

/-- Acquisition is armed: REARM, RUN or POST. -/
def Plant.acqOn (p : Plant) : Bool := p.c K.acqState == 1 || p.c K.acqState == 2 || p.c K.acqState == 3

/-- A record takes samples. -/
def Plant.acqRecords (p : Plant) : Bool :=
  (p.c K.acqState == 2 || p.c K.acqState == 3) && !p.cvc.acq.beginDue && !p.cvc.acq.closing

/-- What the sequencer knows of a channel after a sample (R361, R371). -/
def AcqCh.seen (c : AcqCh) (v : Option Int) : AcqCh :=
  match v with
  | some x => { c with before := if c.known then some c.latest else none, latest := x, known := true, now := true, fresh := true }
  | none => { c with now := false, fresh := true }

/-- A channel delivers a sample whose time is `time` in 1/256 ns: the sequencer sees it, and a record takes it into the ring. -/
def State.acqSample (s : State) (ch : Nat) (v : Option Int) (time : Int) : State :=
  let p := s.plant
  if !p.acqOn then s
  else
    let c := (p.acqCh ch).seen v
    if !p.acqRecords ∨ c.left = some 0 then { s with plant := p.onAcqCh ch (fun _ => c) }
    else
      let j := (p.acqChans.takeWhile (· != ch)).length
      let at_ := p.acqRing j + c.total % max 1 (p.c K.acqDepth) * 4
      let mem := memWrite s.mem at_ 4 (acqWord v)
      let c' := { c with
        total := c.total + 1, t0 := if c.total = 0 then time else c.t0, period := p.acqPeriod ch,
        left := c.left.map (· - 1) }
      let p := p.onAcqCh ch (fun _ => c')
      let p := match c.left, v with
        | some _, some x => p.acqTest ch (c.total - c.atTrig) x time
        | _, _ => p
      { s with plant := p, mem := mem }

/-- CAPTURE_SAMPLE: a bitstream-rate channel's decimator gives a sample (R360, R362). -/
def execCaptureSample (ch : Fin 64) (val : BitVec 32) (s : State) : Host.Outcome State Fault Refusal :=
  let kind := srcKind (s.plant.acqSrc ch.val)
  .next (if s.plant.up .cvc ∧ (kind = 1 ∨ kind = 2) then s.acqSample ch.val (some val.toInt) (s.plant.acqBitTime ch.val) else s)

/-- CONTROL_BITSTREAM_OUTPUT: a control input's filter gives an output, ±1.0 = ±2^24; one level for 256 clocks sets bit 0 of
bs.fault, full scale bit 1 (R357, R358). -/
def execControlBitstreamOutput (ch : Fin 16) (code : BitVec 32) (stuck : Bool) (s : State) : Host.Outcome State Fault Refusal :=
  s.onUp .cvc (fun p =>
    let full := code.toInt = puOne ∨ code.toInt = -puOne
    let p := p.onCvc (fun c => { c with bsOut := Tab.set (fun _ => 0) c.bsOut ch.val code.toInt })
    p.cPut (K.bsFault + ch.val) ((if stuck then 1 else 0) + (if full then 2 else 0) : Nat))

/-- The value of an arm signal in the run of cycle k (R359, R361). -/
def Plant.acqArmSignal (p : Plant) (w k : Nat) : Option Int :=
  let a := bits w 11 8
  let l := p.loop a
  let ran := if l.run.k1 = k + 1 then some l.run else if l.runPrev.k1 = k + 1 then some l.runPrev else none
  let harp := p.runs && p.armUsed a && !bitOf (p.c K.convArmsBlocked) a && !bitOf (p.c K.cycleHeldArms) a
  let run := (Tab.get (fun _ => (default : ArmHarp)) p.cvc.harpArms a).out
  match bits w 3 0 with
  | 0 => ran.map (·.inj)
  | 1 => ran.map (·.s)
  | 2 => ran.map (·.m)
  | 3 => ran.map (·.e)
  | 4 => ran.map (·.integ)
  | 5 => ran.map (·.y)
  | 6 => ran.map (·.u)
  | 7 => if harp then some (match run with | some o => o.nIns | none => p.get .cvc (K.harpNIns + a)) else none
  | _ => if harp then some (match run with | some o => o.frac | none => p.get .cvc (K.harpFrac + a)) else none

/-- The field of a cell's report of cycle k (R359, R361). -/
def Plant.acqReport (p : Plant) (w k : Nat) : Option Int :=
  let r := Tab.get (fun _ => default) p.cvc.reports (k % 2 * 0x3000 + bits w 13 0)
  if r.k = k ∧ r.seq = k % 256 ∧ r.land ≠ 0 ∧ r.valid then some (if bitOf w 16 then r.i else r.v) else none

/-- The cycle takes a sample of cycle-rate channels (R360). -/
def Plant.acqCycleDue (p : Plant) (k : Nat) : Bool := p.acqOn && k % max 1 (p.c K.acqCycDiv) == 0

/-- At H of cycle k the kind 3 and kind 4 channels deliver their samples (R361). -/
def State.acqCycle (s : State) (k : Nat) : State :=
  if !s.plant.acqCycleDue k then s
  else s.plant.acqChans.foldl (fun s ch =>
    let p := s.plant
    let w := p.acqSrc ch
    let time := p.sOf k * 256 - p.acqSkewOf ch
    match srcKind w with
    | 3 => s.acqSample ch (p.acqArmSignal w k) time
    | 4 => s.acqSample ch (p.acqReport w k) time
    | _ => s) s

/-! ### Arming and closing (R365–R369) -/

/-- The arm check, as a GDP status (R363, R376). -/
def Plant.acqArmCheck (p : Plant) : Nat :=
  let n := p.acqChans.length
  let kind5 := p.acqChans.any (fun ch => srcKind (p.acqSrc ch) == 5)
  let levels := (rangeFrom 0 16).all (fun i =>
    let w := p.c (K.acqCond + i)
    !(bitOf w 31 && (bits w 23 20 == 4 || bits w 23 20 == 5)) ||
      decide (p.get .cvc (K.acqCondA + i) ≤ p.get .cvc (K.acqCondB + i)))
  if p.acqBankSize < 0x1000 + n * p.c K.acqDepth * 4 ∨ p.c K.acqDepth ≤ p.c K.acqPre ∨ !levels ∨
      (kind5 ∧ p.tc < p.c K.acqObjAt + 100) then 0x0303
  else 0

/-- A bank waits for its release. -/
def AcqSt.heldBank (a : AcqSt) (b : Nat) : Bool := if b = 0 then a.heldA else a.heldB

/-- The bank the next record takes in mode 1: the other one than the latest closed record's, bank 0 before any. -/
def Plant.acqNextBank (p : Plant) : Nat :=
  if p.c K.acqMode = 0 ∨ p.c K.acqRecord = 0 then 0 else 1 - p.c K.acqBank

/-- acq.ctrl accepted: 1 arms, 2 stops, 3 forces, 4 releases (R365, R367). -/
def Plant.acqCtrl (p : Plant) (v : Nat) : Plant :=
  match v with
  | 1 =>
    let b := p.acqNextBank
    let wait := p.c K.acqMode = 1 ∧ p.cvc.acq.heldBank b
    let p := p.onAcq (fun a => { a with
      chans := [], beginDue := !wait, stopDue := false, forceDue := false, closing := false, steps := 0, counts := [],
      bank := b, ign := 0, ignFirst := 0 })
    (p.cPut K.acqState (if wait then 1 else 2)).cPut K.acqSeqState 0
  | 2 => if p.acqOn then p.onAcq (fun a => { a with stopDue := true }) else p
  | 3 => if p.c K.acqState = 1 ∨ p.c K.acqState = 2 then p.onAcq (fun a => { a with forceDue := true }) else p
  | _ =>
    if p.c K.acqMode = 1 then
      p.onAcq (fun a => if p.c K.acqBank = 0 then { a with heldA := false } else { a with heldB := false })
    else p

/-- The sequencer enters a state: its steps and every counter return to 0 (R370). -/
def Plant.acqEnter (p : Plant) (st : Nat) : Plant :=
  (p.onAcq (fun a => { a with steps := 0, counts := [] })).cPut K.acqSeqState st

/-- Recording begins in a bank with every ring empty, in state 0 (R365). -/
def State.acqBegin (s : State) (bank : Nat) : State :=
  let p := s.plant
  let p := p.onAcq (fun a => { a with
    chans := a.chans.map (fun e => (e.1, { e.2 with total := 0, left := none, atTrig := 0, t0 := 0 })),
    beginDue := false, closing := false, recno := (a.recno + 1) % 2 ^ 32, bank := bank, flags := 0, coinc := 0, trigTime := 0,
    fromSt := 0, cause := 0, cycle := 0, calK := 0, epoch := 0, viol := none, viols := 0, recIgn := a.ign,
    recIgnFirst := a.ignFirst, ign := 0, ignFirst := 0 })
  let p := (p.cPut K.acqState 2).acqEnter 0
  State.acqHeaderOut { s with plant := p } false

/-- A record in progress stops at once and closes with STOPPED set (R367). -/
def Plant.acqStopNow (p : Plant) : Plant :=
  if p.acqRecords then
    let p := p.acqChans.foldl (fun p ch => p.onAcqCh ch (fun c => { c with left := some 0, atTrig := if c.left.isSome then c.atTrig else c.total })) p
    p.onAcq (fun a => { a with
      closing := true, stopDue := false, flags := a.flags ||| 0x20 ||| (if a.trigTime = 0 then shortFlag p else 0) })
  else if p.acqOn ∧ !p.cvc.acq.closing then
    (p.onAcq (fun a => { a with stopDue := false, beginDue := false })).cPut K.acqState 0
  else p
where
  /-- SHORT when a channel holds fewer than acq.pre samples. -/
  shortFlag (p : Plant) : Nat := if p.acqChans.any (fun ch => decide ((p.acqCh ch).total < p.c K.acqPre)) then 8 else 0

/-- TRIGGER is reached (R366, R369, R371). -/
def Plant.acqTrigger (p : Plant) (cause flag : Nat) : Plant :=
  let t := p.now .cvc / 100 * 100
  let st := p.c K.acqSeqState
  if p.c K.acqState = 1 then
    let first := p.cvc.acq.ign = 0
    let p := p.onAcq (fun a => { a with ign := min (a.ign + 1) 0xFFFFFFFF, ignFirst := if first then t else a.ignFirst })
    let p := if first then p.cPut K.acqRearmFirst t else p
    (p.bump .cvc K.acqRearmIgnored 1).acqEnter 0
  else
    let pre := p.c K.acqPre
    let short := p.acqChans.any (fun ch => decide ((p.acqCh ch).total < pre))
    let p := p.acqChans.foldl (fun p ch => p.onAcqCh ch (fun c => { c with
      left := some (p.c K.acqDepth - pre), atTrig := c.total })) p
    let p := p.onAcq (fun a => { a with
      flags := a.flags ||| flag ||| (if short then 8 else 0), trigTime := t, fromSt := st, cause := cause,
      cycle := p.k % 2 ^ 32, calK := p.get .cvc K.timeCalOffset, epoch := p.c K.timeEpoch, trigOut := true })
    p.cPut K.acqState 3

/-! ### The trigger sequencer (R370, R371) -/

/-- A condition is true in this step (R371). -/
def Plant.acqTrue (p : Plant) (i : Nat) : Bool :=
  let w := p.c (K.acqCond + i)
  let a := p.get .cvc (K.acqCondA + i)
  let b := p.get .cvc (K.acqCondB + i)
  let src := bits w 19 14
  let c := p.acqCh src
  match bits w 23 20 with
  | 0 => c.now && decide (a < c.latest)
  | 1 => c.now && decide (c.latest < a)
  | 2 => c.now && c.fresh && (match c.before with | some x => decide (x ≤ a ∧ a < c.latest) | none => false)
  | 3 => c.now && c.fresh && (match c.before with | some x => decide (a ≤ x ∧ c.latest < a) | none => false)
  | 4 => c.now && decide (a ≤ c.latest ∧ c.latest ≤ b)
  | 5 => c.now && decide (c.latest < a ∨ b < c.latest)
  | 6 => p.cvc.acqEv.any (fun e => e.1 == src)
  | _ => false

/-- GOTO of a condition. -/
def Plant.acqGoto (p : Plant) (i : Nat) : Nat := bits (p.c (K.acqCond + i)) 27 24

/-- The conditions that are ready in this step, after the counters of those that are true have moved (R370). -/
def Plant.acqReady (p : Plant) : List Nat × Plant :=
  let st := p.c K.acqSeqState
  let hit := (rangeFrom 0 16).filter (fun i =>
    let w := p.c (K.acqCond + i)
    bitOf w 31 && bits w 30 28 == st && p.acqTrue i)
  let q := p.onAcq (fun a => { a with counts := hit.foldl (fun t i => Tab.upd (fun _ => 0) t i (· + 1)) a.counts })
  (hit.filter (fun i => decide (bits (p.c (K.acqCond + i)) 13 0 ≤ Tab.get (fun _ => 0) q.cvc.acq.counts i)), q)

/-- The sequencer goes to a state, or to TRIGGER. -/
def Plant.acqGo (p : Plant) (goto cause flag : Nat) : Plant :=
  if goto = 8 then p.acqTrigger cause flag else p.acqEnter goto

/-- One step of the sequencer in its present state (R370). -/
def Plant.acqRun (p : Plant) : Plant :=
  let st := p.c K.acqSeqState
  let n := p.cvc.acq.steps + 1
  let tmo := p.c (K.acqStTimeout + st)
  let force := p.cvc.acq.forceDue
  let (ready, p) := if p.c (K.acqStDelay + st) < n then p.acqReady else ([], p)
  let p := p.onAcq (fun a => { a with steps := n, forceDue := false })
  match ready with
  | i :: rest =>
    let g := p.acqGoto i
    let other := (rest.filter (fun j => p.acqGoto j != g)).foldl (fun m j => m ||| 2 ^ j) 0
    let p := p.onAcq (fun a => { a with
      coinc := a.coinc ||| other, flags := a.flags ||| (if tmo ≠ 0 ∧ tmo ≤ n then 0x10 else 0) })
    if force ∧ g ≠ 8 then p.acqTrigger 0xFE 0 else p.acqGo g i 0
  | [] => if force then p.acqTrigger 0xFE 0 else p

/-- Events and samples count as new in one step only (R371). -/
def Plant.acqOld (p : Plant) : Plant :=
  p.onCvc (fun c => { c with acqEv := [], acq := { c.acq with chans := c.acq.chans.map (fun e => (e.1, { e.2 with fresh := false })) } })

/-- SEQUENCER_STEP: at a whole multiple of 100 ns recording begins, stops or leaves REARM, or the sequencer takes a step
(R365, R367, R368, R370). -/
def execSequencerStep (s : State) : Host.Outcome State Fault Refusal :=
  if !s.plant.up .cvc then .next s
  else
    let p := s.plant
    let a := p.cvc.acq
    let st := p.c K.acqState
    let out : State :=
      if a.stopDue then { s with plant := p.acqStopNow.onAcq (fun a => { a with stopDue := false }) }
      else if st = 2 ∧ a.beginDue then s.acqBegin a.bank
      else if st = 1 ∧ !a.heldBank p.acqNextBank then s.acqBegin p.acqNextBank
      else if st = 1 ∨ (st = 2 ∧ !a.closing) then { s with plant := p.acqRun }
      else s
    .next { out with plant := out.plant.acqOld }

/-- SEQUENCER_TIMEOUT: acq.st_timeout steps have passed in a state with no condition ready, and the sequencer takes
acq.st_tgoto (R370). -/
def execSequencerTimeout (s : State) : Host.Outcome State Fault Refusal :=
  s.onUp .cvc (fun p =>
    let st := p.c K.acqSeqState
    let a := p.cvc.acq
    let tmo := p.c (K.acqStTimeout + st)
    let runs := p.c K.acqState = 1 ∨ (p.c K.acqState = 2 ∧ !a.beginDue ∧ !a.closing)
    if runs ∧ tmo ≠ 0 ∧ tmo ≤ a.steps then p.acqGo (p.c (K.acqStTgoto + st)) 0xFF 4 else p)

/-- ACQ_TRIG_IN: an edge of the pin becomes event 0, rising, or 1, falling (R371). -/
def execAcqTrigIn (edge : Bool) (s : State) : Host.Outcome State Fault Refusal :=
  s.onUp .cvc (fun p =>
    if p.cvc.acq.trigIn = edge then p
    else (p.onAcq (fun a => { a with trigIn := edge })).acqEvent (if edge then 0 else 1))

/-- ACQ_TRIG_OUT_END: the pin returns low 1 µs after the trigger step (R371). -/
def execAcqTrigOutEnd (s : State) : Host.Outcome State Fault Refusal :=
  s.onUp .cvc (fun p => p.onAcq (fun a => { a with trigOut := false }))

/-- Every enabled channel has stopped. -/
def Plant.acqStopped (p : Plant) : Bool := p.acqChans.all (fun ch => (p.acqCh ch).left == some 0)

/-- RECORD_CLOSE: every channel has stopped; the header is made final, and acquisition is done or, in mode 1, waits for the
other bank (R366, R368). -/
def execRecordClose (s : State) : Host.Outcome State Fault Refusal :=
  let p := s.plant
  if p.up .cvc ∧ p.acqRecords ∧ p.c K.acqState = 3 ∧ p.acqStopped ∨ p.up .cvc ∧ p.acqOn ∧ p.cvc.acq.closing then
    let s := s.acqHeaderOut true
    let p := (p.cPut K.acqRecord p.cvc.acq.recno).cPut K.acqBank p.cvc.acq.bank
    let p := p.onAcq (fun a => { a with closing := false, ign := 0, ignFirst := 0 })
    let p := if p.c K.acqMode = 1 then
        let b := p.cvc.acq.bank
        (((p.onAcq (fun a => if b = 0 then { a with heldA := true } else { a with heldB := true })).cPut K.acqState 1).acqEnter 0)
      else p.cPut K.acqState 4
    .next { s with plant := p }
  else .next s

/-- acq.data: the bytes of a bank (R363, R376). -/
def State.acqData (s : State) (bank off n : Nat) : List Nat :=
  let size := if s.plant.c K.acqMode = 1 then 0x1000000 else if bank = 0 then 0x2000000 else 0
  memBytes s.mem (acqBase bank + off) (min n (size - off))

/-- The acquisition objects whose writes are refused while acquisition is armed (R367, R376). -/
def acqConfig (key : Nat) : Bool :=
  let i := key / 256
  (decide (0x480003 ≤ key ∧ key ≤ 0x480011) || decide (0x4810 ≤ i ∧ i ≤ 0x4840)) 

end Sys2Proof.Machine
end

