-- ==== Sys2Proof/Machine/Arbiter.lean ====
section
/-! DEFINITION. Slot tables and the lane arbiter (09_tamlek_frames_and_integrity.md R248–R258). -/

namespace Sys2Proof.Machine

/-! ### Windows (R248, R249, R252) -/

/-- A used entry of a slot table (R248), offsets in ns. -/
structure Window where
  ty : Nat
  sref : Nat
  eref : Nat
  soff : Int
  eoff : Int
  deriving DecidableEq, Repr

/-- The window of an entry; none for an unused one. -/
def windowOf (x : Nat) : Option Window :=
  if bits x 63 60 = 0 then none
  else some ⟨bits x 63 60, bits x 59 58, bits x 57 56, 10 * signed 16 (bits x 31 16), 10 * signed 16 (bits x 15 0)⟩

/-- The windows of a bank of table t in a part. -/
def Plant.windows (p : Plant) (q : Part) (t bank : Nat) : List Window :=
  (rangeFrom 0 16).filterMap (fun e =>
    windowOf (p.getN q ((0x3A10 + t) * 256 + (if bank = 0 then 1 else 0x11) + e)))

/-- A reference of a window in ns from S (R248): S, H or A. -/
def refNs (h : Int) (ta : Nat) : Nat → Int
  | 0 => 0
  | 1 => h
  | _ => ta

/-- Opening and closing of a window in ns from S. -/
def Window.span (w : Window) (h : Int) (ta : Nat) : Int × Int := (refNs h ta w.sref + w.soff, refNs h ta w.eref + w.eoff)

/-- The types that may be sent on a table's lane class (R231, R248); a hub relays trip frames to the other CVC (14 R382). -/
def typeAllowed (t ty : Nat) : Bool :=
  match t with
  | 0 => [1, 3, 4, 5, 6].contains ty
  | 1 => [2, 3, 4, 5, 6].contains ty
  | 2 => [1, 3, 4, 5].contains ty
  | _ => [2, 3, 4, 5].contains ty

/-- Two spans meet. -/
def spansMeet (a b : Int × Int) : Bool := decide (a.1 < b.2 ∧ b.1 < a.2)

/-- A span meets another in some cycle: the two compared modulo the cycle time (R252, R253). The cycle tried is the first in which
the second span ends after the first begins. -/
def meetsMod (a b : Int × Int) (tc : Int) : Bool :=
  let j := Int.fdiv (a.1 - b.2) tc + 1
  if tc ≤ 0 then spansMeet a b else spansMeet a (b.1 + j * tc, b.2 + j * tc)

/-- The check of a bank (R252, R253): every entry closes after it opens, no two windows of different types overlap modulo
Tc, and every type may be sent. H is taken as S + 300 ns. -/
def bankOk (ws : List Window) (t tc ta : Nat) : Bool :=
  ws.all (fun w => decide ((w.span 300 ta).1 < (w.span 300 ta).2) && typeAllowed t w.ty &&
    (t == 0 || (w.sref != 1 && w.eref != 1)) && w.sref != 3 && w.eref != 3) &&
  ws.all (fun w => ws.all (fun v => w.ty == v.ty || !meetsMod (w.span 300 ta) (v.span 300 ta) tc))

/-- The bank of table t in force in a part passes its check. -/
def Plant.tableOk (p : Plant) (q : Part) (t bank tc ta : Nat) : Bool := bankOk (p.windows q t bank) t tc ta

/-- Tables of a part (R248). -/
def tablesOf : Nat → List Nat
  | 0 => [0]
  | 1 => [1, 2]
  | _ => [3]

/-- A write of slot.switch_at (R251): its status, 0 when accepted. k is the present cycle. -/
def Plant.switchStatus (p : Plant) (q : Part) (t v : Nat) : Nat :=
  let base := (0x3A10 + t) * 256
  let other := 1 - p.getN q (base + 0x21)
  let d := (v + 2 ^ 32 - (p.schedNow q).k % 2 ^ 32) % 2 ^ 32
  if p.getN q (base + 0x23) = 1 then 0x0704
  else if d < 2 ∨ 2 ^ 31 ≤ d then 0x0703
  else if !p.tableOk q t other (p.node q).sched.tc (p.node q).sched.ta then 0x0702
  else 0

/-- Schedules a switch (R251). -/
def Plant.switchAt (p : Plant) (q : Part) (t v : Nat) : Plant :=
  (p.put q ((0x3A10 + t) * 256 + 0x23) 1).onNode q (fun n => { n with slotSwitch := Tab.set (fun _ => 0) n.slotSwitch t v })

/-- Puts the other bank in force in a part whose named cycle has come, by its own network time, or has passed in a jump of its schedule
(R251). -/
def Plant.switchBanks (p : Plant) (q : Part) : Plant :=
  (tablesOf q.kind).foldl (fun p t =>
    let base := (0x3A10 + t) * 256
    if p.getN q (base + 0x23) = 1 ∧
        unsigned 32 (((p.schedNow q).k : Int) - Tab.get (fun _ => 0) (p.node q).slotSwitch t) < 2 ^ 31 then
      (p.put q (base + 0x21) (1 - p.get q (base + 0x21))).put q (base + 0x23) 0
    else p) p

/-! ### The arbiter (R249, R254–R256) -/

/-- The lane of a cell towards the port of its segment, once it has a plan (08 R207). -/
def Plant.portLane (p : Plant) (c : CellId) : Option Nat :=
  match (p.cell c).plan.latched, p.getN (.cell c) K.stringSeg with
  | some _, 0 => some 0
  | some _, 1 => some 1
  | _, _ => none

/-- The slot table that governs a frame on a lane, if one does (R248, R249): none for trip frames, on peer lanes, and for
what a cell forwards downstream. Reports, service responses, and what a cell sends of its own on the lane to its port, are on their way to
the port. -/
def Plant.tableFor (p : Plant) (q : Part) (l : Nat) (f : Frame) : Option Nat :=
  if f.ty = 3 then none
  else match q with
    | .cvc => if l < 16 then some 0 else none
    | .hub _ => some (if l < 48 then 2 else 1)
    | .cell c =>
      let own := f.ty == 4 && decide (2 ≤ bits f.hdr.toNat 51 50)
      if f.ty = 2 ∨ (f.ty = 5 ∧ bitOf f.hdr.toNat 51) ∨ (own ∧ p.portLane c = some l) then some 3 else none

/-- One lane of an uplink pair alone is left: its SERVICE windows have lapsed (R258). -/
def Plant.serviceLapsed (p : Plant) (q : Part) (l t : Nat) : Bool :=
  decide (t ≤ 1) && !(p.laneUp q (l / 2 * 2) && p.laneUp q (l / 2 * 2 + 1))

/-- Hundredths of a ns that a frame takes (R192): 6.4 ns a block on string lanes, 2.56 ns on the others. -/
def frameTime (q : Part) (l : Nat) (f : Frame) : Nat :=
  f.blocks * (match q with | .cell _ => 640 | .hub _ => if l < 48 then 640 else 256 | .cvc => 256)

/-- H of a part's tables in ns from S: the CVC's own H (02 R31). -/
def Plant.hNs (p : Plant) (q : Part) : Int := if q.kind = 0 then p.cvc.hOff / 1000 else 300

/-- A window of the present cycle in hundredths of a ns from S. -/
def Window.fine (w : Window) (h : Int) (ta : Nat) : Int × Int := (100 * (w.span h ta).1, 100 * (w.span h ta).2)

/-- Cycles that a waiting frame's own window lies before those of the present cycle k: by its SEQ (R247); none for a service frame,
which carries no SEQ. -/
def cyclesBehind (k : Nat) (f : Frame) : Int :=
  if f.ty = 5 then 0 else signed 8 (unsigned 8 ((k : Int) - bits f.hdr.toNat 47 40))

/-- What R249 says of a frame now: it may start, it waits, or its window has closed and it is dropped. -/
inductive StartRule where
  | may | wait | drop
  deriving DecidableEq, Repr

/-- R249 for a frame on a lane; without a SERVICE window of their own, service frames wait for room between the others (R258). -/
def Plant.startRule (p : Plant) (q : Part) (l : Nat) (f : Frame) : StartRule :=
  match p.tableFor q l f with
  | none => .may
  | some t =>
    let sc := (p.node q).sched
    if !sc.valid then .may
    else
      let ws := (p.windows q t (p.getN q ((0x3A10 + t) * 256 + 0x21))).filter (fun w => w.ty != 5 || !p.serviceLapsed q l t)
      let now := p.sinceS q
      let d : Int := frameTime q l f
      let h := p.hNs q
      let others := ws.filter (fun w => w.ty != f.ty)
      let own := ws.filter (fun w => w.ty == f.ty)
      let tc : Int := 100 * (sc.tc : Int)
      let clash := others.any (fun w => meetsMod (now, now + d) (w.fine h sc.ta) tc)
      if !clash then .may
      else
        let open_ := own.any (fun w => meetsMod (now, now + 1) (w.fine h sc.ta) tc)
        let closed := own.any (fun w => decide ((w.fine h sc.ta).2 - cyclesBehind sc.k f * tc ≤ now))
        if closed && !open_ then .drop else .wait

/-- Leaves out the first frame equal to a given one. -/
def dropFirst (f : Frame) : List Frame → List Frame
  | [] => []
  | x :: t => if x = f then t else x :: dropFirst f t

/-- The first waiting frame of each requester, in order of precedence (R254). -/
def requesters (txq : List Frame) : List Frame :=
  (rangeFrom 0 6).filterMap (fun c => txq.find? (fun f => framePrec f.ty == c))

/-- Drops the waiting frames of a lane whose window has closed (R249). -/
def Plant.dropLate (p : Plant) (q : Part) (l : Nat) : Plant :=
  (requesters (p.lane q l).txq).foldl (fun p f =>
    if p.startRule q l f = .drop then
      (p.onLane q l (fun e => { e with txq := dropFirst f e.txq })).bump q (tamKey l 0x0D) 1
    else p) p

/-- The frame the arbiter grants: a trip, then a frame that a trip interrupted, then the first requester that may start
(R254, R255). -/
def Plant.granted (p : Plant) (q : Part) (l : Nat) : Option Frame :=
  let e := p.lane q l
  match e.txq.find? (fun f => f.ty == 3) with
  | some f => some f
  | none =>
    match e.again with
    | some f => some f
    | none => (requesters e.txq).find? (fun f => decide (p.startRule q l f = .may))

/-- The second data block of a time frame with CORR moved on by a number of 1/256 ns (09 R242). -/
def addCorr (x : Nat) (d : Int) : Nat := x - bits x 55 8 * 256 + unsigned 48 ((bits x 55 8 : Int) + d) * 256

/-- A frame as it leaves (10 R272, R277): time frames wait with their arrival taken out of CORR, so that the departure added
here makes the residence; DELAY_REQ takes its departure as ORIGIN. A frame that was stomped stays so. -/
def stampFrame (f : Frame) (now : Int) : Frame :=
  if f.ty ≠ 4 then f
  else
    let good := decide (chkState f = .good)
    let data := match bits f.hdr.toNat 51 50, f.data with
      | 2, _ :: _ :: t => BitVec.ofNat 64 (unsigned 64 (now / 256)) :: BitVec.ofNat 64 ((now % 256).toNat * 2 ^ 56) :: t
      | _, a :: b :: t => a :: BitVec.ofNat 64 (addCorr b.toNat now) :: t
      | _, d => d
    let g : Frame := { f with data := data }
    { g with chk := BitVec.ofNat 32 (if good then frameCrc g else 0xFFFFFFFF - frameCrc g) }

/-- The instant of a departure, in 1/256 ns, on the delay-line grid: which of the 64 taps of the present tick it falls on is not said (10
R269; log entry 45). -/
def Plant.departure (p : Plant) (q : Part) : Int × Plant :=
  let (v, p) := p.free
  (p.now256 q + 10 * (v % 64 : Nat), p)

/-- Puts a frame in transmission; a time frame is stamped, and the departure of a DELAY_REQ is t1 (10 R269, R277). -/
def Plant.transmit (p : Plant) (q : Part) (l : Nat) (f : Frame) (e : Lane → Lane) : Plant :=
  let (now, p) := if f.ty = 4 then p.departure q else (0, p)
  let req := f.ty == 4 && bits f.hdr.toNat 51 50 == 2
  p.onLane q l (fun x =>
    let x := e x
    {
      x with tx := some f, wire := some (stampFrame f now),
             exch := if req then { x.exch with t1 := now } else x.exch })

/-- ARBITER_GRANT: at a block boundary with no frame in transmission, the highest requester that may start is granted
(R254). The frame that was in transmission has ended. -/
def execArbiterGrant (port : Port) (s : State) : Host.Outcome State Fault Refusal :=
  s.on (fun p =>
    let q := port.part
    let l := port.lane.val
    let p := p.onLane q l (fun e => { e with tx := none, wire := none })
    if !p.laneUp q l then p
    else
      let p := (p.switchBanks q).dropLate q l
      let e := p.lane q l
      match p.granted q l with
      | none => p
      | some f => p.transmit q l f (fun x =>
          if e.txq.contains f ∧ (f.ty = 3 ∨ e.again ≠ some f) then { x with txq := dropFirst f x.txq }
          else { x with again := none }))

/-- TRIP_PREEMPT: a trip takes the lane in the middle of a frame, which is closed with an abort block and sent again after
the trip; a trip frame is never interrupted (R255). -/
def execTripPreempt (port : Port) (s : State) : Host.Outcome State Fault Refusal :=
  s.on (fun p =>
    let q := port.part
    let l := port.lane.val
    let e := p.lane q l
    match e.txq.find? (fun f => f.ty == 3), e.tx with
    | some t, some f =>
      if f.ty = 3 then p
      else ((p.sendAbort q l).transmit q l t (fun x => { x with again := some f, txq := dropFirst t x.txq })).bump q (tamKey l 8) 1
    | some t, none => p.transmit q l t (fun x => { x with txq := dropFirst t x.txq })
    | none, _ => p)

/-! ### Receiving a frame (R246, R259) -/

/-- A protocol violation of a neighbour (R259): sub 4 type, 5 length, 6 sequence. -/
def Plant.violation (p : Plant) (q : Part) (l sub : Nat) : Plant :=
  let p := p.bump q (tamKey l sub) 1
  match q with
  | .cell c => if p.up q then (p.onCell c (fun e => { e with viol := true })).raise q 46 l else p
  | .hub _ => p.raise q 21 l
  | .cvc => p.raise q 59 l

/-- The copy of a frame that is cut here is closed with an abort block towards the next hop (R255, R259): on a cell's other lane, and from
a string port of a hub on a lane of the pair to each CVC. A hub cannot tell from an uplink frame that is cut which port it was for, and
has begun no copy (log entry 85). -/
def Plant.abortOnward (p : Plant) (q : Part) (l : Nat) : Plant :=
  match q with
  | .cell _ => p.sendAbort q (otherLane l)
  | .hub _ =>
    if l < 48 then
      [false, true].foldl (fun p b =>
        p.ifSome (p.pairLane q (hubPair b).1 (hubPair b).2) (fun p m => p.sendAbort q m)) p
    else p
  | .cvc => p

/-- Data blocks that a frame's header implies (R231, R233, R235, R242, R243, R245). -/
def lengthOk (f : Frame) : Bool :=
  let h := f.hdr.toNat
  let n := f.data.length
  match f.ty with
  | 1 => n == bits h 9 4 && decide (1 ≤ n ∧ n ≤ 48)
  | 2 => n == bits h 25 20 * (if bitOf h 51 then 1 else 2) && decide (bits h 25 20 ≤ 48)
  | 3 => n == 0
  | 4 => n == (if bits h 51 50 = 1 then 3 else 2)
  | 5 => n == 1 + (bits h 23 16 + 7) / 8 && decide (bits h 23 16 ≤ 240)
  | 6 => n == 1
  | _ => true

/-- The counters of a received frame (R246): passing, stomped upstream, or found bad here. -/
def Plant.rxCount (p : Plant) (q : Part) (l : Nat) (f : Frame) : Plant :=
  match chkState f with
  | .good => p.bump q (tamKey l 1) 1
  | .stomped =>
    let p := (p.bump q (tamKey l 3) 1).put q (tamKey l 9) (f.fbh.toNat : Nat)
    if q.kind = 0 then p.raise q 58 l else p
  | .bad =>
    let p := p.bump q (tamKey l 2) 1
    match q with
    | .cell c => if p.up q then (p.onCell c (fun e => { e with chkErr := true })).raise q 45 l else p
    | .hub _ => p.raise q 22 l
    | .cvc => p.raise q 58 l

/-- The hop code of a part at a lane (R246); a cell's is the position its lane block knows, in pass-through too. -/
def Plant.hopCode (p : Plant) (q : Part) (l : Nat) : Nat :=
  match q with
  | .cell c => (p.cell c).lanePos
  | .hub h => if l < 48 then 0x40 + h.val else 0x48 + h.val
  | .cvc => 0x50 + p.c K.redId

/-- Receives a frame of the type its row names: the equaliser takes its snapshot at the last block (08 R199). A violation in its start block
drops it, and one of its length, which shows later, closes its copy as well (R259); otherwise it is counted and handled, with whether its
check passes. -/
def Plant.receive (p : Plant) (port : Port) (f : Frame) (ty : Nat) (handle : Plant → Bool → Plant) : Plant :=
  let q := port.part
  let l := port.lane.val
  if !p.laneUp q l then p
  else
    let p := if f.ty = 6 then p else p.snapshot q l
    if f.ty = 0 ∨ 7 ≤ f.ty then p.violation q l 4
    else if f.ty ≠ ty then p
    else if !lengthOk f then (p.abortOnward q l).violation q l 5
    else handle (p.rxCount q l f) (decide (chkState f = .good))

end Sys2Proof.Machine
end

