-- ==== Sys2Proof/Machine/Faults.lean ====
section
/-! DEFINITION. Pending faults, acknowledgement and the Cave's store (12_faults_and_cave.md). -/

namespace Sys2Proof.Machine

/-! ### Acknowledgement (R338, R343) -/

/-- The latch a cell's source follows is still set: hard-trip latches, gate feedback bits, FIRED (R343). -/
def Plant.latchHeld (p : Plant) (q : Part) (s : Nat) : Bool :=
  q.kind == 2 && ((s == 16 && p.getN q K.tripLatch % 16 != 0) || (s == 17 && p.getN q K.tripLatch / 16 != 0) ||
    (s == 19 && p.getN q K.swFbFault != 0) || (s == 20 && bitOf (p.getN q K.bypStatus) 1))

/-- Clears a source's pending mark and timer. -/
def Plant.endFault (p : Plant) (q : Part) (s : Nat) : Plant :=
  (p.put q (K.faultState + s) 0).onNode q (fun n => { n with faults := { n.faults with
    deadline := Tab.set (fun _ => 0) n.faults.deadline s 0, noteEnd := Tab.set (fun _ => 0) n.faults.noteEnd s 0,
    mask := Tab.set (fun _ => 0) n.faults.mask s 0 } })

/-- The grace timer of a CVC source ends: its action is applied (R337). -/
def Plant.graceEnds (p : Plant) (s : Nat) : Plant :=
  let f := (p.node .cvc).faults
  if p.pendingSrc .cvc s ∧ Tab.get (fun _ => 0) f.deadline s ≠ 0 then
    let p := p.onNode .cvc (fun m => { m with faults := { m.faults with deadline := Tab.set (fun _ => 0) m.faults.deadline s 0 } })
    actionWith fullRaiser p s (p.effSev .cvc s) (Tab.get (fun _ => 0) f.mask s)
  else p

/-- The grace timer of a CVC source expires in the present clock, or has expired. -/
def Plant.graceOver (p : Plant) (s : Nat) : Bool := decide (Tab.get (fun _ => 0) (p.node .cvc).faults.deadline s ≤ p.tick + 1)

/-- Acknowledges one source (R338); an action whose timer expires in the same clock is applied first (R341). In a hub or cell, a source
whose latch is set stays active; its deadline field marks it acknowledged (R343). -/
def Plant.ackOne (p : Plant) (q : Part) (s : Nat) : Plant :=
  if !p.pendingSrc q s then p
  else if p.ackedSrc q s then p
  else
    let p := if q.kind = 0 ∧ p.graceOver s then p.graceEnds s else p
    let applied := if bitOf (p.getN q (K.faultState + s)) 6 then 1 else 0
    let r := p.caveRec q (0x200 + s) s (p.effSev q s) applied 0 []
    let p := if p.latchHeld q s then
        p.onNode q (fun n => { n with faults := { n.faults with deadline := Tab.set (fun _ => 0) n.faults.deadline s 1 } })
      else p.endFault q s
    recordWith fullRaiser p q r

/-- A write of a source number, or of 0xFFFF for all, to fault.ack (R338). -/
def Plant.ack (p : Plant) (q : Part) (v : Nat) : Plant :=
  (if v = 0xFFFF then p.pendingList q else [v]).foldl (fun p s => p.ackOne q s) p

/-- Ends the sources of a cell that were acknowledged and whose latch has been cleared since (R343). -/
def Plant.endAcked (p : Plant) (q : Part) : Plant :=
  (p.pendingList q).foldl (fun p s =>
    if Tab.get (fun _ => 0) (p.node q).faults.deadline s ≠ 0 ∧ !p.latchHeld q s then p.endFault q s else p) p

/-- GRACE_EXPIRE: the grace timer of a source ends unacknowledged, and its action is applied (R337). -/
def execGraceExpire (src : Source) (s : State) : Host.Outcome State Fault Refusal :=
  s.onUp .cvc (fun p => p.graceEnds src.val)

/-- NOTE_EXPIRE: a note has been pending for 1 s and is acknowledged by hardware without a record (R338). -/
def execNoteExpire (q : Part) (src : Source) (s : State) : Host.Outcome State Fault Refusal :=
  s.onUp q (fun p =>
    if p.pendingSrc q src.val ∧ p.effSev q src.val = 0 then p.endFault q src.val else p)

/-- fault.emerg_clear accepted: the emergency latch is cleared (R342). -/
def Plant.emergClear (p : Plant) : Plant := p.cPut K.faultSummary 0

/-! ### Records as stored (R344–R347) -/

/-- Slots of the keep area (R344). -/
def keepSlots : Nat → Nat
  | 0 => 4096
  | 1 => 256
  | _ => 128

/-- Slots of the circulating area (R344). -/
def circSlots : Nat → Nat
  | 0 => 65792
  | 1 => 4352
  | _ => 2048

/-- Slots erased at once: a 64 KiB sector in NOR, one slot in MRAM (R344). -/
def sectorSlots : Nat → Nat
  | 2 => 1
  | _ => 256

/-- The eight payload bytes of a CONT record. -/
def contBytes (l : List Nat) : List Nat := (l ++ List.replicate 8 0xFF).take 8

/-- Groups of eight payload bytes; the first argument bounds their number. -/
def contGroups : Nat → List Nat → List (List Nat)
  | 0, _ => []
  | n + 1, l => if l.isEmpty then [] else contBytes l :: contGroups n (l.drop 8)

/-- The 32 bytes every record begins with (R346), parameters as given. -/
def recHead (r : CaveRec) (len code : Nat) (more : Bool) (params : List Nat) : List Nat :=
  [0xA5, len / 4 - 1] ++ leBytes 2 code ++ leBytes 2 r.epoch ++
    [(if r.tb then 128 else 0) + (if r.keep then 64 else 0) + (if more then 32 else 0), r.src] ++
    leBytes 8 r.seq ++ leBytes 8 r.time ++ params

/-- A record, or its whole chain, as stored (R345–R347). -/
def CaveRec.bytes (r : CaveRec) : List Nat :=
  let params := leBytes 2 r.p0 ++ leBytes 2 r.p1 ++ leBytes 4 r.p2
  if r.fixed then
    let gs := contGroups 32 r.payload
    recHead r 32 r.code (!gs.isEmpty) params ++
      (gs.zipIdx.flatMap (fun g => recHead r 32 0x000F (decide (g.2 + 1 < gs.length)) g.1))
  else
    let pad := (4 - r.payload.length % 4) % 4
    recHead r (32 + r.payload.length + pad) r.code false params ++ r.payload ++ List.replicate pad 0xFF

/-- The form in force: 1 fixed, 2 variable (R345). -/
def Plant.caveForm (p : Plant) (q : Part) : Nat :=
  let watchdog := bitOf (p.getN q K.rstCause) 2
  let fixed := match q with
    | .cvc => decide (p.conv ≤ 1) || p.getN q K.caveFixed == 1 || (watchdog && p.cvc.conv.startDone == 0)
    | .hub n => !(p.hub n).found || p.getN q K.caveFixed == 1
    | .cell c => !(p.cell c).posKnown || p.getN q K.caveFixed == 1 ||
        p.getN q K.nrgState != 2
  if fixed then 1 else 2

/-- The slots a record fills. -/
def caveSlots (fixed : Bool) (r : CaveRec) : Nat := if fixed then 1 + (contGroups 32 r.payload).length else 1

/-- The first slot a position makes erased: the next sector in NOR when a sector's first slot is used, the slot itself in
MRAM (R344). -/
def erasedRange (kind pos : Nat) : Nat × Nat :=
  let n := sectorSlots kind
  if n = 1 then (pos, 1)
  else if pos % n = 0 then ((pos + n) % circSlots kind, n) else (pos, 0)

/-- A record of the circulating area lies in a range of slots. -/
def inErased (kind : Nat) (rg : Nat × Nat) (r : CaveRec) : Bool :=
  !r.keep && (rangeFrom r.slot r.slots).any (fun s => decide (rg.1 ≤ s % circSlots kind ∧ s % circSlots kind < rg.1 + rg.2))

/-- Brings the Cave objects in line with what is stored (R356). -/
def Plant.caveShow (p : Plant) (q : Part) : Plant :=
  let recs := (p.node q).cave.recs
  let p := p.put q K.caveFirstSeq (match recs with | r :: _ => (r.seq : Nat) | [] => 0)
  let p := p.put q K.caveKeepUsed ((recs.filter (·.keep)).map (·.slots)).sum
  p.put q K.caveCircUsed ((recs.filter (fun r => !r.keep)).map (·.slots)).sum

/-- Stores a record with the next sequence number: in the keep area until it is full, then in the circulating area, whose
oldest records make room (R344, R349). -/
def Plant.caveStore (p : Plant) (q : Part) (r : CaveRec) (valid : Bool) : Plant :=
  let kind := q.kind
  let fixed := p.caveForm q == 1
  let n := caveSlots fixed r
  let seq := max (p.getN q K.caveLastSeq) (p.getN q K.caveSeqFloor) + 1
  let used := p.getN q K.caveKeepUsed
  let p := p.put q K.caveLastSeq seq
  if used + n ≤ keepSlots kind then
    let r := { r with seq := seq, fixed := fixed, keep := true, slot := used, slots := n }
    let p := if valid then p.onNode q (fun m => { m with cave := { m.cave with recs := m.cave.recs ++ [r] } }) else p
    p.caveShow q
  else
    let pos := (p.node q).cave.circ
    let old := (p.node q).cave.recs
    let kept := (rangeFrom pos n).foldl (fun l s =>
      l.filter (fun x => !inErased kind (erasedRange kind (s % circSlots kind)) x)) old
    let r := { r with seq := seq, fixed := fixed, keep := false, slot := pos, slots := n }
    let p := p.onNode q (fun m => { m with cave := { m.cave with
      recs := if valid then kept ++ [r] else kept, circ := (pos + n) % circSlots kind } })
    (p.bump q K.caveOverwritten (old.length - kept.length)).caveShow q

/-- A failed write of the store: CVC source 126, hub source 6, local source 8 (R332–R334). -/
def Plant.caveFail (p : Plant) (q : Part) : Plant :=
  (p.bump q K.caveLost 1).raise q (match q.kind with | 0 => 126 | 1 => 6 | _ => 8) 0

/-- The oldest waiting record leaves the queue and is written (R349); a clear that erases holds the queue (R351). -/
def Plant.caveWriteOne (p : Plant) (q : Part) (ok : Bool) : Plant :=
  let c := (p.node q).cave
  if c.clearing then p
  else match c.queue with
    | [] => p
    | r :: rest =>
      let p := p.onNode q (fun m => { m with cave := { m.cave with queue := rest } })
      let p := p.caveStore q r ok
      if ok then p else p.caveFail q

/-- cave.clear accepted: the sequence floor is stored at once and both areas are erased (R351). -/
def Plant.caveClear (p : Plant) (q : Part) (rid : Nat) : Plant :=
  (p.put q K.caveSeqFloor (p.get q K.caveLastSeq)).onNode q (fun m => { m with cave := { m.cave with
    clearing := true, clearRid := rid } })

/-- CAVE_CLEAR_DONE: both areas are erased, and CLEARED is the first record of the keep area (R351). -/
def execCaveClearDone (q : Part) (s : State) : Host.Outcome State Fault Refusal :=
  s.onUp q (fun p =>
    let c := (p.node q).cave
    if !c.clearing then p
    else
      let p := p.onNode q (fun m => { m with cave := { m.cave with recs := [], circ := 0, clearing := false } })
      let p := p.caveShow q
      p.caveStore q (p.caveRec q 1 0xFF 3 0 (c.clearRid % 2 ^ 32) []) true)

/-- The record cave.rec reads now, and the Cave with cave.sel one past it (R352). -/
def Plant.caveRead (p : Plant) (q : Part) : List Nat × Plant :=
  let sel := p.getN q K.caveSel
  match (p.node q).cave.recs.find? (fun r => decide (sel ≤ r.seq)) with
  | some r => (r.bytes, p.put q K.caveSel ((r.seq + 1 : Nat) : Int))
  | none => ([], p)

end Sys2Proof.Machine
end

