-- ==== Sys2Proof/Machine/Switching.lean ====
section
/-! DEFINITION. Cell switching, the trim PWM, trip paths, bypass, feedback, inputs and the ADC
(06_cell_switching_and_pwm.md; 02_control_cycle.md R39–R41). -/

namespace Sys2Proof.Machine

/-! ### Gate outputs (R132–R135) -/

/-- The devices of a state: those on, those on during a pulse, those on in a gap; bit n is Tn+1 (R135). -/
def devices (fullBridge fbBypass : Bool) (st : Nat) (neg : Bool) : Nat × Nat × Nat :=
  if fullBridge then
    match st with
    | 1 => (if fbBypass then 5 else 10, 0, 0)
    | 2 => (9, 0, 0)
    | 3 => (6, 0, 0)
    | 4 => if fbBypass then (if neg then (4, 2, 1) else (1, 8, 4)) else if neg then (2, 4, 8) else (8, 1, 2)
    | _ => (0, 0, 0)
  else
    match st with
    | 1 => (2, 0, 0)
    | 2 => (1, 0, 0)
    | 4 => (0, 1, 2)
    | _ => (0, 0, 0)

/-- A cell is a full-bridge (R132). -/
def fullBridge (ty : Nat) : Bool := decide (2 ≤ ty)

/-- The gate outputs of devices: GC4–GC7 switch with GC0–GC3 when devices are doubled (R133). -/
def gatesFor (ty dev : Nat) : Nat := if ty % 2 = 1 then dev + 16 * dev else dev

/-- Gate outputs in use (R132). -/
def gatesUsed (ty : Nat) : Nat := gatesFor ty (if fullBridge ty then 15 else 3)

/-- The cell's devices of a state. -/
def Plant.cellDevices (p : Plant) (c : CellId) (st : Nat) (neg : Bool) : Nat × Nat × Nat :=
  devices (fullBridge (p.getN (.cell c) K.swType)) (p.getN (.cell c) K.swFbBypass == 1) st neg

/-- Inputs that the turn-on of outputs blanks (R154). -/
def Plant.blanks (p : Plant) (c : CellId) (on : Nat) : Nat :=
  (rangeFrom 0 4).foldl (fun m n =>
    if p.getN (.cell c) (K.tripBlankSrc + n) &&& on ≠ 0 ∧ p.getN (.cell c) (K.tripBlank + n) ≠ 0 then m ||| 2 ^ n else m) 0

/-- Drives the gate outputs: an edge ends an output's feedback comparison, a turn-on blanks inputs (R151, R154). -/
def Plant.setGates (p : Plant) (c : CellId) (g : Nat) : Plant :=
  let old := (p.cell c).gates
  let edges := old ^^^ g
  let on := g &&& edges
  let b := p.blanks c on
  p.onCell c (fun e => { e with
    gates := g, compared := (e.compared ||| edges) ^^^ edges, blanked := e.blanked ||| b,
    onAt := (rangeFrom 0 8).foldl (fun t n => if bitOf on n then Tab.set (fun _ => 0) t n p.tick else t) e.onAt })

/-- The outputs of a state turn off now and on after the dead time (R137): those that come on wait. -/
def Plant.aimGates (p : Plant) (c : CellId) (target : Nat) : Plant :=
  let old := (p.cell c).gates
  (p.setGates c (old &&& target)).onCell c (fun e => { e with waiting := target &&& (target ^^^ old) })

/-- Every gate output low at once (R139 lines 1–3). -/
def Plant.gatesLow (p : Plant) (c : CellId) : Plant := (p.setGates c 0).onCell c (fun e => { e with waiting := 0 })

/-- FIRED (R158). -/
def Plant.fired (p : Plant) (c : CellId) : Bool := bitOf (p.getN (.cell c) K.bypStatus) 1

/-- A hard-trip latch is set, or the self-test hold is in force (R139 line 2). -/
def Plant.htHeld (p : Plant) (c : CellId) : Bool :=
  p.getN (.cell c) K.tripLatch != 0 || bitOf (p.getN (.cell c) K.tripSelftest) 2

/-! ### The trim carrier (R142–R149) -/

/-- PRD of a period in ns (R143). -/
def prdOf (period : Nat) : Nat := (rdivUp period 5).toNat
/-- CMP of a duty (R143). -/
def cmpOf (duty prd : Nat) : Nat := (rdivUp (duty * prd) 64).toNat

/-- The reversal of four bits (R146). -/
def rev4 (x : Nat) : Nat := bits x 0 0 * 8 + bits x 1 1 * 4 + bits x 2 2 * 2 + bits x 3 3

/-- CMP as an extreme mode uses it (R148): in DTE no more than PRD. -/
def cmpUsed (cbp : Bool) (prd cmp : Nat) : Nat := if cbp then cmp else min cmp (prd * 1024)

/-- Half the inserted interval in taps of 39.0625 ps, dither included (R142, R146). -/
def halfTaps (cbp dither : Bool) (prd cmp j : Nat) : Nat :=
  let x := cmpUsed cbp prd cmp
  x / 16 + if dither ∧ rev4 (j % 16) < x % 16 then 1 else 0

/-- On-time of the insert-side pulse in taps (R148). -/
def insertOn (cbp : Bool) (half dtIn : Nat) : Int := 2 * (half : Int) - (if cbp then 0 else 64 * dtIn)

/-- On-time of the bypass-side gap around a valley in taps (R148, R149), from the half-widths on both sides. -/
def bypassOn (cbp : Bool) (prd half prd' half' dtIn dtOut : Nat) : Int :=
  (64 * prd : Int) - half + (64 * prd' - half') - 64 * dtOut - (if cbp then 64 * dtIn else 0)

/-- CBP with a compare at or beyond the period: no edges, the insert side stays on (R148). -/
def fullInsert (cbp : Bool) (prd cmp : Nat) : Bool := cbp && decide (prd * 1024 ≤ cmp)

/-- The settings of the pulses: CBP, dither, dead times, shortest pulse in taps. -/
structure PwmSet where
  cbp : Bool
  dither : Bool
  dtIn : Nat
  dtOut : Nat
  minTaps : Int
  deriving DecidableEq, Repr

/-- The settings of a cell. -/
def Plant.pwmSet (p : Plant) (c : CellId) : PwmSet :=
  let q := Part.cell c
  {
    cbp := p.getN q K.pwmExtreme == 1, dither := p.getN q K.pwmDither == 1, dtIn := p.getN q K.pwmDtIn,
    dtOut := p.getN q K.pwmDtOut, minTaps := 64 * p.getN q K.pwmMinPulse }

/-- Shows the shadows' state (R144). -/
def Plant.showPending (p : Plant) (c : CellId) : Plant :=
  let e := (p.cell c).car
  p.put (.cell c) K.pwmPending (((if e.prdPend then 1 else 0) + (if e.armed then 2 else 0) : Nat) : Int)

/-- The polarity and phase in force, from pwm.carrier. -/
def Plant.carrierNeg (p : Plant) (c : CellId) : Bool := bitOf (p.getN (.cell c) K.pwmCarrier) 0
def Plant.carrierPh (p : Plant) (c : CellId) : Bool := bitOf (p.getN (.cell c) K.pwmCarrier) 1

/-- The insert-side outputs of the carrier in force (R135). -/
def Plant.insertGates (p : Plant) (c : CellId) : Nat :=
  gatesFor (p.getN (.cell c) K.swType) (p.cellDevices c 4 (p.carrierNeg c)).2.1

/-- Whole ticks that the insert side has been on (log entry 28). -/
def Plant.insertSince (p : Plant) (c : CellId) : Nat :=
  let ins := p.insertGates c
  p.tick - listMax ((rangeFrom 0 8).map (fun n => if bitOf ins n then Tab.get (fun _ => 0) (p.cell c).onAt n else 0))

/-- A pulse whose insert side has come on and that ends at A shorter than the minimum is counted (R150); a period without edges
is none (R148). -/
def Plant.cutPulse (p : Plant) (c : CellId) (target : Nat) : Plant :=
  let q := Part.cell c
  let ins := p.insertGates c
  let e := p.cell c
  let full := fullInsert (p.pwmSet c).cbp (p.getN q K.pwmPrd) (p.getN q K.pwmCmp)
  if e.car.inserted ∧ !full ∧ e.gates &&& ins = ins ∧ target &&& ins ≠ ins ∧ p.insertSince c < p.getN q K.pwmMinPulse then
    p.bump q K.pwmCut 1
  else p

/-- Leaves TRIM for a state with the outputs of `target`: a pending PRD and an armed load are discarded (R144), so that the shadows
hold what was in force. -/
def Plant.leaveTrim (p : Plant) (c : CellId) (target : Nat) : Plant :=
  let q := Part.cell c
  if p.getN q K.swState = 4 then
    let p := p.cutPulse c target
    (p.onCell c (fun e => { e with
      car := { e.car with
        prdSh := p.getN q K.pwmPrd, cmpSh := p.getN q K.pwmCmp, prdPend := false, armed := false, inserted := false,
        pointTick := 0, loadTick := 0 } })).showPending c
  else p

/-- Puts a state other than TRIM in force (R137). -/
def Plant.setPlain (p : Plant) (c : CellId) (st : Nat) : Plant :=
  let q := Part.cell c
  if p.getN q K.swState = st then p
  else
    let target := gatesFor (p.getN q K.swType) (p.cellDevices c st false).1
    ((p.leaveTrim c target).put q K.swState st).aimGates c target

/-- Holds every output low and shows BLOCK, or FIRED (R139 lines 1–3). It is no apply instant: a pulse it ends is none of R150's. -/
def Plant.holdLow (p : Plant) (c : CellId) (st : Nat) : Plant :=
  ((p.leaveTrim c 0xFF).put (.cell c) K.swState st).gatesLow c

/-- How a carrier that starts at A begins: whether the insert side is aimed at, the bypass side, and whether a pulse or a gap is left
out. `gates` are the outputs before A. Phase 180 starts in the second half of a pulse, unless that is too short; phase 0 starts in a gap
that ends at t1, unless that is too short (R143, R148, R149; log entry 28). -/
def trimStart (w : PwmSet) (ph : Bool) (prd cmp gates ins byp : Nat) : Bool × Bool × Bool :=
  let half : Int := halfTaps w.cbp w.dither prd cmp 0
  let dtC : Int := 64 * max w.dtIn w.dtOut
  let insOn := decide (gates &&& ins = ins)
  let bypOn := decide (gates &&& byp = byp)
  let gap := 64 * prd - half - dtC - (if w.cbp then 64 * w.dtIn else 0)
  if cmp = 0 then (false, true, false)
  else if fullInsert w.cbp prd cmp then (true, false, false)
  else if ph then (if !insOn && decide (half - dtC < w.minTaps) then (false, true, true) else (true, false, false))
  else if !bypOn && decide (gap < w.minTaps) then (insOn, false, true)
  else (false, true, false)

/-- Enters TRIM at A with its registers in force at once (R143): at the valley, which is a load point (R145), or at the peak. -/
def Plant.enterTrim (p : Plant) (c : CellId) (neg ph : Bool) (prd cmp : Nat) : Plant :=
  let q := Part.cell c
  let ty := p.getN q K.swType
  let d := p.cellDevices c 4 neg
  let b := trimStart (p.pwmSet c) ph prd cmp (p.cell c).gates (gatesFor ty d.2.1) (gatesFor ty d.2.2)
  let target := gatesFor ty (d.1 + (if b.1 then d.2.1 else 0) + (if b.2.1 then d.2.2 else 0))
  let p := p.leaveTrim c target
  let p := if b.2.2 then p.bump q K.pwmSuppressed 1 else p
  let p := (((p.put q K.swState 4).put q K.pwmPrd prd).put q K.pwmCmp cmp).put q K.pwmCarrier
    (((if neg then 1 else 0) + (if ph then 2 else 0) : Nat) : Int)
  let p := p.onCell c (fun e => { e with
    car := {
             prdSh := prd, cmpSh := cmp, prdPend := false, armed := false, j := 0, inserted := b.1,
             pointTick := if ph then 0 else p.tick + 1, loadTick := 0 } })
  (p.aimGates c target).showPending c

/-- The insert side turns off and the bypass side turns on after its dead time (R148). -/
def Plant.insertOff (p : Plant) (c : CellId) : Plant :=
  let d := p.cellDevices c 4 (p.carrierNeg c)
  (p.aimGates c (gatesFor (p.getN (.cell c) K.swType) (d.1 + d.2.2))).onCell c (fun e => { e with
    car := { e.car with inserted := false } })

/-- An insert side that is on at a valley where registers load (R148, R149; log entry 28): with no inserted interval to come it turns
off, counted nowhere; where a period without edges ends, the gap to the next pulse is judged from the valley. -/
def Plant.valleyGap (p : Plant) (c : CellId) (prd cmp j : Nat) : Plant :=
  let q := Part.cell c
  let w := p.pwmSet c
  let prd' := p.getN q K.pwmPrd
  let cmp' := p.getN q K.pwmCmp
  if cmp' = 0 then p.insertOff c
  else if !fullInsert w.cbp prd cmp ∨ fullInsert w.cbp prd' cmp' then p
  else if bypassOn w.cbp prd (64 * prd) prd' (min (halfTaps w.cbp w.dither prd' cmp' j) (64 * prd')) w.dtIn w.dtOut < w.minTaps then
    p.bump q K.pwmSuppressed 1
  else p.insertOff c

/-- A load with the load armed: CMP, and PRD if its shadow was written since the last load (R144); an insert side that no interval of the
new registers keeps on turns off (R149). -/
def Plant.loadRegs (p : Plant) (c : CellId) : Plant :=
  let q := Part.cell c
  let e := p.cell c
  let prd := p.getN q K.pwmPrd
  let cmp := p.getN q K.pwmCmp
  let p := if e.car.prdPend then p.put q K.pwmPrd e.car.prdSh else p
  let p := p.put q K.pwmCmp e.car.cmpSh
  let p := (p.onCell c (fun e => { e with
    car := { e.car with armed := false, prdPend := false, loadTick := p.tick + 1 } })).showPending c
  if e.car.inserted then p.valleyGap c prd cmp e.car.j else p

/-- Writes the PRD shadow; in the tick of a load it joins that load (R144). -/
def Plant.writePrd (p : Plant) (c : CellId) (v : Nat) : Plant :=
  let joins := (p.cell c).car.loadTick == p.tick + 1
  let p := (p.onCell c (fun e => { e with car := { e.car with prdSh := v, prdPend := !joins } })).showPending c
  if joins then p.put (.cell c) K.pwmPrd v else p

/-- Writes the CMP shadow and arms the load; in the tick of a load point it loads at that point (R144). -/
def Plant.writeCmp (p : Plant) (c : CellId) (v : Nat) : Plant :=
  let p := (p.onCell c (fun e => { e with car := { e.car with cmpSh := v, armed := true } })).showPending c
  if (p.cell c).car.pointTick = p.tick + 1 then p.loadRegs c else p

/-- Takes up a command at A (R136–R138). -/
def Plant.takeUp (p : Plant) (c : CellId) (m : Cmd) : Plant :=
  let q := Part.cell c
  let bad := !fullBridge (p.getN q K.swType) && (m.state == 3 || (m.state == 4 && m.neg))
  if bad then ((p.bump q K.swBadCmd 1).raise q 23 0).setPlain c 1
  else if m.state = 4 then
    let prd := prdOf m.period
    let cmp := cmpOf m.duty prd
    if p.getN q K.swState = 4 ∧ p.carrierNeg c = m.neg ∧ p.carrierPh c = m.ph then (p.writePrd c prd).writeCmp c cmp
    else p.enterTrim c m.neg m.ph prd cmp
  else p.setPlain c m.state

/-- Leaves bench mode for BLOCK (R161). -/
def Plant.leaveBench (p : Plant) (c : CellId) : Plant :=
  if p.getN (.cell c) K.swBench = 1 then
    let p := p.put (.cell c) K.swBench 0
    if p.fired c then p else p.setPlain c 0
  else p

/-- Puts sw.bench_state in force at A: TRIM with polarity +1 and phase 0 (R161). -/
def Plant.benchApply (p : Plant) (c : CellId) : Plant :=
  let q := Part.cell c
  let car := (p.cell c).car
  if p.getN q K.swBenchState ≠ 4 then p.setPlain c (p.getN q K.swBenchState)
  else if p.getN q K.swState ≠ 4 then p.enterTrim c false false car.prdSh car.cmpSh
  else if p.getN q K.pwmCarrier = 0 then p
  else p.enterTrim c false false (p.getN q K.pwmPrd) (p.getN q K.pwmCmp)

/-- The apply instant A_k with a valid command (R139, R140, 02 R41): the loss action and the hold end, and a trip hold does when the command
came after the trip frame; lines 1 to 3 of R139 keep the outputs low. -/
def Plant.applyValid (p : Plant) (c : CellId) (k : Nat) (f : Filed) : Plant :=
  let q := Part.cell c
  let p := (p.put q K.cycleInLoss 0).onCell c (fun e => { e with
    missRun := 0, hold := false, tripHold := e.tripHold && f.stale })
  if p.fired c ∨ p.htHeld c ∨ (p.cell c).tripHold then p
  else if p.getN q K.swBench = 1 then p.benchApply c
  else (p.takeUp c f.cmd).onCell c (fun e => { e with cmd := f.cmd, cseq := k % 256, hasCmd := true })

/-- An apply instant without a valid command (02 R39, R40). -/
def Plant.applyNone (p : Plant) (c : CellId) : Plant :=
  let q := Part.cell c
  let p := (p.bump q K.cycleMissed 1).onCell c (fun e => { e with missRun := e.missRun + 1, hold := true })
  if p.fired c ∨ p.htHeld c ∨ (p.cell c).tripHold ∨ p.getN q K.swBench ≠ 1 then p else p.benchApply c

/-- APPLY_INSTANT: at A_k the cell applies its valid command, or holds (R137–R141; 02 R39–R41), in ACTIVE alone (07 R185). A cell that
has not been locked since its reset accepts no command and knows no k: it counts the instant on its own network time (10 R276). -/
def execApplyInstant (c : CellId) (s : State) : Host.Outcome State Fault Refusal :=
  s.onUp (.cell c) (fun p =>
    let e := p.cell c
    let k := e.applied + 1
    let mine := if e.everLocked then e.filed.find? (fun f => f.k == k) else none
    let p := if e.everLocked then
        p.onCell c (fun e => { e with applied := k, filed := e.filed.filter (fun f => decide (k < f.k)) })
      else p
    if p.getN (.cell c) K.pwrState ≠ 0 then p
    else match mine with
      | some f => p.applyValid c k f
      | none => p.applyNone c)

/-- LOSS_ACTION: after cycle.cmd_loss_cycles apply instants without a valid command the cell takes its loss action
(02 R41); a FIRED cell stays in FIRED, and reports the loss action. -/
def execLossAction (c : CellId) (s : State) : Host.Outcome State Fault Refusal :=
  s.onUp (.cell c) (fun p =>
    let q := Part.cell c
    if (p.cell c).missRun < p.getN q K.cycleCmdLossCycles ∨ p.getN q K.pwrState ≠ 0 then p
    else
      let p := (p.leaveBench c).put q K.cycleInLoss 1
      if p.fired c ∨ p.htHeld c ∨ (p.cell c).tripHold then p
      else p.setPlain c (if p.getN q K.cycleLossAction = 0 then 1 else 0))

/-- The gate outputs that switch with GCn: with parallel devices, both of its position (R133). -/
def gatesWith (ty : Nat) (n : Nat) : Nat := if ty % 2 = 1 then gatesFor ty (2 ^ (n % 4)) else 2 ^ n

/-- GATE_TURN_ON: an output that waits goes high after its dead time, with the parallel output of its position (R133, R137, R148). -/
def execGateTurnOn (c : CellId) (n : Pin8) (s : State) : Host.Outcome State Fault Refusal :=
  s.on (fun p =>
    let e := p.cell c
    let on := e.waiting &&& gatesWith (p.getN (.cell c) K.swType) n.val
    if bitOf e.waiting n.val then
      (p.setGates c (e.gates ||| on)).onCell c (fun e => { e with waiting := e.waiting ^^^ on })
    else p)

/-- PWM_VALLEY: the next period begins; at a load point with the load armed the registers load (R144). -/
def execPwmValley (c : CellId) (s : State) : Host.Outcome State Fault Refusal :=
  s.onUp (.cell c) (fun p =>
    let q := Part.cell c
    if p.getN q K.swState ≠ 4 then p
    else
      let j := (p.cell c).car.j + 1
      let point := decide (j % p.getN q K.pwmLoadEvery = 0)
      let p := p.onCell c (fun e => { e with
        car := { e.car with j := j, pointTick := if point then p.tick + 1 else e.car.pointTick } })
      if point ∧ (p.cell c).car.armed then p.loadRegs c else p)

/-- The registers in force after the coming valley, as far as a load is armed (R149). -/
def Plant.nextRegs (p : Plant) (c : CellId) : Nat × Nat :=
  let q := Part.cell c
  let e := (p.cell c).car
  if e.armed ∧ (e.j + 1) % p.getN q K.pwmLoadEvery = 0 then
    (if e.prdPend then e.prdSh else p.getN q K.pwmPrd, e.cmpSh)
  else (p.getN q K.pwmPrd, p.getN q K.pwmCmp)

/-- Network time left to the cell's next apply instant A_(k+1), in taps (R150, 02 R30). -/
def Plant.tapsToApply (p : Plant) (c : CellId) : Int :=
  let sc := (p.node (.cell c)).sched
  (100 * ((((p.cell c).applied : Int) + 1 - sc.k) * sc.tc + sc.ta) - p.sinceS (.cell c)) * 64 / 250

/-- The state the cell holds for its next apply instant turns the insert side of the carrier off: a plain state without it, or a TRIM
that starts again with a gap (R138, R150). Without a valid command it holds its state, unless it is in bench mode. -/
def Plant.endsPulse (p : Plant) (c : CellId) : Bool :=
  let q := Part.cell c
  let e := p.cell c
  let ins := p.insertGates c
  let plain := fun st => gatesFor (p.getN q K.swType) (p.cellDevices c st false).1 &&& ins != ins
  if p.getN q K.swBench = 1 then p.getN q K.swBenchState != 4 && plain (p.getN q K.swBenchState)
  else match if e.everLocked then e.filed.find? (fun f => f.k == e.applied + 1) else none with
    | none => false
    | some f =>
      if f.cmd.state ≠ 4 then plain f.cmd.state
      else (f.cmd.neg != p.carrierNeg c || f.cmd.ph != p.carrierPh c) &&
        !(f.cmd.ph && f.cmd.neg == p.carrierNeg c && decide (f.cmd.duty ≠ 0))

/-- On-time in taps of the pulse that begins at t1: up to t2, or up to the next apply instant where the command held now ends it there
(R148, R150). -/
def Plant.pulseOn (p : Plant) (c : CellId) (cbp : Bool) (half dtIn : Nat) : Int :=
  let w := insertOn cbp half dtIn
  let left := p.tapsToApply c - 64 * dtIn
  if p.endsPulse c ∧ 0 ≤ p.tapsToApply c then min w left else w

/-- TRIM_EDGE: `up` is the edge at t1, where a pulse is judged, otherwise the one at t2, where the gap that follows is judged
with the registers in force after the valley (R148, R149). -/
def execTrimEdge (c : CellId) (up : Bool) (s : State) : Host.Outcome State Fault Refusal :=
  s.onUp (.cell c) (fun p =>
    let q := Part.cell c
    if p.getN q K.swState ≠ 4 then p
    else
      let w := p.pwmSet c
      let e := (p.cell c).car
      let prd := p.getN q K.pwmPrd
      let cmp := p.getN q K.pwmCmp
      let ty := p.getN q K.swType
      let d := p.cellDevices c 4 (p.carrierNeg c)
      let half := halfTaps w.cbp w.dither prd cmp e.j
      if up then
        if e.inserted ∨ cmp = 0 then p
        else if !fullInsert w.cbp prd cmp ∧ p.pulseOn c w.cbp half w.dtIn < w.minTaps then
          p.bump q K.pwmSuppressed 1
        else
          (p.aimGates c (gatesFor ty (d.1 + d.2.1))).onCell c (fun x => { x with
            car := { x.car with inserted := true } })
      else if !e.inserted ∨ fullInsert w.cbp prd cmp then p
      else
        let r := p.nextRegs c
        let half' := halfTaps w.cbp w.dither r.1 r.2 (e.j + 1)
        let half' := if w.cbp then min half' (64 * r.1) else half'
        if r.2 ≠ 0 ∧ bypassOn w.cbp prd half r.1 half' w.dtIn w.dtOut < w.minTaps then p.bump q K.pwmSuppressed 1
        else
          (p.aimGates c (gatesFor ty (d.1 + d.2.2))).onCell c (fun x => { x with car := { x.car with inserted := false } }))

/-! ### Reports (R141, R162; 09 R236–R238) -/

/-- The STATE byte now (R141). -/
def Plant.stateByte (p : Plant) (c : CellId) : Nat :=
  let q := Part.cell c
  let e := p.cell c
  let code := if p.fired c then 5 else if p.htHeld c ∨ e.tripHold then 0 else p.getN q K.swState
  (if p.htHeld c then 128 else 0) + (if p.getN q K.swBench = 1 then 64 else 0) + (if e.hold then 32 else 0) + code

/-- The time base counts as locked: LOCKED or HOLDOVER (10 R276). -/
def Plant.locked (p : Plant) (q : Part) : Bool := p.getN q K.timeState == 2 || p.getN q K.timeState == 3

/-- The cycle whose S the cell takes its sample at: its schedule moved on to its network time (02 R29), and never the cycle
of the sample before. -/
def Plant.sampleK (p : Plant) (c : CellId) : Nat :=
  let q := Part.cell c
  let sc := (p.node q).sched
  let d := (2 * p.sinceS q + 100 * sc.tc) / (200 * (sc.tc : Int))
  let k := sc.k + (if sc.valid ∧ 0 < d then d.toNat else 0)
  if k ≤ (p.cell c).sample.k then (p.cell c).sample.k + 1 else k

/-- CELL_SAMPLE: at S the cell samples its two ADC channels (R162), with the state in force (R141). -/
def execCellSample (c : CellId) (vcode icode : BitVec 16) (s : State) : Host.Outcome State Fault Refusal :=
  s.onUp (.cell c) (fun p =>
    if p.getN (.cell c) K.pwrState ≤ 1 then
      let k := p.sampleK c
      let st := p.stateByte c
      p.onCell c (fun e => { e with
        pendV := vcode.toNat, pendI := icode.toInt,
        sample := { k := k, v := e.sample.v, i := e.sample.i, state := st, cseq := if e.hasCmd then e.cseq else 0 } })
    else p)

/-- The measured cell voltage in µV (R162). -/
def Plant.cellUv (p : Plant) (c : CellId) : Int :=
  ((p.getN (.cell c) K.adcVCode : Int) - p.get (.cell c) K.adcVOffset) * p.get (.cell c) K.adcVGain

/-- ADC_COMPLETE: the codes are ready; one at either end of its range is counted, and 50 V ends bench mode (R161, R162). -/
def execAdcComplete (c : CellId) (s : State) : Host.Outcome State Fault Refusal :=
  s.onUp (.cell c) (fun p =>
    let q := Part.cell c
    let e := p.cell c
    let p := (p.put q K.adcVCode e.pendV).put q K.adcICode e.pendI
    let p := p.onCell c (fun e => { e with sample := { e.sample with v := e.pendV, i := e.pendI } })
    let p := if e.pendV = 0 ∨ e.pendV = 65535 ∨ e.pendI = -32768 ∨ e.pendI = 32767 then
        (p.bump q K.adcRange 1).raise q 26 0 else p
    if 50000000 ≤ p.cellUv c then p.leaveBench c else p)

/-- The STATUS byte of a report (09 R238). -/
def Plant.statusByte (p : Plant) (c : CellId) : Nat :=
  let q := Part.cell c
  let e := p.cell c
  (if e.viol then 128 else 0) + (if e.chkErr then 64 else 0) + p.lsev q % 4 * 16 +
    (if p.getN q K.cycleInLoss = 1 then 8 else 0) + (if e.tripRx then 4 else 0) + (if p.locked q then 0 else 2) +
    (if e.hasCmd then 0 else 1)

/-- V of a report (09 R237): the sample in units of d µV, halves up, within its field. -/
def reportV (uv : Int) (d w : Nat) : Nat :=
  let x := rdivUp uv d
  if x < 0 then 0 else min x.toNat (2 ^ w - 1)

/-- The bytes of a report slot but SCHK, full or compact (09 R236). -/
def Plant.reportBytes (p : Plant) (c : CellId) (compact : Bool) : List Nat :=
  let q := Part.cell c
  let e := p.cell c
  let uv := ((e.sample.v : Int) - p.get q K.adcVOffset) * p.get q K.adcVGain
  let i := clampI (-32767) 32767 (e.sample.i - p.get q K.adcIOffset)
  let head := [e.sample.k % 256, e.sample.state, p.statusByte c]
  if compact then head ++ beBytes 3 (reportV uv 1000 24) ++ [e.sample.cseq]
  else
    head ++ [e.sample.cseq] ++ beBytes 4 (reportV uv 10 32) ++ beBytes 2 (unsigned 16 i) ++ [p.getN q K.diState] ++
      [p.getN q K.nrgState * 32] ++ beBytes 2 (unsigned 16 (clampI (-32767) 32767 (p.get q K.nrgAvail / 100))) ++ [0]

/-- The blocks of a report slot with its SCHK (09 R237). -/
def Plant.reportSlot (p : Plant) (c : CellId) (compact : Bool) : List Nat :=
  let b := p.reportBytes c compact
  let b := b ++ [crc8 b]
  if compact then [ofBe b] else [ofBe (b.take 8), ofBe (b.drop 8)]

/-- The flags that a report has shown clear (09 R238). -/
def Plant.reported (p : Plant) (c : CellId) : Plant :=
  p.onCell c (fun e => { e with viol := false, chkErr := false, tripRx := false })

/-! ### Firing (R156–R160) -/

/-- A fire decision with its cause (R158); cause 4 sends no pulse. -/
def Plant.fire (p : Plant) (c : CellId) (cause : Nat) : Plant :=
  let q := Part.cell c
  if p.fired c then p
  else
    let p := (p.holdLow c 5).put q K.bypStatus ((p.getN q K.bypStatus ||| 2 : Nat) : Int)
    let p := ((p.put q K.bypCause cause).bump q K.bypFires 1).capEvent c 4
    let p := p.onCell c (fun e => { e with
                                           fireWait := false, firing := cause != 4, retries := p.getN q K.bypRetries,
                                           confirmed := cause == 4 })
    if p.up q then
      let p := p.raise q 20 cause
      if cause = 4 then p.raise q 22 0 else p
    else p

/-- FIRE_PULSE_END: BYP_FIRE falls after byp.pulse (R158). -/
def execFirePulseEnd (c : CellId) (s : State) : Host.Outcome State Fault Refusal :=
  s.on (fun p => p.onCell c (fun e => { e with firing := false }))

/-- BYP_CONFIRM_TIMEOUT: closure not shown in time repeats the pulse, or raises local source 21 after the last (R159). -/
def execBypConfirmTimeout (c : CellId) (s : State) : Host.Outcome State Fault Refusal :=
  s.on (fun p =>
    let q := Part.cell c
    let e := p.cell c
    if !p.fired c ∨ e.confirmed then p
    else if 0 < e.retries then p.onCell c (fun e => { e with firing := true, retries := e.retries - 1 })
    else (p.put q K.bypStatus ((p.getN q K.bypStatus ||| 4 : Nat) : Int)).raise q 21 0)

/-- byp.unfire accepted: the cell enters BLOCK, whatever its state, and the stored flag is clear (R160). -/
def Plant.unfire (p : Plant) (c : CellId) : Plant :=
  let q := Part.cell c
  ((p.put q K.bypStatus ((p.getN q K.bypStatus &&& 1 : Nat) : Int)).setPlain c 0).endAcked q

/-! ### Hard trips (R153–R157) -/

/-- PATH_DISAGREE: one path has latched an input and the other has not within 1 µs (R155). -/
def execPathDisagree (c : CellId) (n : Pin4) (s : State) : Host.Outcome State Fault Refusal :=
  s.onUp (.cell c) (fun p =>
    let l := p.getN (.cell c) K.tripLatch
    if bitOf l n.val != bitOf l (n.val + 4) then p.raise (.cell c) 18 n.val else p)

/-- BLANK_EXPIRE: the paths watch the input again (R154). -/
def execBlankExpire (c : CellId) (n : Pin4) (s : State) : Host.Outcome State Fault Refusal :=
  s.on (fun p => p.onCell c (fun e => { e with blanked := setBit e.blanked n.val false }))

/-- trip.clear: both latches of the named inputs clear (R155). -/
def Plant.tripClear (p : Plant) (c : CellId) (m : Nat) : Plant :=
  let q := Part.cell c
  let n := m % 16
  let keep := 0xFF ^^^ (n + 16 * n)
  let p := p.put q K.tripLatch ((p.getN q K.tripLatch &&& keep : Nat) : Int)
  (p.onCell c (fun e => { e with counted := e.counted &&& (15 ^^^ n) })).endAcked q

/-- The self-test of both paths at a release of reset (R157). -/
def Plant.selfTest (p : Plant) (c : CellId) (x y : Bool) : Plant :=
  let q := Part.cell c
  let p := p.put q K.tripSelftest (((if x then 1 else 0) + (if y then 2 else 0) + (if x && y then 0 else 4) : Nat) : Int)
  if x && y then p else p.raise q 24 0

/-- HT_TRIP: an enabled input that is not blanked trips path X, path Y or both (R153–R156): the latch, every output low, the
sources, one count for the trip of the input, and the firing delay. -/
def execHtTrip (c : CellId) (n : Pin4) (x y : Bool) (s : State) : Host.Outcome State Fault Refusal :=
  s.onUp (.cell c) (fun p =>
    let q := Part.cell c
    if !bitOf (p.getN q K.tripEn) n.val || bitOf (p.cell c).blanked n.val then p
    else
      let old := p.getN q K.tripLatch
      let setX := x && !bitOf old n.val
      let setY := y && !bitOf old (n.val + 4)
      if !setX && !setY then p
      else
        let fires := bitOf (p.getN q K.tripFire) n.val && !p.fired c && !(p.cell c).fireWait
        let delay := p.getN q K.tripFireDelay
        let isNew := !bitOf (p.cell c).counted n.val
        let p := p.put q K.tripLatch ((old ||| (if x then 2 ^ n.val else 0) ||| (if y then 16 * 2 ^ n.val else 0) : Nat) : Int)
        let p := (p.holdLow c (if p.fired c then 5 else 0)).capEvent c 3
        let p := if isNew then
          (p.bump q K.tripCount 1).onCell c (fun e => { e with counted := e.counted ||| 2 ^ n.val }) else p
        let p := if setX then p.raise q 16 n.val else p
        let p := if setY then p.raise q 17 n.val else p
        if fires then
          if delay = 0 then p.fire c 1 else p.onCell c (fun e => { e with fireWait := true })
        else p)

/-- FIRE_DELAY_EXPIRE: trip.fire_delay has run out in the always-on domain (R156). -/
def execFireDelayExpire (c : CellId) (s : State) : Host.Outcome State Fault Refusal :=
  s.on (fun p => if (p.cell c).fireWait then (p.onCell c (fun e => { e with fireWait := false })).fire c 1 else p)

/-- BYP_STAT shows the switch closed or open; closed in a cell that is not FIRED is a fire decision with cause 4 (R158), in one that is,
it confirms the closure (R159). -/
def Plant.showStat (p : Plant) (c : CellId) (closed : Bool) : Plant :=
  let q := Part.cell c
  let p := p.put q K.bypStatus ((setBit (p.getN q K.bypStatus) 0 closed : Nat) : Int)
  if !closed then p
  else if p.fired c then p.onCell c (fun e => { e with confirmed := true })
  else p.fire c 4

/-- The polarity of BYP_STAT is as byp.stat_pol says: the level the pin has had since it was seen is read by it (R159; log entry 16). -/
def Plant.readStat (p : Plant) (c : CellId) : Plant :=
  match (p.cell c).bypPin with
  | none => p
  | some level =>
    let closed := level != (p.getN (.cell c) K.bypStatPol == 1)
    if closed = bitOf (p.getN (.cell c) K.bypStatus) 0 then p else p.showStat c closed

/-- BYP_STAT_CLOSED: the pin takes its level for closed, and the switch shows closed (R158, R159). -/
def execBypStatClosed (c : CellId) (s : State) : Host.Outcome State Fault Refusal :=
  s.on (fun p =>
    let high := p.getN (.cell c) K.bypStatPol != 1
    (p.onCell c (fun e => { e with bypPin := some high })).showStat c true)

/-! ### Feedback and inputs (R151, R152) -/

/-- FB_WINDOW_EXPIRE: the comparison of GFn starts (R151). -/
def execFbWindowExpire (c : CellId) (n : Pin8) (s : State) : Host.Outcome State Fault Refusal :=
  s.onUp (.cell c) (fun p =>
    if bitOf (gatesUsed (p.getN (.cell c) K.swType)) n.val then
      p.onCell c (fun e => { e with compared := e.compared ||| 2 ^ n.val }) else p)

/-- GF_MISMATCH: a feedback differs from its output for 40 ns (R151). -/
def execGfMismatch (c : CellId) (n : Pin8) (s : State) : Host.Outcome State Fault Refusal :=
  s.onUp (.cell c) (fun p =>
    let q := Part.cell c
    if bitOf (p.cell c).compared n.val then
      (p.put q K.swFbFault ((p.getN q K.swFbFault ||| 2 ^ n.val : Nat) : Int)).raise q 19 n.val
    else p)

/-- sw.fb_clear (R151). -/
def Plant.fbClear (p : Plant) (c : CellId) (m : Nat) : Plant :=
  let q := Part.cell c
  (p.put q K.swFbFault ((p.getN q K.swFbFault &&& (0xFF ^^^ (m % 256)) : Nat) : Int)).endAcked q

/-- DI_CHANGE: a filtered input takes a new level (R152). -/
def execDiChange (c : CellId) (n : Pin8) (level : Bool) (s : State) : Host.Outcome State Fault Refusal :=
  s.onUp (.cell c) (fun p =>
    let q := Part.cell c
    let active := level != bitOf (p.getN q K.diPol) n.val
    let was := bitOf (p.getN q K.diState) n.val
    let p := p.put q K.diState ((setBit (p.getN q K.diState) n.val active : Nat) : Int)
    if active && !was && bitOf (p.getN q K.diFunc) n.val then p.raise q 25 n.val else p)

end Sys2Proof.Machine
end

