-- ==== Sys2Proof/Machine/Persist.lean ====
section
/-! DEFINITION. What resets and starts do to a part as a node of the dictionary: what survives, stored values, the reset
cause, the START record (16_reset_startup_persistence.md R429–R443). -/

namespace Sys2Proof.Machine

/-! ### What survives (R436) -/

/-- The scopes of R436: power-on, RESET_N (and the ledger floor), the core alone (watchdog, soft, Rind-requested), AON. -/
inductive Scope where
  | por | pin | core | aon
  deriving DecidableEq, Repr

/-- Objects that show a pin, a sensor or the content of the flash now, whatever was reset: pwr.rails, pwr.tj, the versions
in the firmware slots. -/
def liveObj (key : Nat) : Bool :=
  key == K.pwrRails || key == K.pwrTj || key == K.bootFwVer0 || key == K.bootFwVer1

/-- Parameters with which the always-on domain measures, plans, times and fires, which only a power-on reset takes from it (07 R168, R187;
log entry 82). -/
def alwaysOnPar (key : Nat) : Bool :=
  key / 256 == 0x2800 || key / 256 == 0x2801 || key == K.aonBypassOnResetTime || key == K.tripFireDelay ||
    (decide (K.bypPulse ≤ key) && decide (key ≤ K.bypStatPol))

/-- Objects of a cell's always-on domain and, while its lanes stay in pass-through, their state (07 R168, R180). -/
def alwaysOn (sc : Scope) (key : Nat) : Bool :=
  key / 256 == 0x2810 || key == K.aonRcFreq || alwaysOnPar key ||
    ((sc == .pin || sc == .core) && (key / 256 == 0x3800 || key / 256 == 0x3801) && (key % 256 == 2 || key % 256 == 3))

/-- Objects that the Rind's channels hold themselves: parameters, states, fault words and outputs (11 R292, 16 R435). -/
def rindHeld (key : Nat) : Bool :=
  decide (0x6000 ≤ key / 256 ∧ key / 256 ≤ 0x60FF) || (decide (K.rindSaState ≤ key) && decide (key ≤ K.rindSbFault)) ||
    key == K.rindOut

/-- A value in effect of class P is in the immediate area or fixed at manufacture (R442). -/
def immediate (r : ObjRow) : Bool := r.pers == .p && r.acc == .ro

/-- Whether an object keeps its value in effect through a reset (R436). -/
def survives (kind : Nat) (sc : Scope) (key : Nat) : Bool :=
  liveObj key ||
  (match memberRow kind key with
    | some r => immediate r || (r.pers == .k && sc == .core) || (kind == 2 && sc != .por && alwaysOn sc key) ||
        (kind == 0 && sc == .core && rindHeld key)
    | none => match shadowRow kind key with
      | some r => r.pers == .k && sc == .core
      | none => false)

/-- Whether a DOMAIN or STRING value stays: key hashes are fixed for good (R439); id.name is class P. -/
def blobSurvives (kind : Nat) (sc : Scope) (key : Nat) : Bool :=
  decide (K.bootKeyProg ≤ key ∧ key < K.bootKeyProg + 2) ||
  (match rowOf kind key with
    | none => false
    | some r => r.pers == .k && sc == .core)

/-- Records that wait and are lost with the core: a cell counts them in nrg.lost (07 R177). -/
def Plant.loseQueue (p : Plant) (q : Part) : Plant :=
  let n := (p.node q).cave.queue.length
  if q.kind = 2 ∧ 0 < n then p.bump q K.nrgLost n else p

/-- A loss of power may tear the record being written (R450, 12 R349): the manual leaves open whether one was. -/
def Plant.tear (p : Plant) (q : Part) (sc : Scope) : Plant :=
  if sc = .por ∧ p.up q ∧ !(p.node q).cave.queue.isEmpty then
    let (v, p) := p.free
    if v % 2 = 1 then p.onNode q (fun n => { n with cave := { n.cave with torn := n.cave.torn + 1 } }) else p
  else p

/-- What holds the core in reset or unpowered: its cause joins those gathered since the previous start (R437); a firmware
write is cut, which leaves its slot invalid, and a store sequence leaves the previous copy in force (R450). -/
def Plant.nodeDown (p : Plant) (q : Part) (sc : Scope) (cause : Nat) : Plant :=
  let p := (p.tear q sc).loseQueue q
  let other := if p.getN q K.bootFwSlot = 0 then K.bootFwVer1 else K.bootFwVer0
  let p := if (p.node q).power.fwWriting then p.put q other 0 else p
  p.onNode q (fun n => { n with
    objs := n.objs.filter (fun e => survives q.kind sc e.1),
    blobs := n.blobs.filter (fun e => blobSurvives q.kind sc e.1),
    cave := { n.cave with queue := [] },
    faults := default, clock := default, sched := default,
    lanes := if q.kind = 2 ∧ (sc = .pin ∨ sc = .core) then n.lanes else [],
    slotSwitch := [], seg := none, ckDone := [],
    power := { n.power with
      core := false, storing := false, softDue := false, fwWriting := false, snap := [], snapBlobs := [], imageDue := false,
      longFlag := if sc = .por then false else n.power.longFlag,
      causes := (if sc = .por then 0 else n.power.causes) ||| cause } })

/-! ### Starting (R436, R437, R443, 12 R348, R349) -/

/-- The shadow of a class RWC object. -/
def shadowOf (kind key : Nat) : List Nat :=
  match memberRow kind key with
  | some r => if hasShadow r then [key + 0x40] else []
  | none => []

/-- Marks that a copy holds the descriptors of the item slots; they stand under the keys above it, 16 for each slot: the
control word, arm mask, entry and tag words (05 R131). -/
def slotMark : Nat := 2 ^ 32 - 1

/-- The descriptors in effect, as a store sequence writes them. -/
def slotPart (slots : Tab SlotState) : Tab Int :=
  (slots.filter (fun e => decide (e.1 < 4032))).flatMap (fun e =>
    ((e.2.ctrl :: e.2.arms :: e.2.entry :: e.2.tags).zipIdx.map (fun v =>
      (slotMark + 1 + e.1 * 16 + v.2, (v.1 : Int)))).filter (fun v => v.2 != 0))

/-- The stored values of class P objects in effect; after store.restore the defaults are, and id.name and the stored engine
package alone stay (R443). -/
def Plant.loadStored (p : Plant) (q : Part) : Plant :=
  p.onNode q (fun n => { n with
    objs := (n.stored.filter (fun e => decide (e.1 < slotMark) && (rindHeld e.1 || !n.power.restore))).foldl (fun o e =>
      (e.1 :: shadowOf q.kind e.1).foldl (fun o k => Tab.set (objDefault q.node) o k e.2) o) n.objs,
    blobs := n.storedBlobs.foldl (fun o e =>
      if n.power.restore && e.1 != K.idName && e.1 != K.engPackage then o else Tab.set (fun _ => []) o e.1 e.2) n.blobs })

/-- The scan of the Cave at a start (12 R349, R356). -/
def Plant.scanCave (p : Plant) (q : Part) : Plant :=
  let c := (p.node q).cave
  let last := listMax (c.recs.map (·.seq))
  let p := p.put q K.caveLastSeq (max (last : Int) (p.get q K.caveSeqFloor))
  let p := (p.caveShow q).put q K.caveTorn c.torn
  p.onNode q (fun n => { n with cave := { n.cave with torn := 0 } })

/-- Sources of a watchdog reset and of a long reset (R430, R433). -/
def startSources (kind : Nat) : Nat × Nat := if kind = 0 then (122, 123) else (2, 3)

/-- A part's core starts: stored values in effect, in the always-on domain as well, firmware slot, causes shown, START
recorded, sources raised. -/
def Plant.nodeUp (p : Plant) (q : Part) : Plant :=
  let w := (p.node q).power
  let cause := w.causes ||| (if w.longFlag then 128 else 0)
  let path := w.pins.fwPath.val
  let slot := if path = 1 then 1 - w.fwNamed else w.fwNamed
  let p := p.onNode q (fun n => { n with objs := if q.kind = 2 then n.objs.filter (fun e => !alwaysOnPar e.1) else n.objs })
  let p := p.loadStored q
  let p := p.onNode q (fun n => { n with
    clock := { (default : Clock) with l0 := p.tick, oAt := p.tick },
    power := { n.power with core := true, causes := 0, longFlag := false, releasedAt := p.tick } })
  let p := p.scanCave q
  let p := ((p.put q K.rstCause cause).put q K.rstHeld (min w.heldMs 0xFFFFFFFF : Nat)).bump q K.rstStarts 1
  let p := (p.put q K.bootStatus path).bump q K.bootVerifyFail path
  let p := if path = 2 then p else
    (p.put q K.bootFwSlot slot).put q K.idFw (p.get q (if slot = 0 then K.bootFwVer0 else K.bootFwVer1))
  let p := p.record q 2 cause (if w.longFlag then 1 else 0) (p.getN q K.idStep) []
  let src := startSources q.kind
  let p := if bitOf cause 2 then p.raise q src.1 0 else p
  if w.longFlag then p.raise q src.2 0 else p

/-- RESET_N is low for a part: the always-on block times the hold (R433). -/
def Plant.holdReset (p : Plant) (q : Part) : Plant :=
  p.onNode q (fun n => { n with power := { n.power with
    held := true, holdStart := if n.power.held then n.power.holdStart else p.tick } })

/-- RESET_N rises: the hold ends, and the straps and verification results are as found now (R433, R460). -/
def Plant.endHold (p : Plant) (q : Part) (b : Boot) : Plant :=
  p.onNode q (fun n => { n with power := { n.power with
    held := false, pins := b, heldMs := (p.tick - n.power.holdStart) / 400000 } })

/-! ### Stores (R441) -/

/-- Values in effect of class P objects that a store sequence writes. -/
def storedPart (kind : Nat) (objs : Tab Int) : Tab Int :=
  objs.filter (fun e => match memberRow kind e.1 with
    | some r => r.pers == .p && !immediate r && r.acc != .rs
    | none => false)

/-- DOMAIN and STRING values that a store sequence writes. -/
def storedBlobPart (kind : Nat) (blobs : Tab (List Nat)) : Tab (List Nat) :=
  blobs.filter (fun e => match memberRow kind e.1 with
    | some r => r.pers == .p && !immediate r
    | none => false)

/-- Starts a store sequence: it writes the values in effect now (R441). -/
def Plant.storeStart (p : Plant) (q : Part) : Plant :=
  (p.put q K.storeStatus 1).onNode q (fun n => { n with power := { n.power with
    storing := true,
    snap := storedPart q.kind n.objs ++ (if q.kind = 0 then (slotMark, 1) :: slotPart p.cvc.slots else []),
    snapBlobs := storedBlobPart q.kind n.blobs } })

/-- store.dirty: class P objects whose value in effect differs from the stored one (R452). -/
def Plant.storeDirty (p : Plant) (q : Part) : Nat :=
  let n := p.node q
  let now := storedPart q.kind n.objs ++ (if q.kind = 0 then slotPart p.cvc.slots else [])
  let keys := now.map (·.1) ++ (n.stored.map (·.1)).filter (fun k => !rindHeld k && k != slotMark && !(now.any (fun e => e.1 == k)))
  let d := objDefault q.node
  let bnow := storedBlobPart q.kind n.blobs
  let bkeys := bnow.map (·.1) ++ (n.storedBlobs.map (·.1)).filter (fun k => !(bnow.any (fun e => e.1 == k)))
  min 0xFFFF ((keys.filter (fun k => Tab.get d now k != Tab.get d n.stored k)).length +
    (bkeys.filter (fun k => Tab.get (fun _ => []) bnow k != Tab.get (fun _ => []) n.storedBlobs k)).length)

/-- The end of a store sequence, with its commitment (07 R176): read-back good, and the copy has its valid mark, or
failed (R441, 12 R332–R334). -/
def Plant.storeEnd (p : Plant) (q : Part) (ok : Bool) : Plant :=
  let w := (p.node q).power
  if !w.storing then p
  else
    let p := match q with | .cell c => p.release c 5 | _ => p
    let p := p.onNode q (fun n => { n with power := { n.power with storing := false, snap := [], snapBlobs := [] } })
    if ok then
      let p := p.onNode q (fun n => { n with
        stored := n.stored.foldl (fun t e => if rindHeld e.1 then Tab.ins e.1 e.2 t else t) w.snap,
        storedBlobs := w.snapBlobs, power := { n.power with restore := false } })
      ((p.put q K.storeStatus 2).bump q K.storeGen 1).bump q K.storeCount 1
    else (p.put q K.storeStatus 3).raise q (match q.kind with | 0 => 127 | 1 => 7 | _ => 9) 0

end Sys2Proof.Machine
end

