-- ==== Sys2Proof/Machine/Energy.lean ====
section
/-! DEFINITION. The energy ledger of a cell, its activities and its power states (07_cell_energy_and_sleep.md; 17 R462;
16 R446, R447). -/

namespace Sys2Proof.Machine

/-! ### The cell's core goes down and starts -/

/-- What a cell keeps beside its objects when its core is reset (07 R180, 06 R158): the always-on domain with the firing,
and the position its lane block knows. -/
def cellAfter (sc : Scope) (e : Cell) : Cell :=
  let d : Cell := default
  if sc = .por then d
  else { d with
    lanePos := e.lanePos, fireWait := e.fireWait, firing := e.firing, retries := e.retries,
    confirmed := e.confirmed, bypPin := e.bypPin,
    led := { e.led with
      holds := e.led.holds.filter (fun a => !([0, 5, 6].contains a)), bootWant := false, pwrWant := none } }

/-- Both lanes of a cell are off (07 R178, R183). -/
def Plant.lanesOff (p : Plant) (c : CellId) : Plant :=
  let q := Part.cell c
  (rangeFrom 0 2).foldl (fun p l => p.laneDown q l 0) p

/-- A reset of a cell controller (16 R429, R436). A power-on reset leaves BYP_STAT to be seen again (log entry 16). -/
def Plant.cellDown (p : Plant) (c : CellId) (sc : Scope) (cause : Nat) : Plant :=
  let q := Part.cell c
  let p := ((p.maskOwn c).nodeDown q sc cause).onCell c (cellAfter sc)
  if sc = .por then p.put q K.bypStatus ((p.getN q K.bypStatus &&& 0xFE : Nat) : Int) else p

/-- Reserve check of R173. -/
def Plant.reserveShort (p : Plant) (c : CellId) : Bool :=
  let q := Part.cell c
  decide (p.getN q K.nrgReserve < (1 + p.getN q K.bypRetries) *
    (p.getN q K.nrgCostFire + p.getN q K.nrgPPass * p.getN q K.bypConfirm / 10000) + 200)

/-- The cell checks R173 whenever a term changes. -/
def Plant.checkReserve (p : Plant) (c : CellId) : Plant :=
  if p.reserveShort c then p.raise (.cell c) 37 0 else p

/-- Refuses a request (R177). -/
def Plant.refuse (p : Plant) (c : CellId) : Plant := p.bump (.cell c) K.nrgRefused 1

/-- The planner's answer to an activity that must be granted before it starts (R176). -/
def Plant.grants (p : Plant) (c : CellId) (a : Nat) : Bool :=
  let q := Part.cell c
  let st := p.getN q K.nrgState
  if 7 ≤ a then true
  else if st = 0 ∨ st = 4 then false
  else if a ≤ 4 then
    (st == 1 && decide (a ≤ 2)) || decide ((p.cost c a + p.getN q K.nrgMargin : Int) ≤ p.freeEnergy c)
  else p.deferOk c a

/-- Requests an activity: granted and committed, or refused and counted (R176, R177). A fire is granted outright. -/
def Plant.request (p : Plant) (c : CellId) (a : Nat) : Bool × Plant :=
  if p.grants c a then (true, if 7 ≤ a then p else p.commit c a) else (false, p.refuse c)

/-- Asks for a lane's training (1, 2) or exit from L2 (3, 4); refused, the lane stays down and the request is repeated at
every ledger sample (R177). -/
def Plant.requestLane (p : Plant) (c : CellId) (a : Nat) : Plant :=
  let q := Part.cell c
  let l := (a - 1) % 2
  let r := p.request c a
  if r.1 then
    (r.2.laneDown q l 1).onCell c (fun e => { e with led := { e.led with laneWant := e.led.laneWant.filter (· != a) } })
  else r.2.onCell c (fun e => { e with led := { e.led with laneWant := addTo e.led.laneWant a } })

/-- Step 1 of R179: the core starts, samples its straps (06 R132), tests its hard-trip paths (06 R157) and, when its lanes
stayed in pass-through, leaves it with SERVE (08 R216). A cell in BOOT then trains the lanes that are off. -/
def Plant.cellStart (p : Plant) (c : CellId) : Plant :=
  let q := Part.cell c
  let b := (p.node q).power.pins
  let p := ((p.nodeUp q).put q K.swType ((b.strap.toNat % 4 : Nat) : Int)).readStat c
  let p := if b.fwPath.val = 2 then p
    else
      let p := (p.selfTest c b.selfX b.selfY).put q K.swState (if p.fired c then 5 else 0)
      (p.checkReserve c).passNotice c 3
  if p.getN q K.nrgState = 1 then
    [1, 2].foldl (fun p a =>
      if p.laneState q (a - 1) = 0 ∧ p.getN q (laneKey (a - 1) 1) = 1 then p.requestLane c a else p) p
  else p

/-- The core may start: CORE_PG is high, RESET_N is high, and the boot has been granted. -/
def Plant.bootIfReady (p : Plant) (c : CellId) : Plant :=
  let q := Part.cell c
  let e := p.cell c
  if e.led.pg ∧ e.led.holds.contains 0 ∧ !p.up q ∧ !(p.node q).power.held then p.cellStart c else p

/-- The boot of a core reset is requested as an essential activity (R180); a refused request in READY or SHORT is repeated
at every ledger sample. In BOOT the start budget covers it. -/
def Plant.requestBoot (p : Plant) (c : CellId) : Plant :=
  let q := Part.cell c
  if p.up q ∨ (p.cell c).led.holds.contains 0 then p.bootIfReady c
  else
    let st := p.getN q K.nrgState
    let r := if st = 1 then (true, p.commit c 0) else p.request c 0
    let p := r.2.onCell c (fun e => { e with led := { e.led with bootWant := !r.1 && (st == 2 || st == 3) } })
    if r.1 then p.bootIfReady c else p

/-! ### Ledger states (R174) -/

/-- Enters BOOT: the core is powered and its boot granted against the start budget (R179, 17 R462). -/
def Plant.enterBoot (p : Plant) (c : CellId) : Plant :=
  let p := p.put (.cell c) K.nrgState 1
  let p := p.onCell c (fun e => { e with led := { e.led with aon := false, wake := false, laneGaveUp := [] } })
  (p.commit c 0).bootIfReady c

/-- A failed boot: back to COLD, core power removed, lanes off (R179, R178). -/
def Plant.abortBoot (p : Plant) (c : CellId) : Plant :=
  let q := Part.cell c
  let p := (p.cellDown c .aon 0).bump q K.nrgBootAborts 1
  let p := (p.put q K.nrgState 0).lanesOff c
  p.onCell c (fun e => { e with led := { e.led with holds := [], laneWant := [], pg := false } })

/-- Enters FLOOR (R181, R182). -/
def Plant.enterFloor (p : Plant) (c : CellId) : Plant :=
  let q := Part.cell c
  let p := (p.put q K.nrgState 4).bump q K.nrgFloors 1
  let p := if p.up q then p.raise q 33 0 else p
  let st := if p.fired c then 5 else if p.htHeld c ∨ (p.cell c).tripHold then 0 else p.getN q K.swState
  let wait := (p.cell c).fireWait
  let p := p.onCell c (fun e => { e with fireWait := false, led := { e.led with laneWant := [] } })
  let p := if p.getN q K.nrgFloorAction = 1 ∧ (wait ∨ (st ≠ 0 ∧ st ≠ 5 ∧ p.getN q K.cycleInLoss = 0)) then p.fire c 3 else p
  if p.up q then p.cellDown c .pin 32 else p

/-- Enters READY or SHORT; READY arms the ledger, SHORT raises local source 32. -/
def Plant.enterRun (p : Plant) (c : CellId) (ready : Bool) : Plant :=
  let q := Part.cell c
  if ready then (p.put q K.nrgState 2).onCell c (fun e => { e with led := { e.led with armed := true } })
  else
    let p := p.put q K.nrgState 3
    let p := if p.getN q K.capRate ≠ 0 then p.capClose c 1 else p
    if p.up q then p.raise q 32 0 else p

/-- E_avail reaches D + M. -/
def Plant.readyLevel (p : Plant) (c : CellId) : Bool :=
  let q := Part.cell c
  decide (((p.getN q K.nrgDeferLevel + p.getN q K.nrgMargin : Nat) : Int) ≤ p.get q K.nrgAvail)

/-- The transition of R174 that a sample causes. -/
def Plant.ledgerMove (p : Plant) (c : CellId) : Plant :=
  let q := Part.cell c
  let led := (p.cell c).led
  let avail := p.get q K.nrgAvail
  let budget := decide ((p.getN q K.nrgStartBudget : Int) ≤ avail) && (!led.aon || led.wake)
  match p.getN q K.nrgState with
  | 0 => if budget then p.enterBoot c else p
  | 1 => if avail ≤ 0 then (if led.armed then p.enterFloor c else p.abortBoot c) else p
  | 2 => if avail ≤ 0 then p.enterFloor c else if avail < p.get q K.nrgDeferLevel then p.enterRun c false else p
  | 3 => if avail ≤ 0 then p.enterFloor c else if p.readyLevel c then p.enterRun c true else p
  | _ => if budget then p.enterBoot c else p

/-- Repeats refused requests in their order of arrival (R176, R177, R180). -/
def Plant.repeatRequests (p : Plant) (c : CellId) : Plant :=
  let st := p.getN (.cell c) K.nrgState
  if 1 ≤ st ∧ st ≤ 3 then
    let p := if (p.cell c).led.bootWant then p.requestBoot c else p
    (p.cell c).led.laneWant.foldl (fun p a => p.requestLane c a) p
  else p.onCell c (fun e => { e with led := { e.led with laneWant := [], bootWant := false } })

/-- E_store in units of 10 µJ (R171): capacitance in µF, voltages in mV. -/
def storeUnits (cHold mv vmin : Nat) : Nat := if mv ≤ vmin then 0 else cHold * (mv ^ 2 - vmin ^ 2) / 20000000

/-- The draw of a sample in units of 10 µJ over 125 µs (R171): VIN in mV, current in µA. -/
def drawUnits (mv ua : Nat) : Nat := mv * ua * 125 / 10000000000

/-- Adds a sample to the running millisecond and shows the means at its end (R171). -/
def Plant.addMeans (p : Plant) (c : CellId) (draw : Nat) (inflow : Int) : Plant :=
  let q := Part.cell c
  let led := (p.cell c).led
  let d := led.sumDraw + draw
  let i := led.sumIn + inflow
  if 7 ≤ led.samples then
    let p := (p.put q K.nrgPDraw ((d * 10000 : Nat) : Int)).put q K.nrgPIn (i * 10000)
    p.onCell c (fun e => { e with led := { e.led with sumDraw := 0, sumIn := 0, samples := 0 } })
  else p.onCell c (fun e => { e with led := { e.led with sumDraw := d, sumIn := i, samples := led.samples + 1 } })

/-- LEDGER_SAMPLE: codes of VIN and of the shunt, at most 4095; energies, the state, what waits (R170–R181, R187). -/
def execLedgerSample (c : CellId) (vin : BitVec 16) (shunt : BitVec 32) (s : State) : Host.Outcome State Fault Refusal :=
  s.on (fun p =>
    let q := Part.cell c
    if !(p.node q).power.rails then p
    else
      let vc := min vin.toNat 4095
      let sc := min shunt.toNat 4095
      let mv := 8 * vc
      let ua := 25 * sc * 1000 / p.getN q K.nrgShuntMohm
      let store := storeUnits (p.getN q K.nrgCHold) mv (p.getN q K.nrgVMin)
      let draw := drawUnits mv ua
      let inflow : Int := (store : Int) - (p.cell c).led.lastStore + draw
      let p := (((p.put q K.nrgVin mv).put q K.nrgIin ua).put q K.nrgStore store).put q K.nrgAvail
        ((store : Int) - p.getN q K.nrgReserve)
      let p := (p.bump q K.nrgUsed draw).addMeans c draw inflow
      let p := p.onCell c (fun e => { e with led := { e.led with lastStore := store } })
      let p := if (vc = 4095 ∨ sc = 4095) ∧ p.up q then p.raise q 35 0 else p
      let p := p.ledgerMove c
      let p := p.repeatRequests c
      if (p.node q).power.held ∧ p.getN q K.nrgReserve ≤ store then
        p.onCell c (fun e => { e with led := { e.led with timing := true } })
      else p)

/-- RC_MEASURE: every 100 ms the steward measures the RC oscillator (R169). -/
def execRcMeasure (c : CellId) (hz : BitVec 32) (s : State) : Host.Outcome State Fault Refusal :=
  s.onUp (.cell c) (fun p =>
    let q := Part.cell c
    if 972800 ≤ hz.toNat ∧ hz.toNat ≤ 1075200 then p.put q K.aonRcFreq hz.toNat else p.raise q 36 0)

/-- ACTIVITY_REQUEST: an activity is granted, refused, queued or dropped (R176, R177). -/
def execActivityRequest (c : CellId) (act : Fin 8) (s : State) : Host.Outcome State Fault Refusal :=
  s.on (fun p =>
    let a := act.val
    if a = 0 then p.requestBoot c
    else if a ≤ 4 then p.requestLane c a
    else (p.request c a).2)

/-- ACTIVITY_END: a granted activity ends and its commitment is released (R176). -/
def execActivityEnd (c : CellId) (act : Fin 8) (s : State) : Host.Outcome State Fault Refusal :=
  s.on (fun p => p.release c act.val)

/-- Boot complete (R174, R179). -/
def Plant.bootDone (p : Plant) (c : CellId) : Plant :=
  if p.getN (.cell c) K.nrgState = 1 ∧ p.up (.cell c) then (p.release c 0).enterRun c (p.readyLevel c)
  else p.release c 0

/-- BOOT_COMPLETE: the steward has finished its boot; in BOOT, both lanes are trained as well (R179). -/
def execBootComplete (c : CellId) (s : State) : Host.Outcome State Fault Refusal :=
  s.on (fun p =>
    let q := Part.cell c
    if !p.up q then p
    else if p.getN q K.nrgState = 1 ∧ !(p.laneUp q 0 && p.laneUp q 1) then p
    else p.bootDone c)

/-- BOOT_LANE_TIMEOUT: a lane has been refused for 100 ms; boot is complete without it (R179). -/
def execBootLaneTimeout (c : CellId) (lane : Fin 2) (s : State) : Host.Outcome State Fault Refusal :=
  s.on (fun p =>
    let q := Part.cell c
    if !p.up q ∨ p.laneUp q lane.val ∨ p.getN q K.nrgState ≠ 1 then p
    else (p.onCell c (fun e => { e with led := { e.led with laneGaveUp := addTo e.led.laneGaveUp lane.val } })).bootDone c)

/-- BYPASS_ON_RESET_EXPIRE: RESET_N has been held for aon.bypass_on_reset_time since the store reached the reserve
(R187). -/
def execBypassOnResetExpire (c : CellId) (s : State) : Host.Outcome State Fault Refusal :=
  s.on (fun p => if (p.node (.cell c)).power.held ∧ (p.cell c).led.timing then p.fire c 3 else p)

/-! ### Power good (17 R462) -/

/-- CORE_PG_RISE: the core starts 100 µs later, once its boot is granted and RESET_N is high (R462, R180). -/
def execCorePgRise (c : CellId) (s : State) : Host.Outcome State Fault Refusal :=
  s.on (fun p =>
    let st := p.getN (.cell c) K.nrgState
    if !(p.node (.cell c)).power.rails ∨ st = 0 then p
    else
      let p := p.onCell c (fun e => { e with led := { e.led with pg := true } })
      if st = 2 ∨ st = 3 then (if (p.node (.cell c)).power.held then p else p.requestBoot c) else p.bootIfReady c)

/-- CORE_PG_TIMEOUT: CORE_PG has not risen within 1 ms of CORE_EN: a failed boot (R462). -/
def execCorePgTimeout (c : CellId) (s : State) : Host.Outcome State Fault Refusal :=
  s.on (fun p => if p.getN (.cell c) K.nrgState = 1 ∧ !(p.cell c).led.pg then p.abortBoot c else p)

/-- CORE_PG_FALL: local source 0, and a reset of the core with the scope of RESET_N (R461, R462). -/
def execCorePgFall (c : CellId) (s : State) : Host.Outcome State Fault Refusal :=
  s.on (fun p =>
    let q := Part.cell c
    let p := p.onCell c (fun e => { e with led := { e.led with pg := false } })
    if p.up q then (p.raise q 0 0).cellDown c .pin 1 else p)

/-! ### Power states (R183–R186) -/

/-- The time base becomes UNLOCKED by a reset, an exit from DEEP or an entry to AON (10 R275). -/
def Plant.unlock (p : Plant) (q : Part) : Plant :=
  let st := p.getN q K.timeState
  let p := p.put q K.timeState 0
  if st = 2 ∨ st = 3 then (p.bump q K.timeUnlocks 1).raise q (if q.kind = 1 then 24 else 48) 0 else p

/-- pwr.request accepted: both lanes move by the handshake of R201, or wake from L2; a cell that leaves DEEP needs a new time lock
(R184, 10 R275). -/
def Plant.askPower (p : Plant) (c : CellId) (v : Nat) : Plant :=
  let q := Part.cell c
  let p := p.onCell c (fun e => { e with led := { e.led with pwrWant := some v } })
  let p := if p.getN q K.pwrState = 2 ∧ v ≠ 2 then p.unlock q else p
  (rangeFrom 0 2).foldl (fun p l =>
    if p.laneState q l = 4 then (if v < 2 then p.requestLane c (3 + l) else p)
    else p.askLane q l (min v 2)) p

/-- The lane state of a power state (R183). -/
def laneOfPower : Nat → Nat
  | 0 => 2
  | 1 => 3
  | _ => 4

/-- Enters AON: core unpowered, lanes off, ledger COLD until a wake (R174, R183). -/
def Plant.enterAon (p : Plant) (c : CellId) : Plant :=
  let q := Part.cell c
  let st := p.getN q K.nrgState
  let p := (p.cellDown c .aon 64).lanesOff c
  let p := if st = 2 ∨ st = 3 then p.put q K.nrgState 0 else p
  p.onCell c (fun e => { e with led := { e.led with aon := true, wake := false, pg := false, holds := [], laneWant := [] } })

/-- POWER_STATE_ENTER: both lanes have reached the state asked for, and the cell enters its power state (R183–R186). -/
def execPowerStateEnter (c : CellId) (s : State) : Host.Outcome State Fault Refusal :=
  s.onUp (.cell c) (fun p =>
    let q := Part.cell c
    match (p.cell c).led.pwrWant with
    | none => p
    | some v =>
      let there := fun l => p.laneState q l == laneOfPower v
      if !(there 0 && there 1) then p
      else if v = 3 then p.enterAon c
      else if v = 0 ∧ p.getN q K.pwrState = 2 ∧ !p.locked q then p
      else (p.put q K.pwrState v).onCell c (fun e => { e with missRun := 0, led := { e.led with pwrWant := none } }))

/-- LANE_UP: both ends of a lane are up (08 R196); in a cell the energy of the training or of the exit from L2 is
released. -/
def execLaneUp (port : Port) (s : State) : Host.Outcome State Fault Refusal :=
  s.on (fun p =>
    let l := port.lane.val
    let p := p.laneToL0 port.part l
    match port.part with
    | .cell c => (p.release c (1 + l)).release c (3 + l)
    | _ => p)

/-- LANE_WAKE: the signal detector sees activity on a lane in L2 or off (R186, 08 R201). A cell in DEEP starts its return
and is no longer locked; a cell in AON keeps the wake until its budget is met; the far end of a lane in L2 trains. -/
def execLaneWake (port : Port) (s : State) : Host.Outcome State Fault Refusal :=
  s.on (fun p =>
    let q := port.part
    let l := port.lane.val
    match q with
    | .cell c =>
      let st := p.laneState q l
      if (p.cell c).led.aon then p.onCell c (fun e => { e with led := { e.led with wake := true } })
      else if p.up q ∧ p.getN q K.pwrState = 2 ∧ st = 4 then
        let p := p.onCell c (fun e => { e with led := { e.led with pwrWant := some 0 } })
        (rangeFrom 0 2).foldl (fun p l => if p.laneState q l = 4 then p.requestLane c (3 + l) else p) (p.unlock q)
      else if st = 4 then p.requestLane c (3 + l)
      else p
    | _ => if p.laneState q l = 4 then p.laneDown q l 1 else p)

/-! ### Cave records of a cell (R177) -/

/-- The commitments of records that no longer wait are released (R176). -/
def Plant.releaseRecords (p : Plant) (q : Part) : Plant :=
  match q with
  | .cell c => if (p.node q).cave.queue.length < (p.cell c).led.holds.count 6 then p.release c 6 else p
  | _ => p

/-- CAVE_WRITE: the oldest waiting record is written; in a cell only while the ledger is READY (R177; 12 R349). -/
def execCaveWrite (q : Part) (ok : Bool) (s : State) : Host.Outcome State Fault Refusal :=
  s.onUp q (fun p => if q.kind = 2 ∧ p.getN q K.nrgState ≠ 2 then p else (p.caveWriteOne q ok).releaseRecords q)

end Sys2Proof.Machine
end

