-- ==== Sys2Proof/Machine/Capture.lean ====
section
/-! DEFINITION. The capture of a cell controller (13_acquisition.md R373, R374, R377). -/

namespace Sys2Proof.Machine

/-- The arm check of cap.ctrl = 1, as a GDP status (R373): Tc a whole multiple of n × 500 ns, and the ledger READY. -/
def Plant.capArmCheck (p : Plant) (c : CellId) : Nat :=
  let q := Part.cell c
  let n := p.getN q K.capRate
  if n ≠ 0 ∧ ((p.node q).sched.tc % (n * 500) ≠ 0 ∨ p.getN q K.nrgState ≠ 2) then 0x0303 else 0

/-- cap.ctrl accepted: 1 arms, 2 stops, 3 triggers (R374). -/
def Plant.capCtrl (p : Plant) (c : CellId) (v : Nat) : Plant :=
  let q := Part.cell c
  match v with
  | 1 =>
    let p := p.onCell c (fun e => { e with cap := default })
    let p := ((p.put q K.capState 1).put q K.capTrigTime 0).put q K.capFirstTime 0
    (p.put q K.capPreValid 0).put q K.capFlags 0
  | 2 => p.capClose c 0
  | _ => p.capTake c

/-- The value of a capture source (R373). -/
def Plant.capValue (p : Plant) (c : CellId) (code vcode icode fb : Nat) : Int :=
  let q := Part.cell c
  match code with
  | 1 => vcode
  | 2 => icode
  | 3 => (p.stateByte c * 256 + p.getN q K.diState : Nat)
  | 4 => ((p.cell c).gates % 256 * 256 + fb : Nat)
  | 5 => (min (p.getN q K.nrgVin) 65535 : Nat)
  | 6 => clampI (-32767) 32767 (p.get q K.nrgAvail)
  | _ => 0

/-- Network time of the sample taken now, in 1/256 ns (R373): S, or the latest S + m × n × 500 ns. -/
def Plant.capTime (p : Plant) (c : CellId) : Int :=
  let q := Part.cell c
  let now : Int := (p.nowLong q : Nat)
  let since := p.sinceS q / 100
  let n := p.getN q K.capRate
  let tc := max 1 (p.node q).sched.tc
  if n = 0 then (now - since + (2 * since + tc) / (2 * (tc : Int)) * tc) * 256
  else
    let d := since % tc
    (now - d + d / (n * 500 : Nat) * (n * 500 : Nat)) * 256

/-- CELL_CAPTURE_SAMPLE: the capture takes a record of its four channels, and evaluates triggers 1, 2 and 7 (R373, R374): the current code
and E_avail have a sign (06 R162), the other sources have none. `fb` are the levels of GF7–GF0. -/
def execCellCaptureSample (c : CellId) (vcode icode : BitVec 16) (fb : BitVec 8) (s : State) :
    Host.Outcome State Fault Refusal :=
  s.onUp (.cell c) (fun p =>
    let q := Part.cell c
    let st := p.getN q K.capState
    if st ≠ 1 ∧ st ≠ 2 then p
    else
      let t := p.capTime c
      let vals := (rangeFrom 0 4).map (fun n => p.capValue c (p.getN q (K.capSrc + n)) vcode.toNat icode.toNat fb.toNat)
      let p := p.onCell c (fun e => { e with cap := { e.cap with
        recs := ((t :: vals) :: e.cap.recs).take 8192, total := e.cap.total + 1, after := e.cap.after - 1 } })
      if st = 2 then (if (p.cell c).cap.after = 0 then p.capClose c 0 else p)
      else
        let src := p.getN q K.capSrc
        let v : Int := if src = 2 ∨ src = 6 then signed 16 (unsigned 16 (vals.getD 0 0)) else vals.getD 0 0
        match p.getN q K.capTrig with
        | 1 => if p.get q K.capLevel < v then p.capTake c else p
        | 2 => if v < p.get q K.capLevel then p.capTake c else p
        | 7 => if p.get q K.capAt * 256 ≤ t then p.capTake c else p
        | _ => p)

/-- cap.data: channel after channel, oldest sample first, two bytes a sample, for the channels that are on (R374). -/
def Plant.capData (p : Plant) (c : CellId) : List Nat :=
  let recs := (p.cell c).cap.recs.reverse
  ((rangeFrom 0 4).filter (fun n => p.getN (.cell c) (K.capSrc + n) != 0)).flatMap (fun n =>
    recs.flatMap (fun r => leBytes 2 (unsigned 16 (r.getD (n + 1) 0))))

end Sys2Proof.Machine
end

