-- ==== Sys2Proof/Machine/Images.lean ====
section
/-! DEFINITION. Signed images: safety parameter images, engine packages, steward firmware, keys (11_rind_safety.md R313–R318;
05 R127; 16_reset_startup_persistence.md R438, R439, R447). -/

namespace Sys2Proof.Machine

/-- 16 bits stored least significant byte first, at an offset. -/
def le16 (bs : List Nat) (o : Nat) : Nat := ofLe ((bs.drop o).take 2)

/-- A header of 16 R438 for a part and type. -/
def headerOk (image : List Nat) (part ty : Nat) : Bool :=
  le32 image 0 == 0x484B5831 && le16 image 6 == part && le16 image 4 == ty

/-- A failed verification (16 R439). -/
def Plant.verifyFailed (p : Plant) (q : Part) : Plant := p.bump q K.bootVerifyFail 1

/-- A customer image is accepted: whole, CRC, key slot 2 or 3 programmed and not revoked, and the outcome of the signature. -/
def Plant.imageAccepted (p : Plant) (q : Part) (image : List Nat) (ok : Bool) : Bool :=
  ok && imageWhole image && imageCrcOk image && decide (2 ≤ keySlot image) && p.keyOk q (keySlot image)

/-! ### Safety parameter images (11 R313–R318) -/

/-- A safety image is rejected (R318). -/
def Plant.rejectImage (p : Plant) (reason : Nat) : Plant := rejectWith fullRaiser p reason

/-- The RS objects that a body must name (R315). -/
def rsKeys : List Nat :=
  ((dictPage 0x60).filter (fun r => r.acc == .rs)).flatMap (fun r =>
    (rangeFrom 0 (spanCount 0 r)).flatMap (fun i =>
      ((rangeFrom r.sub r.subs).map (fun s => (r.idx + i) * 256 + s)))) |>.filter (fun k => k != K.rindImageId && k != K.rindImageCrc)

/-- The staged image. -/
def Plant.safetyImage (p : Plant) : List Nat := p.blob .cvc K.rindImageStage

/-- The values of a body by key. -/
def bodyValues (es : List (Nat × List Nat)) : Tab Int :=
  es.map (fun e => (e.1, match rowOf 0 e.1 with
    | some r => decodeVal r.ty e.2
    | none => 0))

/-- Every entry is of the right type and range (R316). -/
def entriesFit (es : List (Nat × List Nat)) : Bool :=
  es.all (fun e => match memberRow 0 e.1 with
    | some r => r.acc == .rs && valueStatus r r.ty.code e.2 == 0
    | none => false)

/-- The body names every RS object exactly once and nothing else (R315). -/
def entriesWhole (es : List (Nat × List Nat)) : Bool :=
  es.length == rsKeys.length && rsKeys.all (fun k => (es.filter (fun e => e.1 == k)).length == 1)

/-- The roles that a body gives a channel, without the unused inputs. -/
def rolesOf (v : Nat → Int) (ch : Nat) : List Nat :=
  ((rangeFrom 0 8).map (fun n => (v (K.rindInRole + ch * 256 + n)).toNat)).filter (· != 0)

/-- A role of R295. -/
def roleOk (r : Nat) : Bool := decide (1 ≤ r ∧ r ≤ 4) || decide (0x10 ≤ r ∧ r < 0x1C)

/-- The roles of a body satisfy R295 for the used sides. -/
def rolesFit (v : Nat → Int) (sides : List Nat) : Bool :=
  let a := rolesOf v 0
  let b := rolesOf v 1
  a.all roleOk && b.all roleOk && a.all (fun r => b.contains r && (a.filter (· == r)).length == 1) &&
    b.all (fun r => a.contains r && (b.filter (· == r)).length == 1) &&
    sides.all (fun s => a.contains (1 + s) && a.contains (3 + s))

/-- The conditions of R301, R303, R316 and R326 on a body's values; those of R303 and on the energy bounds hold for each side, the ones of
R326 for a side in use. -/
def valuesFit (v : Nat → Int) (sides : List Nat) : Bool :=
  rolesFit v sides && (sides.length == 2 || v K.rindSlpdTransfer == 0) &&
    [0, 1].all (fun s =>
      let x := fun key => v (key + s * 256)
      decide (x K.rindSlewLo < x K.rindSlewHi) && decide (x K.rindSlacILim < x K.rindSlacITrip) &&
        decide (x K.rindSlacDiLim < x K.rindSlacDiTrip)) &&
    sides.all (fun s =>
      let x := fun key => v (key + s * 256)
      x K.rindBaseV != 0 && x K.rindBaseI != 0 && x K.rindSlewN != 0 && x K.rindBaseVcell != 0)

/-- The content of a safety image is valid (R314–R316). -/
def Plant.safetyContentOk (p : Plant) (image : List Nat) : Bool :=
  match bodyEntries image.length (imageBody image) with
  | none => false
  | some es =>
    le32 image 0 == 0x52494E44 && le16 image 6 == 1 && le16 image 4 == es.length && le32 image 8 != 0 && entriesFit es &&
      entriesWhole es && valuesFit (Tab.get (fun _ => 0) (bodyValues es)) p.sides

/-- rind.image_stage written: the image waits for its verification (R316). -/
def Plant.imageStaged (p : Plant) (bytes : List Nat) : Plant :=
  let p := (p.putBlob .cvc K.rindImageStage bytes).onRind (fun r => { r with commitDue := false, armedBy := 0 })
  (p.cPut K.rindImageStatus 0).cPut K.rindImageChallenge 0

/-- The signature of the staged safety image is verified or not (R316, R318). -/
def Plant.safetyVerified (p : Plant) (ok : Bool) : Plant :=
  let image := p.safetyImage
  if p.c K.rindImageStatus ≠ 0 ∨ image = [] then p
  else if ok && imageWhole image && decide (2 ≤ keySlot image) && p.keyOk .cvc (keySlot image) then p.cPut K.rindImageStatus 1
  else (p.verifyFailed .cvc).rejectImage 1

/-- An accepted write of rind.image_arm by a requester: both channels check the staged image (R316, R318). -/
def Plant.imageArmed (p : Plant) (rid v : Nat) : Plant :=
  let image := p.safetyImage
  let crc := crc32c (imageBody image)
  if crc ≠ le32 image 0x10 ∨ crc ≠ v then p.rejectImage 2
  else if !p.safetyContentOk image then p.rejectImage 6
  else
    let (x, p) := p.free
    ((p.cPut K.rindImageStatus 2).cPut K.rindImageChallenge (x % 65536 : Nat)).onRind (fun r => { r with armedBy := rid })

/-- A write of rind.image_commit while armed: the status it is answered with (R316, R318). -/
def Plant.imageCommitted (p : Plant) (rid v : Nat) : Nat × Plant :=
  let want := (p.c K.rindImageChallenge) ^^^ (le32 p.safetyImage 8 % 65536)
  if p.cvc.rind.armedBy ≠ rid then (0x0204, p.rejectImage 5)
  else if v ≠ want then (0x0205, p.rejectImage 9)
  else (0, p.onRind (fun r => { r with commitDue := true }))

/-- COMMIT_TIMEOUT: 30 s have passed since the arm step without a commit (R316, R318). -/
def execCommitTimeout (s : State) : Host.Outcome State Fault Refusal :=
  s.onUp .cvc (fun p => if p.c K.rindImageStatus = 2 ∧ !p.cvc.rind.commitDue then p.rejectImage 7 else p)

/-- Writes a value of the parameter store, which is also stored (R316, R317). -/
def Plant.putStore (p : Plant) (key : Nat) (v : Int) : Plant :=
  (p.cPut key v).onNode .cvc (fun n => { n with stored := Tab.set (objDefault 0) n.stored key v })

/-- A channel in STARTING enters HEALTHY when both have written their stores (R316). -/
def Plant.chAccepted (p : Plant) (ch : Nat) : Plant := if p.chState ch = 1 then p.chHealthy ch else p

/-- The commit at the boundary: both stores are written, and the image is accepted (R316). -/
def Plant.imageBoundary (p : Plant) : Plant :=
  if !p.cvc.rind.commitDue then p
  else
    let image := p.safetyImage
    let vals := match bodyEntries image.length (imageBody image) with
      | some es => bodyValues es
      | none => []
    let p := vals.foldl (fun p e => p.putStore e.1 e.2) p
    let p := (p.putStore K.rindImageId (le32 image 8 : Nat)).putStore K.rindImageCrc (le32 image 0x10 : Nat)
    let p := (p.onRind (fun r => { r with commitDue := false, armedBy := 0 })).onNode .cvc (fun n => { n with
      power := { n.power with sigSafety := some (keySlot image) } })
    let p := ((p.chAccepted 0).chAccepted 1).showOut
    let p := (p.cPut K.rindImageStatus 3).cPut K.rindImageChallenge 0
    (p.record .cvc 7 0 0 (le32 image 8) []).raise .cvc 107 0

/-! ### Engine packages (05 R127) -/

/-- A section of a package: type, group mask, offset and contents. -/
structure Section where
  ty : Nat
  groups : Nat
  off : Nat
  bytes : List Nat
  deriving DecidableEq, Repr

/-- The sections of a package's body (16 R438); none when it is not made of whole sections. -/
def sectionsOf : Nat → List Nat → Option (List Section)
  | 0, bs => if bs.isEmpty then some [] else none
  | n + 1, bs =>
    if bs.isEmpty then some []
    else if bs.length < 12 ∨ bs.length < 12 + le32 bs 8 then none
    else (sectionsOf n (bs.drop (12 + le32 bs 8))).map (fun l =>
      ({ ty := le16 bs 0, groups := le16 bs 2, off := le32 bs 4, bytes := (bs.drop 12).take (le32 bs 8) } : Section) :: l)

/-- The slot descriptors of a section 4: slot number, control word, arm mask, entry and as many tag words as the control word
has tags, 32 bits each (log entry 24). -/
def descriptorsOf : Nat → List Nat → Option (List (Nat × List Nat))
  | 0, bs => if bs.isEmpty then some [] else none
  | n + 1, bs =>
    if bs.isEmpty then some []
    else
      let tags := ctrlTags (le32 bs 4)
      let len := 16 + 4 * tags
      if bs.length < len then none
      else (descriptorsOf n (bs.drop len)).map (fun l =>
        (le32 bs 0, (rangeFrom 1 (3 + tags)).map (fun i => le32 bs (4 * i))) :: l)

/-- A section has a known type and fits its destination (05 R105, R127). -/
def sectionFits (x : Section) : Bool :=
  match x.ty with
  | 1 => decide (x.off + x.bytes.length ≤ 0x10000)
  | 2 => decide (x.off + x.bytes.length ≤ 0x10000)
  | 3 => decide (x.off + x.bytes.length ≤ 0x800000)
  | 4 => match descriptorsOf x.bytes.length x.bytes with
    | some l => l.all (fun d => decide (d.1 < 4032))
    | none => false
  | _ => false

/-- A package's sections, when every one fits. -/
def packageSections (image : List Nat) : Option (List Section) :=
  match sectionsOf image.length (imageBody image) with
  | some l => if l.all sectionFits then some l else none
  | none => none

/-- The engine package that waits is verified or not (05 R127). -/
def Plant.packageVerified (p : Plant) (ok : Bool) : Plant :=
  let pk := p.cvc.package
  if pk.staged = [] ∨ pk.verified then p
  else if p.imageAccepted .cvc pk.staged ok && headerOk pk.staged 7200 2 && (packageSections pk.staged).isSome then
    p.onCvc (fun c => { c with package := { c.package with verified := true } })
  else
    ((p.verifyFailed .cvc).onCvc (fun c => { c with package := { c.package with staged := [], verified := false } })).raise .cvc 40 0

/-- Clears every tightly coupled memory and shared engine memory. -/
def clearEngineMem (m : List Host.Cell) : List Host.Cell := (memClear m (tcmKey 0 0) (16 * 2 ^ 32)) |> fun m => memClear m 0x10000000 0x800000

/-- Writes a section into the memories (05 R127). -/
def placeSection (m : List Host.Cell) (x : Section) : List Host.Cell :=
  match x.ty with
  | 1 => (enginesOf x.groups).foldl (fun m e => memPut m (tcmKey e.val x.off) x.bytes) m
  | 2 => (enginesOf x.groups).foldl (fun m e => memPut m (tcmKey e.val (0x10000 + x.off)) x.bytes) m
  | 3 => memPut m (0x10000000 + x.off) x.bytes
  | _ => m

/-- A slot with another descriptor; what a slot holds beside its descriptor stays: FAULT is left by vat.rearm alone (05 R103), the
sticky flags, codes and runs are not the package's, and an item that runs goes on. A write and a move that wait are dropped with the
descriptor they were for (log entry 80). -/
def SlotState.withDesc (s : SlotState) (d : List Nat) : SlotState :=
  { s with ctrl := nth d 0, arms := nth d 1, entry := nth d 2, tags := d.drop 3, epoch := 1, moveDue := none, newDesc := none }

/-- The slots with the descriptors of a package or a stored copy; slots it does not describe are disabled, and every placement epoch
starts at 1 (05 R123, R127). -/
def slotsWith (ds : List (Nat × List Nat)) (old : Tab SlotState) : Tab SlotState :=
  let clear := old.map (fun e => if e.1 < 4032 then (e.1, e.2.withDesc []) else e)
  ds.foldl (fun t d => Tab.upd (fun _ => slotDflt) t d.1 (fun s => s.withDesc d.2)) clear

/-- The descriptors of a package's sections (05 R127). -/
def packageDescs (l : List Section) : List (Nat × List Nat) :=
  (l.filter (fun x => x.ty == 4)).flatMap (fun x => (descriptorsOf x.bytes.length x.bytes).getD [])

/-- The slots whose descriptors a stored copy holds. -/
def slotsFrom (st : Tab Int) (old : Tab SlotState) : Tab SlotState :=
  let at_ := fun (i n : Nat) => (Tab.get (fun _ => 0) st (slotMark + 1 + i * 16 + n)).toNat
  slotsWith ((st.filter (fun e => decide (slotMark < e.1))).map (fun e =>
    let i := (e.1 - slotMark - 1) / 16
    (i, (rangeFrom 0 11).map (at_ i)))) old

/-- A package takes effect: every memory and every descriptor of slots 0 to 4,031 is replaced, the stored ones with them
(05 R127). -/
def State.loadPackage (s : State) (image : List Nat) : State :=
  match packageSections image with
  | none => s
  | some l =>
    let slots := slotsWith (packageDescs l) s.plant.cvc.slots
    let p := s.plant.onCvc (fun c => { c with
      slots := slots, epItems := 0, package := { staged := [], verified := false, loaded := true } })
    let p := (p.putBlob .cvc K.engPackage image).onNode .cvc (fun n => { n with
      stored := n.stored.filter (fun e => decide (e.1 < slotMark)) ++ (slotMark, 1) :: slotPart slots,
      storedBlobs := Tab.set (fun _ => []) n.storedBlobs K.engPackage image })
    { s with plant := p.cPut K.engPackageId (le32 image 8 : Nat), mem := l.foldl placeSection (clearEngineMem s.mem) }

/-- A stored copy's descriptors come into effect over the package's at a start (16 R436). -/
def State.loadSlots (s : State) (st : Tab Int) : State :=
  if (st.find? (fun e => e.1 == slotMark)).isSome then
    { s with plant := (s.plant.onCvc (fun c => { c with slots := slotsFrom st c.slots })).onNode .cvc (fun n => { n with
      stored := st }) }
  else s

/-- At a boundary a verified package takes effect (05 R127). -/
def State.packageBoundary (s : State) : State :=
  let pk := s.plant.cvc.package
  if pk.verified then s.loadPackage pk.staged else s

/-- At a start the stored package is verified and loaded (16 R445 step 4), and the stored descriptors are in effect. -/
def State.packageStart (s : State) (ok : Bool) : State :=
  let image := s.plant.blob .cvc K.engPackage
  let n := s.plant.node .cvc
  let t :=
    if image = [] then s
    else if s.plant.imageAccepted .cvc image ok && headerOk image 7200 2 && (packageSections image).isSome then s.loadPackage image
    else { s with plant := (s.plant.verifyFailed .cvc).raise .cvc 40 0 }
  if n.power.restore then t else t.loadSlots n.stored

/-! ### Steward firmware and keys (16 R438, R439, R447) -/

/-- The PART number of a part's images. -/
def partNumber : Nat → Nat
  | 0 => 7200
  | 1 => 7230
  | _ => 7210

/-- The firmware staged at a part is verified or not; one that verifies is written into the slot not running (R439, R447). -/
def Plant.firmwareVerified (p : Plant) (q : Part) (ok : Bool) : Plant :=
  let image := p.blob q K.bootFwLoad
  if image = [] then p
  else
    let p := p.putBlob q K.bootFwLoad []
    if ok && imageWhole image && imageCrcOk image && headerOk image (partNumber q.kind) 1 && decide (keySlot image < 2) &&
        p.keyOk q (keySlot image) then
      p.onNode q (fun n => { n with power := { n.power with
        fwWriting := true, fwVersion := le32 image 8, sigNew := keySlot image } })
    else p.verifyFailed q

/-- The version object of the slot a part does not run. -/
def Plant.otherVersion (p : Plant) (q : Part) : Nat := if p.getN q K.bootFwSlot = 0 then K.bootFwVer1 else K.bootFwVer0

/-- A firmware write ends: the slot holds the image, and the headers name it for the next start (R447, R452). -/
def Plant.firmwareWritten (p : Plant) (q : Part) : Plant :=
  let w := (p.node q).power
  let other := 1 - p.getN q K.bootFwSlot
  let p := p.put q (p.otherVersion q) w.fwVersion
  p.onNode q (fun n => { n with power := { n.power with
    fwWriting := false, fwNamed := other, sigFw0 := if other = 0 then some w.sigNew else w.sigFw0,
    sigFw1 := if other = 1 then some w.sigNew else w.sigFw1 } })

/-- The key slots that signed what is in force under an authority: 0 the factory's, 1 the owner's (R439). -/
def Plant.signers (p : Plant) (q : Part) (customer : Bool) : List Nat :=
  let w := (p.node q).power
  if customer then
    let pk := if q.kind = 0 ∧ p.cvc.package.loaded then [keySlot (p.blob .cvc K.engPackage)] else []
    pk ++ w.sigSafety.toList ++ w.sigDict.toList
  else
    let mine := if p.getN q K.bootFwSlot = 0 then w.sigFw0 else w.sigFw1
    [mine.getD (if Config.firmwareKey q.node then 1 else 0)]

/-- boot.key_revoke of a slot would be accepted (R439): every image in force under its authority is signed by the other slot. -/
def Plant.revokeOk (p : Plant) (q : Part) (slot : Nat) : Bool :=
  let l := p.signers q (decide (2 ≤ slot))
  !l.isEmpty && l.all (fun k => k == (if slot % 2 = 0 then slot + 1 else slot - 1))

/-- A key slot is revoked for ever (R439). -/
def Plant.revokeKey (p : Plant) (q : Part) (slot : Nat) : Plant := p.put q K.bootKeys ((p.getN q K.bootKeys ||| 2 ^ (4 + slot) : Nat) : Int)

/-- A key slot 2 or 3 is programmed (R439). -/
def Plant.programKey (p : Plant) (q : Part) (n : Nat) (hash : List Nat) : Plant :=
  (p.putBlob q (K.bootKeyProg + n) hash).put q K.bootKeys ((p.getN q K.bootKeys ||| 2 ^ (2 + n) : Nat) : Int)

end Sys2Proof.Machine
end

