-- ==== Sys2Proof/Machine/Frames.lean ====
section
/-! DEFINITION. Command, collect and trip frames on their way through hubs and cells (09_tamlek_frames_and_integrity.md
R230–R241, R258, R259; 08 R213, R217, R218; 14 R385, R387). -/

namespace Sys2Proof.Machine

/-! ### Hubs (08 R213, R217, R218) -/

/-- A hub takes frames of a kind from an uplink: from the CVC of its allegiance, and during the overlap from both (R217,
14 R385). -/
def Plant.hubTakes (p : Plant) (h : Fin 8) (l : Nat) : Bool :=
  (p.getN (.hub h) K.hubAllegiance == (l - 48) / 2) || decide (0 < p.getN (.hub h) K.redOverlapLeft)

/-- Counts a frame of the other CVC (14 R385). -/
def Plant.foreign (p : Plant) (h : Fin 8) : Plant := p.bump (.hub h) K.redForeignDrops 1

/-- Changes the bits [hi:lo] of a header. -/
def setField (x hi lo v : Nat) : Nat := x - bits x hi lo * 2 ^ lo + (v % 2 ^ (hi + 1 - lo)) * 2 ^ lo

/-- The part of a command frame for one end: FIRST, DIR, and the blocks for its positions (R234). -/
def splitCommand (hop : Nat) (f : Frame) (first : Nat) (dir : Bool) (data : List Block) : Frame :=
  let h := f.hdr.toNat
  let h := setField (setField (setField h 50 50 (if dir then 1 else 0)) 15 10 first) 9 4 data.length
  forwardFrame hop f (BitVec.ofNat 56 h) data

/-- Commands of a string that the hub drops, as it and the CVC show them (08 R213, R227). -/
def Plant.dropCommands (p : Plant) (h : Fin 8) (k n : Nat) : Plant :=
  let p := p.bump (.hub h) (K.stringDropped + k) n
  if p.up .cvc then p.bump .cvc (K.stringDropped + stringOfPort h k) n else p

/-- A hub splits a command frame by the plan it latched; commands for unreachable positions, or of a string without a
plan, are dropped and counted (R213, R234). -/
def Plant.hubCommand (p : Plant) (h : Fin 8) (l : Nat) (f : Frame) : Plant :=
  let str := bits f.hdr.toNat 23 16
  let n := f.data.length
  if str / 24 ≠ h.val ∨ 192 ≤ str then p
  else
    let k := str % 24
    let hop := p.hopCode (.hub h) l
    match (p.hubPort h k).plan.latched with
    | none => p.dropCommands h k n
    | some v =>
      let a := min v.a n
      let b := max (min v.b n) a
      let p := if a < b then p.dropCommands h k (b - a) else p
      let p := if a = 0 then p else p.send (.hub h) (2 * k) (splitCommand hop f 0 false (f.data.take a))
      if b = n then p else p.send (.hub h) (2 * k + 1) (splitCommand hop f (n - 1) true (f.data.drop b).reverse)

/-- Bytes that wait on the uplink lanes of a hub to one CVC (R217). -/
def Plant.upBytes (p : Plant) (h : Fin 8) (cvcB : Bool) : Nat :=
  8 * ((p.lane (.hub h) (hubPair cvcB).1).waiting + (p.lane (.hub h) (hubPair cvcB).2).waiting)

/-- Sends a frame upstream to both CVCs; a frame that does not fit its 64 KiB buffer whole is dropped (R217). -/
def Plant.hubUp (p : Plant) (h : Fin 8) (f : Frame) : Plant :=
  [false, true].foldl (fun p b =>
    if 65536 < p.upBytes h b + 8 * f.blocks then
      (p.bump (.hub h) K.hubDrops 1).raise (.hub h) 19 (if b then 1 else 0)
    else
      let p := p.sendPair (.hub h) (hubPair b).1 (hubPair b).2 f
      p.raiseMax (.hub h) K.hubBufMax (p.upBytes h b : Nat)) p

/-- A full slot in its compact form (R237): V to the nearest mV, and a check that passes only where the full one did. -/
def compactSlot (b0 b1 : Nat) : Nat :=
  let bs := beBytes 8 b0 ++ beBytes 8 b1
  let v := min (rdivUp (ofBe ((bs.drop 4).take 4) : Int) 100).toNat (2 ^ 24 - 1)
  let c := bs.take 3 ++ beBytes 3 v ++ [nth bs 3]
  let good := crc8 (bs.take 15) == nth bs 15
  ofBe (c ++ [if good then crc8 c else 255 - crc8 c])

/-- The compact slots of full data blocks. -/
def compactBlocks : List Block → List Block
  | a :: b :: t => BitVec.ofNat 64 (compactSlot a.toNat b.toNat) :: compactBlocks t
  | _ => []

/-- A collect frame with full slots in compact form. -/
def compactFrame (hop : Nat) (f : Frame) : Frame :=
  forwardFrame hop f (BitVec.ofNat 56 (setField f.hdr.toNat 51 51 1)) (compactBlocks f.data)

/-- A hub forwards a collect frame of a string: not of a string left out, and compact when the form of the cycle is
(R218). -/
def Plant.hubCollect (p : Plant) (h : Fin 8) (l : Nat) (f : Frame) : Plant :=
  let k := l / 2
  let u := p.hub h
  let p := p.onPort h k (fun e => if l % 2 = 0 then { e with begunHead := true } else { e with begunTail := true })
  if u.form = 3 ∧ bitOf u.omitted k then p
  else
    let hop := p.hopCode (.hub h) l
    if 2 ≤ u.form ∧ !bitOf f.hdr.toNat 51 then
      (p.bump (.hub h) K.hubConverted (bits f.hdr.toNat 25 20)).hubUp h (compactFrame hop f)
    else p.hubUp h (forwardFrame hop f f.hdr f.data)

/-! ### Cells: commands (R39, R232–R234, R241, R247, 14 R387) -/

/-- A command slot (R233): SEQ, state, polarity, phase, duty, period. -/
def slotCmd (b : Nat) (k : Nat) : Cmd :=
  { state := bits b 55 52, neg := bitOf b 51, ph := bitOf b 50, duty := bits b 47 32, period := bits b 31 15, k := k }

/-- A slot is valid (R233). -/
def slotValid (b seq : Nat) : Bool :=
  bits b 63 56 == seq && decide (bits b 55 52 ≤ 4) &&
    (bits b 55 52 != 4 || decide (1000 ≤ bits b 31 15 ∧ bits b 31 15 ≤ 100000))

/-- The slot of a position in a command frame. -/
def slotIndex (dir : Bool) (first count pos : Nat) : Option Nat :=
  let i : Int := if dir then (first : Int) - pos else (pos : Int) - first
  if 0 ≤ i ∧ i < count then some i.toNat else none

/-- The last position a command frame serves: the cell there does not forward it (R234). -/
def lastPos (dir : Bool) (first count : Nat) : Int := if dir then (first : Int) + 1 - count else (first : Int) + count - 1

/-- The cycle a SEQ names for the next A, or, when Ta > Tc, the one after it (R247). -/
def Plant.seqCycle (p : Plant) (c : CellId) (seq : Nat) : Option Nat :=
  let a := (p.cell c).applied
  let sc := (p.node (.cell c)).sched
  if (a + 1) % 256 = seq then some (a + 1)
  else if sc.tc < sc.ta ∧ (a + 2) % 256 = seq then some (a + 2)
  else none

/-- E is newer than L (14 R387). -/
def epochNewer (e l : Nat) : Bool := let d := (e + 65536 - l) % 65536; decide (1 ≤ d ∧ d ≤ 32767)

/-- The authority epoch rule of a cell (14 R387): whether a command frame is accepted, with the latch after it. -/
def Plant.takeEpoch (p : Plant) (c : CellId) (e : Nat) : Bool × Plant :=
  let q := Part.cell c
  let l := p.getN q K.redAepochLatched
  if l = 0 ∨ epochNewer e l then (true, p.put q K.redAepochLatched e)
  else if e = l then (true, p)
  else (false, p.bump q K.redAepochLow 1)

/-- Files a command for its apply instant (02 R30, R234, 14 R387): the first of an epoch is used, a newer epoch replaces an
older one, and one received after a trip frame replaces one from before it (06 R140). -/
def Plant.fileCmd (p : Plant) (c : CellId) (l k epoch : Nat) (m : Cmd) : Plant :=
  let e := p.cell c
  let new : Filed := { k := k, cmd := m, epoch := epoch, stale := false }
  match e.filed.find? (fun f => f.k == k) with
  | none => p.onCell c (fun e => { e with filed := e.filed ++ [new] })
  | some f =>
    if f.stale ∨ epochNewer epoch f.epoch then
      p.onCell c (fun e => { e with filed := e.filed.map (fun g => if g.k = k then new else g) })
    else p.bump (.cell c) (tamKey l 0x0B) 1

/-- A_k minus the present instant, by a cell's clock, in 1/256 ns: what a command's last block has left as it arrives. -/
def Plant.margin (p : Plant) (c : CellId) (k : Nat) : Int :=
  let q := Part.cell c
  let sc := (p.node q).sched
  signed 40 (unsigned 40 (256 * ((sc.s + sc.ta : Nat) + ((k : Int) - sc.k) * sc.tc) - p.now256 q))

/-- cycle.cmd_margin: the smallest A minus arrival of a command's last block, in ns (02 R51). -/
def Plant.noteMargin (p : Plant) (c : CellId) (k : Nat) : Plant :=
  let q := Part.cell c
  let m := p.margin c k / 256
  if m < p.get q K.cycleCmdMargin then p.put q K.cycleCmdMargin m else p

/-- A command frame of another trip generation than the one a cell has latched (R241). -/
def Plant.superseded (p : Plant) (c : CellId) (f : Frame) : Bool :=
  (p.cell c).hasTgen && bits f.hdr.toNat 3 0 != p.getN (.cell c) K.tamTgenLatched % 16

/-- A cell acts on its slot of a command frame with a passing check (R39, R234): not on one whose last block comes later than
A - 60 ns. -/
def Plant.cellCommand (p : Plant) (c : CellId) (l : Nat) (f : Frame) (b : Nat) : Plant :=
  let q := Part.cell c
  let h := f.hdr.toNat
  if !p.locked q ∨ !(p.cell c).hasTgen then p
  else
    let r := p.takeEpoch c (bits h 39 24)
    if !r.1 then r.2
    else match p.seqCycle c (bits h 47 40) with
      | none => r.2
      | some k =>
        let p := r.2.noteMargin c k
        if p.margin c k < 60 * 256 then p else p.fileCmd c l k (bits h 39 24) (slotCmd b k)

/-- Forwards a frame on a cell's other lane. -/
def Plant.cellForward (p : Plant) (c : CellId) (l : Nat) (f : Frame) : Plant :=
  p.send (.cell c) (otherLane l) (forwardFrame (p.hopCode (.cell c) l) f f.hdr f.data)

/-- A command frame at a cell (R234): one out of window is dropped; one of another trip generation is dropped without
a violation, and passes on (R241, R258); an invalid own slot is a violation of bad length that cuts the frame, whose
copy ends with an abort block (R259); otherwise the cell takes its slot and forwards the frame, unless it is the last.
-/
def Plant.commandAtCell (p : Plant) (c : CellId) (l : Nat) (f : Frame) (good : Bool) : Plant :=
  let q := Part.cell c
  let h := f.hdr.toNat
  let dir := bitOf h 50
  let first := bits h 15 10
  let count := bits h 9 4
  let pos := p.getN q K.stringPos
  if !p.serving q then p.cellForward c l f
  else if p.locked q ∧ (p.seqCycle c (bits h 47 40)).isNone then p.violation q l 6
  else
    let own := if (p.cell c).posKnown then (slotIndex dir first count pos).bind (fun i => f.data[i]?) else none
    let onward := fun (p : Plant) => if (p.cell c).posKnown ∧ lastPos dir first count = (pos : Int) then p else p.cellForward c l f
    match own with
    | none => onward p
    | some b =>
      if good && p.superseded c f then onward ((p.bump q (tamKey l 0x0C) 1).raise q 47 l)
      else if good && !slotValid b.toNat (bits h 47 40) then (p.abortOnward q l).violation q l 5
      else onward (if good then p.cellCommand c l f b.toNat else p)

/-- SEQ of a command frame at a hub names the cycle of the next A by its own network time, or, when Ta > Tc, the one after it (R247). -/
def Plant.hubCommandWindow (p : Plant) (h : Fin 8) (seq : Nat) : Bool :=
  let q := Part.hub h
  let sc := (p.node q).sched
  let tc : Int := 100 * sc.tc
  let k := (((sc.k : Int) + (p.sinceS q - 100 * sc.ta) / tc + 1) % 256).toNat
  !p.knowsCycle q || seq == k || (decide (sc.tc < sc.ta) && seq == (k + 1) % 256)

/-- COMMAND: a command frame at a hub or a cell (R232–R234). -/
def execCommand (port : Port) (f : Frame) (s : State) : Host.Outcome State Fault Refusal :=
  s.on (fun p => p.receive port f 1 (fun p good =>
    let l := port.lane.val
    match port.part with
    | .cell c => p.commandAtCell c l f good
    | .hub h =>
      if l < 48 then p
      else if p.hubTakes h l then
        (if p.hubCommandWindow h (bits f.hdr.toNat 47 40) then p.hubCommand h l f else p.violation (.hub h) l 6)
      else p.foreign h
    | .cvc => p))

/-! ### Cells: reports (R235–R239) -/

/-- Puts a cell's own slot into the data blocks. -/
def fillSlot (data : List Block) (i : Nat) (slot : List Nat) : List Block :=
  let w := slot.length
  data.take (i * w) ++ slot.map (BitVec.ofNat 64) ++ data.drop ((i + 1) * w)

/-- A slot that is not filled: STATE 0xFF (R239). -/
def emptySlot (compact : Bool) : List Nat := if compact then [0xFF * 2 ^ 48] else [0xFF * 2 ^ 48, 0]

/-- A collect frame at a cell: it fills its own slot and forwards the frame (R239); out of window it is dropped (R247). -/
def Plant.collectAtCell (p : Plant) (c : CellId) (l : Nat) (f : Frame) : Plant :=
  let q := Part.cell c
  let h := f.hdr.toNat
  if !p.serving q then p.cellForward c l f
  else if p.knowsCycle q ∧ bits h 47 40 ≠ (p.schedNow q).k % 256 then p.violation q l 6
  else
    let compact := bitOf h 51
    let hop := p.hopCode q l
    let mine := if (p.cell c).posKnown then slotIndex (!bitOf h 50) (bits h 31 26) (bits h 25 20) (p.getN q K.stringPos) else none
    match mine with
    | none => p.cellForward c l f
    | some i =>
      let g := forwardFrame hop f f.hdr (fillSlot f.data i (p.reportSlot c compact))
      (p.send q (otherLane l) g).reported c

/-- COLLECT: a collect frame at a cell it passes, or at the hub (R239, R217). -/
def execCollect (port : Port) (f : Frame) (s : State) : Host.Outcome State Fault Refusal :=
  s.on (fun p => p.receive port f 2 (fun p _ =>
    let l := port.lane.val
    match port.part with
    | .cell c => p.collectAtCell c l f
    | .hub h =>
      if 48 ≤ l then p
      else if p.knowsCycle (.hub h) ∧ bits f.hdr.toNat 47 40 ≠ (p.schedNow (.hub h)).k % 256 then
        p.violation (.hub h) l 6
      else p.hubCollect h l f
    | .cvc => p))

/-- COLLECT_LAUNCH: at S + 300 ns the launcher of a segment starts a collect frame towards its port (R239, 08 R208). -/
def execCollectLaunch (c : CellId) (s : State) : Host.Outcome State Fault Refusal :=
  s.on (fun p =>
    let q := Part.cell c
    let launch := p.getN q K.stringLaunch
    let pos := p.getN q K.stringPos
    if !p.serving q ∨ launch = 0 then p
    else
      let n := p.c (K.stringCells + c.str.val)
      let compact := match (p.cell c).plan.latched with | some v => decide (2 ≤ v.form) | none => false
      let tail := launch == 2
      let count := if tail then n - pos else pos + 1
      let hdr := 2 * 2 ^ 52 + (if compact then 2 ^ 51 else 0) + (if tail then 2 ^ 50 else 0) +
        ((p.cell c).sample.k % 256) * 2 ^ 40 + c.str.val * 2 ^ 32 + pos * 2 ^ 26 + count * 2 ^ 20
      let rest := (List.replicate (count - 1) (emptySlot compact)).flatten
      let f := mkFrame hdr (p.reportSlot c compact ++ rest)
      (p.send q (if tail then 1 else 0) f).reported c)

/-! ### Trip frames (R241, 06 R140) -/

/-- A cell acts on a trip frame, once per TSEQ (R241, 06 R140, R161). -/
def Plant.tripAtCell (p : Plant) (c : CellId) (tseq : Nat) : Plant :=
  let q := Part.cell c
  let p := ((p.put q K.tamTgenLatched tseq).onCell c (fun e => { e with tripRx := true })).capEvent c 5
  if (p.cell c).tripSeen = some tseq then p
  else
    let p := p.put q K.swBench 0
    let p := p.onCell c (fun e => { e with
      tripSeen := some tseq, tripHold := true,
      filed := e.filed.map (fun f => { f with stale := true }) })
    if p.fired c then p else p.holdLow c 0

/-- A hub forwards a trip frame of the CVC it takes frames from into both ports of every string, and relays one with a
passing check to the other CVC (R241, 14 R382). -/
def Plant.tripAtHub (p : Plant) (h : Fin 8) (l : Nat) (f : Frame) (good : Bool) : Plant :=
  let q := Part.hub h
  let fromB := decide (50 ≤ l)
  let p := if good then p.sendPair q (hubPair (!fromB)).1 (hubPair (!fromB)).2 f else p
  if p.hubTakes h l then
    let g := forwardFrame (p.hopCode q l) f f.hdr f.data
    (rangeFrom 0 48).foldl (fun p x => p.send q x g) p
  else p.foreign h

/-- TRIP: a trip frame at a cell, a hub, or, relayed, at a CVC (R241, 14 R382, R389). A hub drops one from a string. -/
def execTrip (port : Port) (f : Frame) (s : State) : Host.Outcome State Fault Refusal :=
  s.on (fun p => p.receive port f 3 (fun p good =>
    let l := port.lane.val
    let tseq := bits f.hdr.toNat 23 20
    match port.part with
    | .cell c =>
      let p := p.cellForward c l f
      if good ∧ p.serving (.cell c) then p.tripAtCell c tseq else p
    | .hub h => if l < 48 then p else p.tripAtHub h l f good
    | .cvc =>
      if good ∧ bits f.hdr.toNat 51 51 ≠ p.c K.redId then
        p.onCvc (fun v => { v with mirror := { v.mirror with relayTseq := some tseq } })
      else p))

/-! ### Ends of collect frames (08 R213, R230) -/

/-- EMPTY_FRAME_END: no collect frame began at a port end in time; the hub sends the CVC an empty frame end (08 R213,
R235). -/
def execEmptyFrameEnd (h : Fin 8) (lane : Fin 48) (s : State) : Host.Outcome State Fault Refusal :=
  s.onUp (.hub h) (fun p =>
    let k := lane.val / 2
    let e := p.hubPort h k
    let begun := if lane.val % 2 = 0 then e.begunHead else e.begunTail
    if begun then p
    else
      let form := if 2 ≤ (p.hub h).form then 2 ^ 51 else 0
      let hdr := 2 * 2 ^ 52 + form + (if lane.val % 2 = 0 then 0 else 2 ^ 50) + 2 ^ 49 +
        ((p.schedNow (.hub h)).k % 256) * 2 ^ 40 + (24 * h.val + k) * 2 ^ 32
      let p := p.onPort h k (fun e => if lane.val % 2 = 0 then { e with begunHead := true } else { e with begunTail := true })
      p.hubUp h (mkFrame hdr []))

end Sys2Proof.Machine
end

