-- ==== Sys2Proof/Machine/Harp.lean ====
section
/-! DEFINITION. The Harp: prediction, quantising, availability, ranking, selection and the commands of a cycle
(03_harp_cell_selection.md; 02_control_cycle.md R36–R38, R42, R46, R49; 09 R232–R234). -/

namespace Sys2Proof.Machine

/-- The Harp's record of a cell. -/
def Plant.harpCell (p : Plant) (id : Nat) : HarpCell := Tab.get (fun _ => default) p.cvc.harp id
/-- Changes it. -/
def Plant.onHarpCell (p : Plant) (id : Nat) (f : HarpCell → HarpCell) : Plant :=
  p.onCvc (fun c => { c with harp := Tab.upd (fun _ => default) c.harp id f })
/-- The selector of an arm. -/
def Plant.harpArm (p : Plant) (a : Nat) : ArmHarp := Tab.get (fun _ => default) p.cvc.harpArms a
/-- Changes it. -/
def Plant.onHarpArm (p : Plant) (a : Nat) (f : ArmHarp → ArmHarp) : Plant :=
  p.onCvc (fun c => { c with harpArms := Tab.upd (fun _ => default) c.harpArms a f })

/-- The Harp parameters of a side in effect now, subindices 1–19 (R73). -/
def Plant.harpPars (p : Plant) (side : Nat) : HarpPar :=
  ⟨(rangeFrom 1 19).map (fun s => p.get .cvc ((0x2410 + side) * 256 + s))⟩

/-- The parameters in effect at S of a cycle (R54). -/
def Plant.harpParsAt (p : Plant) (side k : Nat) : List Int :=
  (p.cvc.pars.getD (if k = p.k then side else 2 + side) default).vals

/-- The discovered cells of an arm in used strings, in ascending identifier (R61). -/
def Plant.harpCells (p : Plant) (a : Nat) : List Nat :=
  (p.usedStrings.filter (fun e => e.2 == a)).flatMap (fun e => p.cellsOfString e.1)

/-- A cell is a full-bridge, as it answered (16 R448). -/
def Plant.isFull (p : Plant) (id : Nat) : Bool := fullBridgeType (p.cellInfo id).ans.type
where
  /-- CELL_TYPE 2 and 3 are full-bridges (06 R132). -/
  fullBridgeType (t : Nat) : Bool := decide (2 ≤ t)

/-- BASE quantities of a side (02 R51): arm voltage and cell voltage in mV, arm current in mA. -/
def Plant.baseVArm (p : Plant) (side : Nat) : Int := p.get .cvc (K.baseVArmA + side)
/-- The cell voltage base. -/
def Plant.baseVCell (p : Plant) (side : Nat) : Int := p.get .cvc (K.baseVCellA + side)
/-- The arm current base. -/
def Plant.baseIArm (p : Plant) (side : Nat) : Int := p.get .cvc (K.baseIArmA + side)

/-! ### Predicted voltage (R56, R57) -/

/-- duty × polarity of a TRIM command in 1/65,536; 0 for another state. -/
def trimOf (m : Cmd) : Int := if m.state = 4 then (if m.neg then -(m.duty : Int) else m.duty) else 0

/-- The state factor g in 1/65,536 (R56); `trim` is the TRIM factor that applies. -/
def gFactor (full : Bool) (i : Int) (st : Nat) (trim : Int) : Int :=
  match st with
  | 2 => 65536
  | 3 => -65536
  | 4 => trim
  | 0 => if full then 65536 * signI i else if 0 < i then 65536 else 0
  | _ => 0

/-- v_pred before saturation: v + i × (g(s_S) t1 + g(s_prev) t2) ÷ C in steps of the cell voltage base (R56). i in steps of the
arm current base of iBase mA, times in ns, C in nF, the cell voltage base in mV. -/
def vPred (v i iBase vBase : Int) (gt : Int) (c : Nat) : Int :=
  rquot (v * (65536 * (c : Int) * vBase) + i * iBase * gt) (65536 * (c : Int) * vBase)

/-- C of a cell (R57): cell.c_nom as read, else the side's default; 0 when neither is set. -/
def Plant.cellC (p : Plant) (id : Nat) (par : List Int) : Nat :=
  let c := (p.cellInfo id).cnom
  if c ≠ 0 then c else (parAt par 0x11).toNat

/-- The command given for A_(k−1), if one was since the cell's discovery. -/
def HarpCell.cmdFor (h : HarpCell) (k : Nat) : Option Cmd := if 1 ≤ h.given ∧ h.prev.k + 1 = k then some h.prev else none

/-- The command given for A_(k−2). -/
def HarpCell.cmdFor2 (h : HarpCell) (k : Nat) : Option Cmd := if 2 ≤ h.given ∧ h.prev2.k + 2 = k then some h.prev2 else none

/-- The previous command (R53): a cell that was given none is commanded BLOCK, as in every cycle in which it has no command. -/
def HarpCell.prevAt (h : HarpCell) (k : Nat) : Cmd := (h.cmdFor k).getD { state := 0, neg := false, ph := false, duty := 0, period := 0, k := k - 1 }

/-- The command for the apply instant before S: A_(k−1), or A_(k−2) when Ta > Tc (R71). -/
def Plant.cmdAtS (p : Plant) (h : HarpCell) (k : Nat) : Option Cmd := if p.tc < p.ta then h.cmdFor2 k else h.cmdFor k

/-- A cell as the selector sees it at H. -/
structure View where
  id : Nat
  ok : Bool
  known : Bool
  v : Int
  stale : Bool
  missed : Bool
  sat : Bool
  mismatch : Bool
  deriving DecidableEq, Repr

/-- A view that computes nothing. -/
def View.none_ (id : Nat) (missed : Bool) : View :=
  { id := id, ok := false, known := false, v := 0, stale := false, missed := missed, sat := false, mismatch := false }

/-- What the selector makes of one cell at H of cycle k (R56–R58, R61, R71); `i` is i_arm. Availability and v_pred of cycle k − 1 are
those of the arm's latest run: a held cycle computes none (log entry 30). -/
def Plant.viewCell (p : Plant) (par : List Int) (side k : Nat) (i : Int) (id : Nat) : View :=
  let h := p.harpCell id
  let full := p.isFull id
  let left := p.stringLeftOut (id / 64) k
  let t1 : Int := if p.tc < p.ta then p.ta - p.tc else p.ta
  let t2 : Int := if p.tc < p.ta then p.tc else 0
  let prev := h.prevAt k
  let gPrev := gFactor full i prev.state (trimOf prev)
  let c := p.cellC id par
  let make := fun (v gS : Int) => vPred v i (p.baseIArm side) (p.baseVCell side) (gS * t1 + gPrev * t2) c
  match (if left then none else p.reportOf id k) with
  | some r =>
    let code := r.state % 16
    let was := p.cmdAtS h k
    let mismatch := !bitOf r.state 5 && !r.loss && code != 5 && (match was with | some m => code != m.state | none => false)
    if c = 0 then { View.none_ id false with mismatch := mismatch }
    else
      let trim := match was with
        | some m => if m.state = 4 then trimOf m else h.lastTrim
        | none => h.lastTrim
      let x := make r.v (gFactor full i code trim)
      {
        id := id, ok := !r.loss && !h.forced && code != 5 && decide (r.status / 16 % 4 < 2), known := true, v := satPU x,
        stale := false, missed := false, sat := satHit x, mismatch := mismatch }
  | none =>
    if left ∨ !h.avail ∨ parAt par 0x10 ≤ h.missRun ∨ c = 0 then View.none_ id true
    else
      let x := make h.vpred gPrev
      {
        id := id, ok := !h.forced && prev.state != 5, known := true, v := satPU x, stale := true, missed := true,
        sat := satHit x, mismatch := false }

/-! ### Quantiser (R59, R60) -/

/-- n_req, f in steps, the sign of the request, and whether QUANT_SAT is set. -/
structure Quant where
  n : Int
  f : Int
  sign : Int
  sat : Bool
  deriving DecidableEq, Repr

/-- Mode 0 (R59 steps 1–3): from u over the mean predicted voltage. `sum` is over `cnt` cells; bases in mV. The mean enters the
division exactly, unrounded (log entry 30). -/
def quantU (u vArm vCell sum : Int) (cnt : Nat) : Quant :=
  if cnt = 0 ∨ sum ≤ 0 then ⟨0, 0, 0, true⟩
  else
    let num := u * vArm * cnt
    let den := sum * vCell
    let past := decide (768 * den < num.natAbs)
    if past then ⟨768 * signI num, 0, signI num, true⟩
    else
      let n := num.tdiv den
      ⟨n, rquot ((num - n * den) * 16777216) den, signI num, false⟩

/-- Mode 1 (R60): from the work item's operands. Where n_req is 0 the sign is that of f before the f_floor rounding (log entry 30). -/
def quantOps (n f : Int) : Quant :=
  let sat := decide (768 < n.natAbs)
  let n := clampI (-768) 768 n
  let good := (decide (0 < n) && decide (0 ≤ f ∧ f < 16777216)) || (decide (n < 0) && decide (-16777216 < f ∧ f ≤ 0)) ||
    (n == 0 && decide (-16777216 < f ∧ f < 16777216))
  let f := if good then f else 0
  ⟨n, f, if n = 0 then signI f else signI n, sat || !good⟩

/-- The whole-cell rounding of R59 steps 3 and 4. -/
def quantFloor (fl : Int) (q : Quant) : Quant :=
  let a : Int := q.f.natAbs
  if 16777216 ≤ a then { q with n := q.n + signI q.f, f := 0 }
  else if a < fl then { q with f := 0 }
  else if 16777216 - fl < a then { q with n := q.n + signI q.f, f := 0 }
  else q

/-! ### Selection (R63–R68) -/

/-- The key of an available cell (R64). -/
def keyOf (v dir h pen : Int) (incumbent full : Bool) : Int :=
  if incumbent then satPU (v - dir * h - (if full then dir * pen else 0))
  else if full then satPU (v + dir * pen) else v

/-- Puts a cell into the order of R66: by dir × key, then by identifier. -/
def insertKey (dir : Int) (e : Nat × Int) : List (Nat × Int) → List (Nat × Int)
  | [] => [e]
  | x :: t => if dir * e.2 < dir * x.2 ∨ (e.2 = x.2 ∧ e.1 < x.1) then e :: x :: t else x :: insertKey dir e t

/-- The order of R66. -/
def orderKeys (dir : Int) (l : List (Nat × Int)) : List (Nat × Int) := l.foldl (fun o e => insertKey dir e o) []

/-- Fills the trim slots (R66): incumbents that are candidates first, then the first candidates not yet taken. A slot holds an
identifier plus 1, 0 for none. -/
def fillSlots (slots : Nat) (inc : List Nat) (cand : List Nat) : List Nat :=
  let first := (rangeFrom 0 slots).map (fun j => let x := inc.getD j 0; if x ≠ 0 ∧ cand.contains (x - 1) then x else 0)
  first.zipIdx.foldl (fun (acc : List Nat) e =>
    if e.1 ≠ 0 then acc
    else match cand.find? (fun c => !acc.contains (c + 1)) with
      | some c => acc.set e.2 (c + 1)
      | none => acc) first

/-- Flags of R75. -/
structure HFlags where
  quantSat : Bool
  sat : Bool
  negClamp : Bool
  trimDrop : Bool
  dirHeld : Bool
  availLow : Bool
  stale : Bool
  mismatch : Bool
  deriving DecidableEq, Repr

/-- harp.flags as bits (R75). -/
def HFlags.bits (f : HFlags) : Nat :=
  flagBit f.quantSat 0 + flagBit f.sat 1 + flagBit f.negClamp 2 + flagBit f.trimDrop 3 + flagBit f.dirHeld 4 +
    flagBit f.availLow 5 + flagBit f.stale 6 + flagBit f.mismatch 7

/-- The outcome of the selection of R66: the whole set, the trim slots, f, SAT and TRIM_DROP. -/
structure Picked where
  whole : List Nat
  trims : List Nat
  f : Int
  sat : Bool
  drop : Bool
  deriving DecidableEq, Repr

/-- The selection of R66 on an ordered list of identifiers. -/
def pick (order : List Nat) (nReq f : Int) (slots : Nat) (inc : List Nat) (trimOk : Nat → Bool) : Picked :=
  let past := decide (order.length < nReq.natAbs)
  let n := min nReq.natAbs order.length
  let f := if past then 0 else f
  let whole := order.take n
  if f = 0 then ⟨whole, [], 0, past, false⟩
  else
    let trims := fillSlots slots inc ((order.drop n).filter trimOk)
    if trims.all (· == 0) then
      if 8388608 ≤ f.natAbs then
        if n < order.length then ⟨order.take (n + 1), [], 0, past, true⟩ else ⟨whole, [], 0, true, true⟩
      else ⟨whole, [], 0, past, true⟩
    else ⟨whole, trims, f, past, false⟩

/-! ### Commands (R65, R67, R69, R71) -/

/-- n_chg of R65. -/
def stateChanges (old new : Nat) : Nat :=
  let member := fun s => decide (1 ≤ s ∧ s ≤ 4)
  if old = new ∨ !member old ∨ !member new then 0
  else if (old = 2 ∧ new = 3) ∨ (old = 3 ∧ new = 2) then 2 else 1

/-- The budget after a cycle (R65). -/
def budgetAfter (par : List Int) (budget chg : Nat) (trim : Bool) : Nat :=
  (clampI 0 4294967295 ((budget : Int) + chg * parAt par 4 + (if trim then parAt par 5 else 0) - parAt par 6)).toNat

/-- A command that only names a state. -/
def plainCmd (st k : Nat) : Cmd := { state := st, neg := false, ph := false, duty := 0, period := 0, k := k }

/-- Puts the commands of a cycle into effect in the Harp's records: budgets, ages, rests and previous commands
(R65, R67). -/
def Plant.harpUpdate (p : Plant) (par : List Int) (cmds : List (Nat × Cmd)) (rested : List Nat) (fromHarp : Bool) : Plant :=
  cmds.foldl (fun p e =>
    let id := e.1
    let m := e.2
    p.onHarpCell id (fun h => { h with
      budget := budgetAfter par h.budget (stateChanges (h.prevAt m.k).state m.state) (m.state == 4),
      age := if m.state = 4 then min (h.age + 1) 65535 else 0,
      rest := if rested.contains id then (parAt par 0x0D).toNat else h.rest - 1,
      prev := m, prev2 := h.prev, given := if (h.cmdFor m.k).isSome then 2 else 1, hasCmd := fromHarp,
      lastTrim := if m.state = 4 then trimOf m else h.lastTrim })) p

/-- n_chg of R65 over the cells of an arm. -/
def Plant.changesOf (p : Plant) (cmds : List (Nat × Cmd)) : Nat :=
  (cmds.map (fun e => stateChanges ((p.harpCell e.1).prevAt e.2.k).state e.2.state)).sum

/-- i_arm (R53): the current measured at S; with harp.i_mode 1 a forecast by a work item. No input of the arm context carries it, so
its value is a free one (log entry 30). -/
def Plant.harpCurrent (p : Plant) (a : Nat) (par : List Int) : Int × Plant :=
  if parAt par 9 = 1 then
    let (x, p) := p.free
    (signed 32 x, p)
  else ((p.loop a).ctxI, p)

/-- mV to PU32 of the cell voltage base (R64, R13). -/
def puOfMv (v vBase : Int) : Int := satPU (rquot (v * 16777216) vBase)

/-- One selection of an arm at H of cycle k (R53–R69). What it shows waits for its completion. A half in D rounds to even
(log entry 30). -/
def Plant.harpRun (p : Plant) (a k : Nat) : Plant :=
  let side := sideOf a
  let par := p.harpParsAt side k
  let (i, p) := p.harpCurrent a par
  let u := (p.loop a).u
  let ids := p.harpCells a
  let arm := p.harpArm a
  let full := match ids with | id :: _ => p.isFull id | [] => false
  let views := ids.map (p.viewCell par side k i)
  let cand := views.filter (·.ok)
  let q := if parAt par 1 = 0 then
      quantU u (p.baseVArm side) (p.baseVCell side) (sumI (cand.map (·.v))) cand.length
    else quantOps (signed 16 ((p.sinkOperand a 3 k).getD 0)) (signed 32 ((p.sinkOperand a 4 k).getD 0))
  let q := quantFloor (parAt par 0x0B) q
  let neg := !full && decide (q.sign < 0)
  let nReq := if neg then 0 else q.n
  let f := if neg then 0 else q.f
  let pol : Int := if q.sign ≠ 0 then q.sign else if arm.polNeg then -1 else 1
  let strong := i ≠ 0 ∧ parAt par 8 * 16777216 ≤ i.natAbs * p.baseIArm side
  let sigma : Int := if strong then signI i else if arm.sigmaNeg then -1 else 1
  let dir := sigma * pol
  let avail := cand.filter (fun v =>
    !((dir == 1 && decide (parAt par 0x0E < v.v)) || (dir == -1 && decide (v.v < parAt par 0x0F))))
  let vBase := p.baseVCell side
  let hyst := puOfMv (parAt par 2) vBase
  let pen := puOfMv (parAt par 3) vBase
  let isFullBudget := fun id => decide (parAt par 7 ≤ ((p.harpCell id).budget : Int))
  let incumbent := fun id => ((p.harpCell id).cmdFor k).isSome && ((p.harpCell id).prev.state == (if pol = 1 then 2 else 3))
  let keys := avail.map (fun v => (v.id, keyOf v.v dir hyst pen (incumbent v.id) (isFullBudget v.id)))
  let order := (orderKeys dir keys).map (·.1)
  let slots := (parAt par 0x0A).toNat
  let hold := (parAt par 0x0C).toNat
  let inc := [arm.trim0, arm.trim1]
  let rested := (inc.filter (fun x => x != 0 && hold != 0 && decide (hold ≤ (p.harpCell (x - 1)).age))).map (· - 1)
  let trimOk := fun id => !isFullBudget id && (p.harpCell id).rest == 0 && !rested.contains id
  let pk := pick order nReq f slots inc trimOk
  let filled := (pk.trims.filter (· != 0)).length
  let duty := if filled = 0 then 0 else min 65535 (rdiv pk.f.natAbs (256 * filled)).toNat
  let cmds := ids.map (fun id =>
    (id, if pk.whole.contains id then plainCmd (if pol = 1 then 2 else 3) k
      else if pk.trims.contains (id + 1) then
        {
          state := 4, neg := pol == -1, ph := pk.trims.getD 1 0 == id + 1, duty := duty,
          period := (parAt par 0x13).toNat, k := k }
      else plainCmd 1 k))
  let fl : HFlags := {
    quantSat := q.sat || views.any (·.sat), sat := pk.sat, negClamp := neg, trimDrop := pk.drop,
    dirHeld := !decide strong, availLow := decide (avail.length < (parAt par 0x12).toNat),
    stale := views.any (·.stale), mismatch := views.any (·.mismatch) }
  let slotId := fun (x : Nat) => if x = 0 then 0xFFFF else x - 1
  let out : HarpOut := {
    u := u, nIns := pol * pk.whole.length, frac := pk.f, avail := avail.length, dir := if dir = 1 then 1 else 2,
    trimIds := slotId (pk.trims.getD 0 0) * 65536 + slotId (pk.trims.getD 1 0), flags := fl.bits,
    stale := (views.filter (·.missed)).length, mismatch := (views.filter (·.mismatch)).length,
    switches := p.changesOf cmds }
  let p := p.onHarpArm a (fun x => { x with
    started := true, sigmaNeg := sigma == -1, polNeg := pol == -1, trim0 := pk.trims.getD 0 0, trim1 := pk.trims.getD 1 0,
    ready := true, out := some out })
  let p := views.foldl (fun p v => p.onHarpCell v.id (fun h => { h with
    avail := avail.any (fun x => x.id == v.id), vpred := v.v, cUsed := p.cellC v.id par,
    key := match keys.find? (fun e => e.1 == v.id) with | some e => e.2 | none => 0 })) p
  p.harpUpdate par cmds rested true

/-- The window of a cell as a completed run leaves it (R76); v_pred and key are 0 where the run computed none (log entry 31). -/
def HarpCell.shown (h : HarpCell) : HarpWin :=
  { vpred := h.vpred, key := h.key, budget := h.budget, cmd := h.prev.state, age := h.age, rest := h.rest, c := h.cUsed }

/-- A run of an arm completes: its values are shown, its flags become live, and sources 21, 22 and 23 are raised (R71, R72, R74–R76). -/
def Plant.harpPublish (p : Plant) (a : Nat) (o : HarpOut) : Plant :=
  let old := p.c (K.harpFlagsLive + a)
  let p := ((((p.cPut (K.harpU + a) o.u).cPut (K.harpNIns + a) o.nIns).cPut (K.harpFrac + a) o.frac).cPut
    (K.harpAvail + a) (o.avail : Nat)).cPut (K.harpDir + a) (o.dir : Nat)
  let p := p.cPut (K.harpTrimIds + a) (o.trimIds : Nat)
  let p := (p.cPut (K.harpFlagsLive + a) (o.flags : Nat)).cPut (K.harpFlags + a) (p.c (K.harpFlags + a) ||| o.flags : Nat)
  let p := p.bump .cvc (K.harpStale + a) o.stale
  let p := p.bump .cvc (K.harpMismatch + a) o.mismatch
  let p := p.bump .cvc (K.harpSwitches + a) o.switches
  let p := (p.harpCells a).foldl (fun p id => p.onHarpCell id (fun h => { h with win := h.shown })) p
  let p := if o.flags &&& 7 ≠ o.flags &&& 7 &&& old then p.raiseArms 21 (2 ^ a) else p
  let p := if bitOf o.flags 5 then p.raiseArms 22 (2 ^ a) else p
  if bitOf o.flags 7 then p.raiseArms 23 (2 ^ a) else p

/-- A held arm: its previous commands again, BYPASS to a cell that had none from the Harp for the previous A (02 R36, R71). It evaluates
neither reports nor mismatches (log entry 30). -/
def Plant.harpHold (p : Plant) (a k : Nat) : Plant :=
  let cmds := (p.harpCells a).map (fun id =>
    let h := p.harpCell id
    (id, if h.hasCmd ∧ (h.cmdFor k).isSome then { h.prev with k := k } else plainCmd 1 k))
  (p.harpUpdate (p.harpParsAt (sideOf a) k) cmds [] true).onHarpArm a (fun x => { x with ready := true, out := none })

/-- A cell is known FIRED by its latest reports (02 R46, R71). -/
def Plant.knownFired (p : Plant) (id k : Nat) : Bool :=
  match p.reportOf id k, p.reportOf id (k - 1) with
  | some r, _ => r.state % 16 == 5
  | none, some r => r.state % 16 == 5
  | none, none => bitOf (p.cellInfo id).ans.flags 0

/-- An arm that is not selected: BLOCK to its cells; in a blocked arm and in TRIPPED, BYPASS to one that is FIRED
(R71, 02 R46, R49). -/
def Plant.harpOff (p : Plant) (a k : Nat) : Plant :=
  let spare := decide (5 ≤ p.conv)
  let cmds := (p.harpCells a).map (fun id => (id, plainCmd (if spare && p.knownFired id k then 1 else 0) k))
  (p.harpUpdate (p.harpParsAt (sideOf a) k) cmds [] false).onHarpArm a (fun x => { x with
    trim0 := 0, trim1 := 0, ready := true, out := none })

/-- Before the first run after DEBLOCK (R71): no incumbents, signs at +1, no TRIM sent. -/
def Plant.harpStart (p : Plant) (a : Nat) : Plant :=
  if (p.harpArm a).started then p
  else
    let p := p.onHarpArm a (fun x => { x with started := true, sigmaNeg := false, polNeg := false, trim0 := 0, trim1 := 0 })
    (p.harpCells a).foldl (fun p id => p.onHarpCell id (fun h => { h with hasCmd := false, avail := false, lastTrim := 0 })) p

/-- Loss reports and clean reports of a cell of a used arm, followed in every cycle of every state (02 R42). -/
def Plant.trackLoss (p : Plant) (id k : Nat) : Plant :=
  let h := p.harpCell id
  match (if p.stringLeftOut (id / 64) k then none else p.reportOf id k) with
  | none => if h.clean = 0 then p else p.onHarpCell id (fun h => { h with clean := 0 })
  | some r =>
    if r.loss then
      let p := p.onHarpCell id (fun h => { h with forced := true, clean := 0, lossSeen := true })
      if h.lossSeen then p else p.raise .cvc 20 id
    else if !h.forced then (if h.lossSeen then p.onHarpCell id (fun h => { h with lossSeen := false }) else p)
    else
      let n := h.clean + 1
      p.onHarpCell id (fun h => { h with
        lossSeen := false, clean := n, forced := decide (n < p.c K.cycleRejoinCycles) })

/-- The consecutive misses of a cell after this cycle (R58). -/
def Plant.trackMiss (p : Plant) (id k : Nat) : Plant :=
  let got := !p.stringLeftOut (id / 64) k && (p.reportOf id k).isSome
  p.onHarpCell id (fun h => { h with missRun := if got then 0 else h.missRun + 1 })

/-- The cycle whose H comes next (02 R30, R31): the one before the present cycle while its H lies past the present S. -/
def Plant.harpCycle (p : Plant) : Nat :=
  if p.cvc.hLast < p.k ∧ 0 < p.k ∧ (p.tc : Int) * 1000 ≤ p.cvc.hOffPrev then p.k - 1 else p.k

/-- Arms whose work item operands for quantiser mode 1 are not complete (R60). -/
def Plant.modeOneShort (p : Plant) (arms : List Nat) (k : Nat) : Nat :=
  arms.foldl (fun m a =>
    if parAt (p.harpParsAt (sideOf a) k) 1 = 1 ∧ ((p.sinkOperand a 3 k).isNone ∨ (p.sinkOperand a 4 k).isNone) then m + 2 ^ a
    else m) 0

/-! ### Command frames (09 R232–R234) -/

/-- A command slot (09 R233). -/
def cmdSlot (seq : Nat) (m : Cmd) : Nat :=
  seq * 2 ^ 56 + m.state * 2 ^ 52 + (if m.state = 4 then
    (if m.neg then 2 ^ 51 else 0) + (if m.ph then 2 ^ 50 else 0) + m.duty * 2 ^ 32 + m.period * 2 ^ 15 else 0)

/-- The CVC commands cells: it is ACTIVE, or alone in its station in STARTING (14 R379, 02 R49). -/
def Plant.commandsCells (p : Plant) : Bool :=
  p.active || (p.up .cvc && p.conv == 1 && p.c K.stationPair == 0 && p.c K.redId == 0)

/-- Sends a string's command frame for cycle k with the commands in the Harp's records, BLOCK for a cell without one. -/
def Plant.sendCommands (p : Plant) (str k : Nat) : Plant :=
  let n := p.c (K.stringCells + str)
  if n = 0 ∨ !p.commandsCells ∨ !p.hubServes (str / 24) then p
  else
    let seq := k % 256
    let cmds := (rangeFrom 0 n).map (fun pos =>
      let m := (p.harpCell (str * 64 + pos)).prev
      if m.k = k then m else plainCmd 0 k)
    let hdr := 2 ^ 52 + p.c K.redId * 2 ^ 51 + seq * 2 ^ 40 + p.c K.redAepoch * 2 ^ 24 + str * 2 ^ 16 + n * 2 ^ 4 +
      p.c K.tamTgen % 16
    p.sendPair .cvc (str / 24 * 2) (str / 24 * 2 + 1) (mkFrame hdr (cmds.map (cmdSlot seq)))

/-- The first cycle after a takeover (14 R389): the STATE reported at S is each cell's previous command, and there are no trim
incumbents. -/
def Plant.harpTaken (p : Plant) (k : Nat) : Plant :=
  if !p.cvc.tookOver then p
  else
    let p := p.onCvc (fun c => { c with tookOver := false })
    p.armsUsed.foldl (fun p a =>
      let p := p.onHarpArm a (fun x => { x with started := true, trim0 := 0, trim1 := 0 })
      (p.harpCells a).foldl (fun p id =>
        match p.reportOf id k with
        | some r => p.onHarpCell id (fun h => { h with
            prev := plainCmd (r.state % 16) (k - 1), prev2 := plainCmd (r.state % 16) (k - 2), given := 2, hasCmd := true })
        | none => p) p) p

/-- The cells of a string of no arm are commanded BLOCK in every cycle (02 R49). -/
def Plant.blockLoose (p : Plant) (str k : Nat) : Plant :=
  (p.cellsOfString str).foldl (fun p id => p.onHarpCell id (fun h => { h with
    prev := plainCmd 0 k, prev2 := h.prev, given := if (h.cmdFor k).isSome then 2 else 1, hasCmd := false })) p

/-- HARP_LAUNCH: H of a cycle. Work items that are not complete overrun their arms; every selector that runs selects, held
arms repeat, the others are commanded BLOCK (R53, R71; 02 R36, R38, R46, R49; 05 R122). Strings of no arm are sent BLOCK. -/
def Plant.harpLaunch (p : Plant) : Plant :=
  let k := p.harpCycle
  if !(p.node .cvc).sched.valid ∨ k < p.cvc.hLast then p
  else if !p.commandsCells then p.onCvc (fun c => { c with hLast := k + 1 })
  else
    let p := p.harpTaken k
    let (m, unbound, p) := p.vatDeadline k
    let arms := p.armsUsed
    let runs := p.runs
    let live := arms.filter (fun a => runs && !bitOf (p.c K.convArmsBlocked) a)
    let mask := if runs then m ||| p.loopSkips k ||| p.modeOneShort live k else m
    let held := live.filter (bitOf mask)
    let p := (p.onCvc (fun c => { c with hLast := k + 1 })).cPut K.cycleHeldArms (mask % 4096 : Nat)
    let p := if mask = 0 then p else p.bump .cvc K.cycleOverruns 1
    let p := if mask ≠ 0 ∨ unbound then p.raiseArms 16 mask else p
    let p := arms.foldl (fun p a => (p.harpCells a).foldl (fun p id => p.trackLoss id k) p) p
    let p := arms.foldl (fun p a =>
      if live.contains a then
        let p := p.harpStart a
        if held.contains a then p.harpHold a k else p.harpRun a k
      else p.harpOff a k) p
    let p := if runs then arms.foldl (fun p a => (p.harpCells a).foldl (fun p id => p.trackMiss id k) p) p else p
    let p := arms.foldl (fun p a =>
      let run := if bitOf mask a then (p.harpArm a).heldRun + 1 else 0
      let p := p.onHarpArm a (fun x => { x with heldRun := run })
      if p.c K.cycleHoldLimit ≤ run then p.raiseArms 17 (2 ^ a) else p) p
    let p := p.loopTrack
    let loose := (rangeFrom 0 192).filter (fun str => !decide (p.armOfString str < 12))
    loose.foldl (fun p str => (p.blockLoose str k).sendCommands str k) p

/-- HARP_LAUNCH: at H the Harp's run is decided and its commands are formed, and cycle-rate samples of the acquisition system
are delivered (R53, R70; 13 R361). -/
def execHarpLaunch (s : State) : Host.Outcome State Fault Refusal :=
  let k := s.plant.harpCycle
  if !s.plant.up .cvc ∨ !(s.plant.node .cvc).sched.valid ∨ k < s.plant.cvc.hLast then .next s
  else .next (State.acqCycle { s with plant := s.plant.harpLaunch } k)

/-- HARP_COMPLETE: T_H after H the run of an arm has completed: its values are shown, and its strings' command frames leave (R70, R74,
09 R234). -/
def execHarpComplete (a : Arm) (s : State) : Host.Outcome State Fault Refusal :=
  s.onUp .cvc (fun p =>
    if !(p.harpArm a.val).ready then p
    else
      let p := match (p.harpArm a.val).out with
        | some o => p.harpPublish a.val o
        | none => p
      let p := p.onHarpArm a.val (fun x => { x with ready := false, out := none })
      (p.stringsOf a.val).foldl (fun p str => p.sendCommands str (p.cvc.hLast - 1)) p)

/-- The parameters in effect at the S that opens (R54). -/
def Plant.harpBoundary (p : Plant) : Plant :=
  let now := [p.harpPars 0, p.harpPars 1]
  p.onCvc (fun c => { c with pars := now ++ c.pars.take 2 })

/-- DEBLOCK and every stop of the selectors: the next run is a first one (R71). -/
def Plant.harpReset (p : Plant) : Plant :=
  (rangeFrom 0 12).foldl (fun p a => if (p.harpArm a).started then p.onHarpArm a (fun x => { x with started := false }) else p) p

/-- A newly discovered cell has no record of commands, reports or prediction (02 R36, R56, R58). Its budget, age and rest stay with its
place in the string (log entry 30). -/
def Plant.harpForget (p : Plant) (id : Nat) : Plant :=
  p.onHarpCell id (fun h => { (default : HarpCell) with budget := h.budget, age := h.age, rest := h.rest, sev3 := h.sev3 })

/-- Reads cell.c_nom of cells; source 24 once for each that has no value (R57). -/
def Plant.readCaps (p : Plant) (ids : List Nat) : Plant :=
  ids.foldl (fun p id =>
    match cellAt (id / 64) (id % 64) with
    | none => p
    | some c =>
      let v := p.getN (.cell c) K.cellCNom
      let p := p.onCvc (fun x => { x with cells := Tab.upd (fun _ => default) x.cells id (fun i => { i with cnom := v }) })
      let a := p.armOfString (id / 64)
      if v = 0 ∧ a < 12 ∧ p.c (K.harpCDefault + sideOf a * 256) = 0 then p.raise .cvc 24 id else p) p

/-- Once the converter has left STOPPED, by whatever way, cell.c_nom is read from every discovered cell; back in STOPPED the next reading
is due (R57). -/
def Plant.capsBoundary (p : Plant) : Plant :=
  if p.conv < 3 then (if p.cvc.capsRead then p.onCvc (fun c => { c with capsRead := false }) else p)
  else if p.cvc.capsRead then p
  else (p.readCaps ((rangeFrom 0 192).flatMap p.cellsOfString)).onCvc (fun c => { c with capsRead := true })

end Sys2Proof.Machine
end

