-- ==== Sys2Proof/Machine/Owner.lean ====
section
/-! DEFINITION. Ownership of the CVC: the lease, the batch that goes with it, and their ends (15_dictionary_and_hosts.md R412–R419). -/

namespace Sys2Proof.Machine

/-- Changes the GDP server. -/
def Plant.onGdp (p : Plant) (f : Gdp → Gdp) : Plant := p.onCvc (fun c => { c with gdp := f c.gdp })

/-- The owner's requester ID, 0 for none. -/
def Plant.owner (p : Plant) : Nat := p.c K.gdpOwnerRid

/-- The session of a requester. -/
def Plant.session (p : Plant) (rid : Nat) : Option Session := p.cvc.gdp.sessions.find? (fun x => x.rid == rid)

/-- Changes the session of a requester. -/
def Plant.onSession (p : Plant) (rid : Nat) (f : Session → Session) : Plant :=
  p.onGdp (fun g => { g with sessions := g.sessions.map (fun x => if x.rid = rid then f x else x) })

/-- A batch is open and its commit does not wait for its boundary. -/
def Plant.batchOpen (p : Plant) : Bool := p.c K.gdpBatchState == 1 && !p.cvc.gdp.committing

/-- The batch lock is released. -/
def Plant.dropBatch (p : Plant) : Plant :=
  (p.cPut K.gdpBatchState 0).onGdp (fun g => { g with batch := [], committing := false })

/-- The open batch is discarded: 1 as its session restarts, 2 as its lease ends (R412–R414, R419). A commit that is accepted is
written all the same (R424). -/
def Plant.discardBatch (p : Plant) (cause : Nat) : Plant :=
  if !p.batchOpen then p
  else
    let seq := p.c K.gdpBatchSeq
    let p := (p.dropBatch.onSession p.owner (fun x => { x with lostBatch := true })).bump .cvc K.gdpBatchesDiscarded 1
    (p.record .cvc 9 cause 0 seq []).raise .cvc 2 0

/-- The lease of the owner starts now (R414). -/
def Plant.newLease (p : Plant) : Plant := p.onGdp (fun g => { g with leaseEnd := p.tick + ticksMs (p.c K.gdpLease) })

/-- A change of owner, 0 for none: the record, source 0, and every partial DOMAIN value discarded (R402, R413). -/
def Plant.setOwner (p : Plant) (rid prio port : Nat) : Plant :=
  let p := ((p.cPut K.gdpOwnerRid (rid : Nat)).cPut K.gdpOwnerPrio (prio : Nat)).cPut K.gdpOwnerPort (port : Nat)
  let p := p.onGdp (fun g => { g with partials := [] })
  (p.record .cvc 8 prio 0 0 (leBytes 8 rid)).raise .cvc 0 0

/-- The end of a lease without renewal (R414): no owner, source 1, and the open batch discarded. -/
def Plant.endLease (p : Plant) : Plant :=
  if p.owner = 0 then p
  else
    let p := (p.discardBatch 2).setOwner 0 0 0xFF
    (p.bump .cvc K.gdpLeaseExpiries 1).raise .cvc 1 0

/-- The GDP server of a CVC that takes over: no owner, no session, no batch (R424). -/
def Plant.freshServer (p : Plant) : Plant :=
  p.endLease.onGdp (fun g => { g with sessions := [], subs := [], partials := [] })

/-- LEASE_EXPIRE: the owner's lease ends without renewal (R414). -/
def execLeaseExpire (s : State) : Host.Outcome State Fault Refusal := s.onUp .cvc (fun p => p.endLease)

/-- DOMAIN_TIMEOUT: a partial DOMAIN value that has had no segment for 10 s is discarded (R402). -/
def execDomainTimeout (s : State) : Host.Outcome State Fault Refusal :=
  s.onUp .cvc (fun p => p.onGdp (fun g => { g with
    partials := g.partials.filter (fun x => decide (p.tick < x.tick + ticksMs 10000)) }))

/-- SUB_LIFE_EXPIRE: a session has sent no request for gdp.sub_life, and its subscriptions end (R420). -/
def execSubLifeExpire (rid : BitVec 64) (s : State) : Host.Outcome State Fault Refusal :=
  s.onUp .cvc (fun p => p.onGdp (fun g => { g with subs := g.subs.filter (fun x => x.rid != rid.toNat) }))

end Sys2Proof.Machine
end

