-- ==== Sys2Proof/Machine/ServiceFrames.lean ====
section
/-! DEFINITION. Service frames (09_tamlek_frames_and_integrity.md R243). -/

namespace Sys2Proof.Machine

/-- Bytes as blocks of eight, most significant first, the last filled with zeros. The first argument bounds their number. -/
def byteBlocks : Nat → List Nat → List Nat
  | 0, _ => []
  | n + 1, bs => if bs.isEmpty then [] else ofBe ((bs ++ List.replicate 8 0).take 8) :: byteBlocks n (bs.drop 8)

/-- The bytes of blocks. -/
def blockBytes (bs : List Block) : List Nat := bs.flatMap (fun b => beBytes 8 b.toNat)

/-- A service request. -/
def svcRequest (op tag node key off : Nat) (val : List Nat) : Frame :=
  mkFrame (5 * 2 ^ 52 + op * 2 ^ 48 + tag * 2 ^ 40 + node * 2 ^ 24 + val.length * 2 ^ 16)
    ((key / 256 * 2 ^ 48 + key % 256 * 2 ^ 40 + off % 2 ^ 32 * 2 ^ 8) :: byteBlocks 30 val)

/-- A service response. -/
def svcResponse (op tag node key status : Nat) (val : List Nat) : Frame :=
  mkFrame (5 * 2 ^ 52 + 2 ^ 51 + op * 2 ^ 48 + tag * 2 ^ 40 + node * 2 ^ 24 + val.length * 2 ^ 16)
    ((key / 256 * 2 ^ 48 + key % 256 * 2 ^ 40 + status * 2 ^ 24) :: byteBlocks 30 val)

/-- RESP of a service frame. -/
def svcIsResponse (f : Frame) : Bool := bitOf f.hdr.toNat 51
/-- OP. -/
def svcOp (f : Frame) : Nat := bits f.hdr.toNat 50 48
/-- TAG. -/
def svcTag (f : Frame) : Nat := bits f.hdr.toNat 47 40
/-- NODE. -/
def svcNode (f : Frame) : Nat := bits f.hdr.toNat 39 24
/-- The first block. -/
def svcBlock (f : Frame) : Nat := (f.data.getD 0 0).toNat
/-- INDEX × 256 + SUB. -/
def svcKey (f : Frame) : Nat := bits (svcBlock f) 63 40
/-- OFFSET of a request. -/
def svcOffset (f : Frame) : Nat := bits (svcBlock f) 39 8
/-- STATUS of a response. -/
def svcStatus (f : Frame) : Nat := bits (svcBlock f) 39 24
/-- The value. -/
def svcValue (f : Frame) : List Nat := (blockBytes (f.data.drop 1)).take (bits f.hdr.toNat 23 16)

end Sys2Proof.Machine
end

