-- ==== Sys2Proof/Machine/Heartbeat.lean ====
section
/-! DEFINITION. Heartbeats and allegiance of hubs in a redundant pair (14_redundant_pair.md R380, R382, R385). -/

namespace Sys2Proof.Machine

/-- An IDLE frame (09 R245, 14 R380): sender, low bits of k, authority epoch, identity, heartbeat counter and ROLE byte. -/
def idleFrame (part seq epoch id hbc role : Nat) : Frame :=
  mkFrame (6 * 2 ^ 52 + part * 2 ^ 49 + (seq % 256) * 2 ^ 40 + epoch * 2 ^ 24 + id * 2 ^ 16)
    [hbc % 2 ^ 32 * 2 ^ 32 + role * 2 ^ 24]

/-- PART of an IDLE frame. -/
def idlePart (f : Frame) : Nat := bits f.hdr.toNat 51 49
/-- AEPOCH of an IDLE frame. -/
def idleEpoch (f : Frame) : Nat := bits f.hdr.toNat 39 24
/-- ID of an IDLE frame. -/
def idleId (f : Frame) : Nat := bits f.hdr.toNat 23 16
/-- HBC of an IDLE frame. -/
def idleHbc (f : Frame) : Nat := bits ((f.data.getD 0 0).toNat) 63 32
/-- The ROLE byte of an IDLE frame. -/
def idleRole (f : Frame) : Nat := bits ((f.data.getD 0 0).toNat) 31 24

/-- What a hub knows of a CVC. -/
def Hub.cvc (u : Hub) (cvcB : Bool) : HubCvc := if cvcB then u.b else u.a

/-- Changes what a hub knows of a CVC. -/
def Hub.onCvc (u : Hub) (cvcB : Bool) (f : HubCvc → HubCvc) : Hub := if cvcB then { u with b := f u.b } else { u with a := f u.a }

/-- A hub takes the IDLE frame of a CVC, which the lane pair tells (R382, 08 R192). -/
def Plant.idleAtHub (p : Plant) (h : Fin 8) (l : Nat) (f : Frame) : Plant :=
  let role := idleRole f % 16
  p.onHub h (fun u => u.onCvc (decide (50 ≤ l)) (fun e => { e with
    hbc := idleHbc f, role := role, aepoch := idleEpoch f, seq := bits f.hdr.toNat 47 40,
    heard := true, active := e.active || role == 3 }))

/-- The CVC of a hub's allegiance is CVC-B. -/
def Plant.allegB (p : Plant) (h : Fin 8) : Bool := p.getN (.hub h) K.hubAllegiance == 1

/-- A hub at a cycle boundary (R385): it counts the ended cycle, and raises source 27 when the count reaches red.hub_silence
while the other CVC is not heard. The overlap runs on. In a station without a pair a hub has one CVC and counts nothing. -/
def Plant.hubCycle (p : Plant) (h : Fin 8) : Plant :=
  let q := Part.hub h
  let u := p.hub h
  let mine := u.cvc (p.allegB h)
  let other := u.cvc (!p.allegB h)
  let run := if mine.active || !p.stationPaired then 0 else u.silentRun + 1
  let turn := fun (e : HubCvc) => { e with heardPrev := e.heard, heard := false, active := false }
  let p := p.onHub h (fun u => { u with silentRun := run, a := turn u.a, b := turn u.b })
  let p := if p.getN q K.redOverlapLeft = 2 then p.put q K.redOverlapLeft 1 else p
  if run = p.getN q K.redHubSilence ∧ !other.heard then p.raise q 27 0 else p

/-- A number of hub boundaries. -/
def Plant.hubCycles (p : Plant) (q : Part) : Nat → Plant
  | 0 => p
  | n + 1 => match q with
    | .hub h => (p.hubCycle h).hubCycles q n
    | _ => p

/-- ALLEGIANCE_CHANGE: at a boundary the count stands at red.hub_silence or above, and the other CVC was heard in the cycle just
ended: the hub turns to it and an overlap of two cycles begins (R385). -/
def execAllegianceChange (h : Fin 8) (s : State) : Host.Outcome State Fault Refusal :=
  s.onUp (.hub h) (fun p =>
    let q := Part.hub h
    if p.getN q K.redHubSilence ≤ (p.hub h).silentRun ∧ ((p.hub h).cvc (!p.allegB h)).heardPrev then
      let p := p.put q K.hubAllegiance (1 - p.get q K.hubAllegiance)
      let p := (p.bump q K.hubAllegianceChanges 1).put q K.redOverlapLeft 2
      (p.onHub h (fun u => { u with silentRun := 0 })).raise q 26 0
    else p)

/-- OVERLAP_END: the second boundary after the change: the hub takes frames only from the CVC of its allegiance (R385). -/
def execOverlapEnd (h : Fin 8) (s : State) : Host.Outcome State Fault Refusal :=
  s.onUp (.hub h) (fun p => if p.getN (.hub h) K.redOverlapLeft = 1 then p.put (.hub h) K.redOverlapLeft 0 else p)

/-- The hub's own IDLE frame to one CVC, with the other's heartbeat (R380, R382). -/
def Plant.relayFrame (p : Plant) (h : Fin 8) (toB : Bool) : Frame :=
  let e := (p.hub h).cvc (!toB)
  idleFrame 1 (p.schedNow (.hub h)).k 0 h.val e.hbc
    ((if e.heard then 128 else 0) + (if p.allegB h then 64 else 0) + e.role % 16)

/-- RELAY_IDLE_SEND: at A a hub sends its IDLE frame on every uplink lane in L0 or L1, with the heartbeat of the other CVC
(R382, 09 R245). -/
def execRelayIdleSend (h : Fin 8) (s : State) : Host.Outcome State Fault Refusal :=
  s.onUp (.hub h) (fun p =>
    [false, true].foldl (fun p b =>
      let f := p.relayFrame h b
      let p := [(hubPair b).1, (hubPair b).2].foldl (fun p l => p.send (.hub h) l f) p
      if ((p.hub h).cvc (!b)).heard then p.bump (.hub h) K.redHbRelayed 1 else p) p)

end Sys2Proof.Machine
end

