-- ==== Sys2Proof/Machine/Time.lean ====
section
/-! DEFINITION. The time base: the servo of hubs and cells, lock states, link delays, ring closure, PTP and calendar time
(10_time_base.md). -/

namespace Sys2Proof.Machine

/-! ### Time frames (R242, R269, R272, R277) -/

/-- The kind of a time frame: 0 SYNC, 1 SYNC_UP, 2 DELAY_REQ, 3 DELAY_RESP. -/
def timeKind (f : Frame) : Nat := bits f.hdr.toNat 51 50
/-- A data block of a frame. -/
def blockAt (f : Frame) (n : Nat) : Nat := (f.data.getD n 0).toNat
/-- ORIGIN with its fraction, in 1/256 ns. -/
def origin256 (f : Frame) : Int := ((blockAt f 0 * 256 + bits (blockAt f 1) 63 56 : Nat) : Int)
/-- CORR of a time frame. -/
def corrOf (f : Frame) : Nat := bits (blockAt f 1) 55 8

/-- The time of an arrival on the delay-line grid: a tap is 10 units of 1/256 ns (R269). -/
def Plant.arrival (p : Plant) (q : Part) (tap : Fin 64) : Int := p.now256 q + 10 * (tap.val : Int)

/-- A lane is calibrated: it has 16 results (R277). -/
def Plant.calibrated (p : Plant) (q : Part) (l : Nat) : Bool := decide (16 ≤ (p.lane q l).exch.results.length)

/-- time.asym + time.asym_cal of a lane end, in ps. -/
def Plant.asymPs (p : Plant) (q : Part) (l : Nat) : Int := p.get q (timeKey l 2) + p.get q (timeKey l 3)

/-- d_in of a lane end in 1/256 ns (R277): results are kept in 1/512 ns. -/
def Plant.dIn (p : Plant) (q : Part) (l : Nat) : Int :=
  rdiv (sumI (p.lane q l).exch.results) (2 * (p.lane q l).exch.results.length) + rdiv (p.asymPs q l * 256) 2000

/-- A difference of network times in 32-bit arithmetic of nanoseconds, in 1/256 ns (R268). -/
def wrap32 (x : Int) : Int := signed 40 (unsigned 40 x)

/-- e of R271: the offset error that a time frame shows, in 1/256 ns. -/
def Plant.timeError (p : Plant) (q : Part) (l : Nat) (f : Frame) (rx : Int) : Int :=
  wrap32 (origin256 f + corrOf f + p.dIn q l - rx)

/-- The number with the given low 8 bits nearest to k. -/
def nearK (k seq : Nat) : Nat :=
  let d := (seq + 256 - k % 256) % 256
  if d < 128 then k + d else if 256 ≤ k + d then k + d - 256 else seq

/-- A schedule a number of cycles later, through a change of Tc and Ta announced for a boundary (R274, 02 R28). -/
def advance : Nat → Sched → Sched
  | 0, sc => sc
  | n + 1, sc =>
    let s := (sc.s + sc.tc) % 2 ^ 32
    let sc := { sc with s := s, k := sc.k + 1, primary := false }
    advance n (if sc.chgDue ∧ sc.chgS % 2 ^ 32 = s then { sc with tc := sc.chgTc, ta := sc.chgTa, chgDue := false } else sc)

/-- Records e and shows it (R271). -/
def Plant.showErr (p : Plant) (q : Part) (e : Int) : Plant := p.put q K.timeErr (clampI (-2147483648) 2147483647 e)

/-- A step of O (R270, R271). -/
def Plant.stepO (p : Plant) (q : Part) (e : Int) : Plant :=
  let p := p.onNode q (fun n =>
    let c := n.clock.rebase p.tick
    { n with clock := { c with o := c.o + e * 2 ^ 33, slew := 0, slewLen := 0, rho := 0 } })
  (p.put q K.timeRate 0).bump q K.timeSteps 1

/-- ρ at 200 ppm in units of 2^-40. -/
def rhoMax : Int := 219902325

/-- Slew and rate of R271: the error slewed over the next Tc within a limit in 1/256 ns, and ρ moved by e ÷ (256 × Tc). The
last component says whether the rate clamp acted. -/
def servoClock (c : Clock) (tick : Nat) (e lim : Int) (tc : Nat) : Clock × Bool :=
  let c := c.rebase tick
  let rho := c.rho + rdiv (e * 2 ^ 24) tc
  let r := clampI (-rhoMax) rhoMax rho
  ({ c with rho := r, slew := clampI (-lim) lim e * 2 ^ 33, slewLen := ticksNs tc }, decide (r ≠ rho))

/-- ρ in ppb (R270). -/
def ratePpb (rho : Int) : Int := clampI (-200000) 200000 (rdiv (rho * 1000000000) (2 ^ 40))

/-- The servo of a hub or cell without a step (R271). -/
def Plant.disciplineNode (p : Plant) (q : Part) (e : Int) : Plant :=
  let tc := (p.node q).sched.tc
  let r := servoClock (p.node q).clock p.tick e 5120 tc
  let p := (p.onNode q (fun n => { n with clock := r.1 })).put q K.timeRate (ratePpb r.1.rho)
  let p := if r.2 ∨ e < -5120 ∨ 5120 < e then p.bump q K.timeSlewLim 1 else p
  if r.2 then p.raise q (if q.kind = 1 then 25 else 49) 0 else p

/-- |e| in 1/256 ns is at most a threshold in ps. -/
def within (e : Int) (ps : Nat) : Bool := decide (e.natAbs * 1000 ≤ ps * 256)

/-- Apply instants that have passed when SYNC k is in: those before A_k, or, when Ta > Tc, before A_(k−1) (02 R30). -/
def passedApplies (sc : Sched) : Nat := if sc.tc < sc.ta then sc.k - 2 else sc.k - 1

/-- A cell's count of apply instants after a primary frame; the first frame opens this count and that of its samples (06 R141;
log entry 17). -/
def Plant.noteApplies (p : Plant) (q : Part) (fresh locked : Bool) : Plant :=
  match q with
  | .cell c =>
    let n := passedApplies (p.node q).sched
    p.onCell c (fun e => { e with
      applied := if fresh then n else max e.applied n,
      sample := if fresh then { e.sample with k := (p.node q).sched.k } else e.sample,
      everLocked := e.everLocked || locked })
  | _ => p

/-- The table of R275 for a usable primary frame, with the servo of R271. -/
def Plant.lockTable (p : Plant) (q : Part) (e : Int) : Plant :=
  let st := p.getN q K.timeState
  let small := within e (p.getN q K.timeLockThr)
  let mid := within e (p.getN q K.timeUnlockThr)
  let setCount := fun (p : Plant) (n : Nat) => p.onNode q (fun m => { m with sched := { m.sched with count := n } })
  match st with
  | 0 => (setCount (p.stepO q e) (if small then 1 else 0)).put q K.timeState 1
  | 1 =>
    if small then
      let n := (p.node q).sched.count + 1
      let p := setCount (p.disciplineNode q e) n
      if 16 ≤ n then p.put q K.timeState 2 else p
    else if mid then setCount (p.disciplineNode q e) 0
    else setCount (p.stepO q e) 0
  | 2 => if mid then p.disciplineNode q e else (p.disciplineNode q e).unlock q
  | _ => if mid then (p.disciplineNode q e).put q K.timeState 2 else (p.disciplineNode q e).unlock q

/-- Cycle boundaries of a hub or cell: what a hub counts in them, and MEND for the lanes that no PLAN shows restored yet (08 R211). -/
def Plant.partCycles (p : Plant) (q : Part) (n : Nat) : Plant := if n = 0 then p else (p.hubCycles q n).mendAgain q

/-- A usable primary time frame at a hub or cell (R271–R275, R279): one whose ORIGIN is not the scheduled S drives the servo too, before the
part is UNLOCKED (R271, R274). -/
def Plant.primaryFrame (p : Plant) (q : Part) (l : Nat) (f : Frame) (rx : Int) : Plant :=
  let st := p.getN q K.timeState
  let sc := (p.node q).sched
  let seq := bits f.hdr.toNat 47 40
  let origin := blockAt f 0 % 2 ^ 32
  let e := p.timeError q l f rx
  let next : Sched :=
    if st = 0 then { sc with
      valid := true, s := origin, k := nearK p.k seq, tc := p.tc, ta := p.ta,
      chgDue := (p.node .cvc).sched.chgDue, chgS := (p.node .cvc).sched.chgS, chgTc := (p.node .cvc).sched.chgTc,
      chgTa := (p.node .cvc).sched.chgTa }
    else advance ((seq + 256 - sc.k % 256) % 256) sc
  let step := st == 0 || (st == 1 && !within e (p.getN q K.timeUnlockThr))
  let at_ : Int := if step then corrOf f + p.dIn q l else wrap32 (rx - origin256 f)
  if st < 2 ∧ 256 * (next.tc : Int) ≤ at_ then p
  else if st ≠ 0 ∧ next.s % 2 ^ 32 ≠ origin then
    let p := p.showErr q e
    let p := (if step then p.stepO q e else p.disciplineNode q e).unlock q
    if q.kind = 2 then p.raise q 50 0 else p
  else
    let n := if st = 0 then 0 else (seq + 256 - sc.k % 256) % 256
    let p := p.partCycles q n
    let p := p.onNode q (fun n => { n with sched := { next with primary := true, missRun := 0 } })
    let p := ((p.showErr q e).lockTable q e).switchBanks q
    let p := p.noteApplies q (st == 0) (p.locked q)
    if st < 2 then p.latchPlans q else p

/-! ### Receiving time frames (R268, R273, R279) -/

/-- time.wraps follows ORIGIN (R268), after what the frame itself did to N: a part that steps recovers its extension with that frame. -/
def Plant.takeWraps (p : Plant) (q : Part) (f : Frame) : Plant :=
  let o := blockAt f 0
  let hi := o / 2 ^ 32
  p.put q K.timeWraps (if p.now q + 2 ^ 31 < o % 2 ^ 32 then ((hi + 1) % 2 ^ 32 : Nat) else (hi : Nat))

/-- A time frame of the cycle named has driven the servo already. -/
def Plant.hadPrimary (p : Plant) (q : Part) (seq : Nat) : Bool :=
  let sc := (p.node q).sched
  sc.valid && sc.primary && sc.k % 256 == seq

/-- SEQ of a time frame names the present cycle, by the part's own network time (09 R247). -/
def Plant.timeInWindow (p : Plant) (q : Part) (seq : Nat) : Bool := seq == (p.schedNow q).k % 256

/-- The lane a cell takes its primary SYNC from (R273, R279): that of its own segment once locked with a plan; before,
either. -/
def Plant.primaryLane (p : Plant) (c : CellId) (l : Nat) : Bool :=
  let e := p.cell c
  if !p.locked (.cell c) ∨ !e.posKnown ∨ e.plan.latched.isNone then true
  else p.getN (.cell c) K.stringSeg == l

/-- Whether a cell forwards a SYNC that arrived on a lane (R273, R279). -/
def Plant.forwardsSync (p : Plant) (c : CellId) (l : Nat) : Bool :=
  let e := p.cell c
  let pos := p.getN (.cell c) K.stringPos
  match e.posKnown, e.plan.latched with
  | true, some v => if l = 0 then decide (pos < v.a) else decide (v.b ≤ pos)
  | _, _ => true

/-- A SYNC queued for the cell's other lane: d_in and the arrival go into CORR, the departure joins them as it leaves
(R272). -/
def Plant.passSync (p : Plant) (c : CellId) (l : Nat) (f : Frame) (rx : Int) : Plant :=
  let q := Part.cell c
  let b := blockAt f 1
  let b := addCorr b (p.dIn q l - rx)
  let b := b - b % 256 + (b + 1) % 256
  let data := match f.data with
    | o :: _ :: t => o :: BitVec.ofNat 64 b :: t
    | d => d
  p.send q (otherLane l) (forwardFrame (p.hopCode q l) f f.hdr data)

/-- Cells at the split of a normal string compare the SYNCs of both ports (R280). -/
def Plant.closureNote (p : Plant) (c : CellId) (l seq : Nat) (e : Int) : Plant :=
  let q := Part.cell c
  let pos := p.getN q K.stringPos
  match (p.cell c).plan.latched with
  | some v =>
    if v.brk ∨ v.a ≠ v.b ∨ !(p.cell c).posKnown ∨ (pos + 1 ≠ v.a ∧ pos ≠ v.a) then p
    else
      let p := p.onNode q (fun n => { n with sched :=
        if l = 0 then { n.sched with eHead := some e, eHeadSeq := seq } else { n.sched with eTail := some e, eTailSeq := seq } })
      let sc := (p.node q).sched
      match sc.eHead, sc.eTail with
      | some a, some b =>
        if sc.eHeadSeq ≠ sc.eTailSeq then p
        else
          let cs := ((a - b) :: sc.closures).take 16
          let p := p.onNode q (fun n => { n with sched := { n.sched with eHead := none, eTail := none, closures := cs } })
          p.put q K.timeClosureOwn (clampI (-2147483648) 2147483647 (rdiv (sumI cs * 1000) (256 * cs.length)))
      | _, _ => p
  | none => p

/-- A SYNC at a cell (R268–R280, 09 R241). -/
def Plant.syncAtCell (p : Plant) (c : CellId) (l : Nat) (f : Frame) (rx : Int) (good : Bool) : Plant :=
  let q := Part.cell c
  let seq := bits f.hdr.toNat 47 40
  let cal := p.calibrated q l
  if !p.serving q then (if cal then p.passSync c l f rx else p)
  else if p.locked q ∧ !p.timeInWindow q seq then p.violation q l 6
  else
    let fwd := p.forwardsSync c l && cal
    let p := if good then
        let p := (p.put q K.tamTgenLatched (bits f.hdr.toNat 39 36)).onCell c (fun e => { e with hasTgen := true })
        let e := p.timeError q l f rx
        let p := if cal ∧ p.primaryLane c l ∧ !p.hadPrimary q seq then p.primaryFrame q l f rx else p
        let p := p.takeWraps q f
        if cal then p.closureNote c l seq e else p
      else p
    if fwd then p.passSync c l f rx else p

/-- SYNC: a SYNC at a cell; a hub discards one that arrives at a string port (R273, R279). -/
def execSync (port : Port) (f : Frame) (tap : Fin 64) (s : State) : Host.Outcome State Fault Refusal :=
  s.on (fun p => p.receive port f 4 (fun p good =>
    match port.part with
    | .cell c => if timeKind f = 0 then p.syncAtCell c port.lane.val f (p.arrival port.part tap) good else p
    | _ => p))

/-- A hub uses a SYNC_UP: its time, and the report form of the cycle (R273, 09 R242, 08 R218). -/
def Plant.useSyncUp (p : Plant) (h : Fin 8) (l : Nat) (f : Frame) (rx : Int) : Plant :=
  let q := Part.hub h
  let p := p.onHub h (fun u => { u with
    tgen := bits f.hdr.toNat 39 36, form := bits (blockAt f 2) 57 56,
    omitted := bits (blockAt f 2) 23 0, heldUp := none })
  (p.primaryFrame q l f rx).takeWraps q f

/-- A SYNC_UP at a hub (R273): from the CVC of its allegiance, on the first lane of the pair when that delivers it with a
passing check, else on the second. -/
def Plant.syncAtHub (p : Plant) (h : Fin 8) (l : Nat) (f : Frame) (rx : Int) (good : Bool) : Plant :=
  let q := Part.hub h
  let seq := bits f.hdr.toNat 47 40
  if l < 48 then p
  else if p.getN q K.hubAllegiance ≠ (l - 48) / 2 then (if good then p.takeWraps q f else p)
  else if p.locked q ∧ !p.timeInWindow q seq then p.violation q l 6
  else
    let first := l % 2 == 0
    let lead := l / 2 * 2
    if first then
      if good && p.calibrated q l then (if p.hadPrimary q seq then p.takeWraps q f else p.useSyncUp h l f rx)
      else
        let p := (if good then p.takeWraps q f else p).onHub h (fun u => { u with upBad := seq + 1 })
        match (p.hub h).heldUp with
        | some (l2, g, rx2) =>
          if bits g.hdr.toNat 47 40 = seq ∧ !p.hadPrimary q seq then p.useSyncUp h l2 g rx2 else p
        | none => p
    else if !good then p
    else if !p.calibrated q l || p.hadPrimary q seq then p.takeWraps q f
    else if !p.laneUp q lead || !p.calibrated q lead || (p.hub h).upBad == seq + 1 then p.useSyncUp h l f rx
    else (p.takeWraps q f).onHub h (fun u => { u with heldUp := some (l, f, rx) })

/-- SYNC_UP: a SYNC_UP at a hub (R273). -/
def execSyncUp (port : Port) (f : Frame) (tap : Fin 64) (s : State) : Host.Outcome State Fault Refusal :=
  s.on (fun p => p.receive port f 4 (fun p good =>
    match port.part with
    | .hub h => if timeKind f = 1 then p.syncAtHub h port.lane.val f (p.arrival port.part tap) good else p
    | _ => p))

/-- The header of a time frame (09 R242). -/
def timeHdr (kind seq tgen str : Nat) : Nat :=
  4 * 2 ^ 52 + kind * 2 ^ 50 + (seq % 256) * 2 ^ 40 + (tgen % 16) * 2 ^ 36 + str * 2 ^ 28

/-- A time frame that its part originates: HOPS is 1, and CORR waits as minus ORIGIN as the part's own clock counts it, so that the
departure added as it leaves makes the difference (R272). -/
def timeFrame (kind seq tgen str origin : Nat) (own : Int) (more : List Nat) : Frame :=
  mkFrame (timeHdr kind seq tgen str) (origin % 2 ^ 64 :: (unsigned 48 (-256 * own) * 256 + 1) :: more)

/-- The ns on a part's own clock, which a hub's or cell's wraps do not enter, at which its 32-bit network time is or was s (R268). -/
def Plant.ownNs (p : Plant) (q : Part) (s : Nat) : Int :=
  let n := p.nowU q / 2 ^ 41
  n - signed 32 (unsigned 32 (n - s))

/-- SYNC_SEND: at S the CVC sends SYNC_UP on every uplink lane, and a locked hub, at S by its own network time, SYNC into every string end
(R273). -/
def execSyncSend (q : Part) (s : State) : Host.Outcome State Fault Refusal :=
  s.onUp q (fun p =>
    let sc := p.schedAtS q
    if !sc.valid then p
    else match q with
    | .cvc =>
      (rangeFrom 0 16).foldl (fun p l =>
        let i := Tab.get (fun _ => default) p.cvc.hubs (l / 2)
        p.sendTimed l (timeFrame 1 sc.k (p.c K.tamTgen) 0xFF sc.s sc.s [max 1 i.form * 2 ^ 56 + i.leftOut])) p
    | .hub h =>
      if !p.locked q then p
      else
        let own := p.ownNs q sc.s
        let o := (p.nowLong q : Int) + own - p.nowU q / 2 ^ 41
        (rangeFrom 0 48).foldl (fun p l =>
          p.send q l (timeFrame 0 sc.k (p.hub h).tgen (24 * h.val + l / 2) (unsigned 64 o) own [])) p
    | .cell _ => p)

/-! ### Cycles without a time frame (R275) -/

/-- A SYNC_UP of the second lane that a hub still holds when the cycle it names ends: the first lane has not brought it (R273). -/
def Plant.lateHeld (p : Plant) (q : Part) : Option (Fin 8 × Nat × Frame × Int) :=
  match q with
  | .hub h =>
    match (p.hub h).heldUp with
    | some (l, f, rx) =>
      let seq := bits f.hdr.toNat 47 40
      if p.getN q K.hubAllegiance = (l - 48) / 2 ∧ !p.hadPrimary q seq ∧
          (p.getN q K.timeState = 0 ∨ seq = ((p.node q).sched.k + 1) % 256) then some (h, l, f, rx)
      else none
    | none => none
  | _ => none

/-- A cycle of a part ends without a usable primary frame (R275): a part that has been UNLOCKED since it had a schedule counts it by that
one (R279). -/
def Plant.cycleMissed (p : Plant) (q : Part) : Plant :=
  let st := p.getN q K.timeState
  let p := (p.bump q K.timeMissed 1).partCycles q 1
  let p := p.onNode q (fun n => { n with sched := { advance 1 n.sched with
    count := 0, missRun := n.sched.missRun + 1 } })
  let p := (if st = 2 then p.put q K.timeState 3 else p).switchBanks q
  p.noteApplies q false false

/-- TIME_FRAME_MISSED: a cycle of the part ends and its primary time frame has not come on the lane that it is taken from. A hub that holds
the SYNC_UP of its other lane uses that (R273); otherwise the cycle has passed with none (R275). The part's schedule moves on. -/
def execTimeFrameMissed (q : Part) (s : State) : Host.Outcome State Fault Refusal :=
  s.onUp q (fun p =>
    let st := p.getN q K.timeState
    match p.lateHeld q with
    | some (h, l, f, rx) => p.useSyncUp h l f rx
    | none => if q.kind = 0 ∨ 3 < st ∨ (st = 0 ∧ !(p.node q).sched.valid) then p else p.cycleMissed q)

/-- HOLDOVER_EXPIRE: time.holdover consecutive cycles have passed without a usable primary frame (R275). -/
def execHoldoverExpire (q : Part) (s : State) : Host.Outcome State Fault Refusal :=
  s.onUp q (fun p =>
    if q.kind ≠ 0 ∧ p.getN q K.timeState = 3 ∧ p.getN q K.timeHoldover ≤ (p.node q).sched.missRun then p.unlock q else p)

/-- COUNTER_WRAP: the 32-bit network time of a hub or cell wraps (R268). -/
def execCounterWrap (q : Part) (s : State) : Host.Outcome State Fault Refusal :=
  s.onUp q (fun p => if q.kind = 0 then p else p.put q K.timeWraps (((p.getN q K.timeWraps + 1) % 2 ^ 32 : Nat) : Int))

/-! ### Link delays (R277) -/

/-- TGEN as a part knows it: its own, or the one it has taken from its latest time frame (09 R241, R242). -/
def Plant.tgenOf (p : Plant) (q : Part) : Nat :=
  match q with
  | .cvc => p.c K.tamTgen
  | .hub h => (p.hub h).tgen
  | .cell _ => p.getN q K.tamTgenLatched

/-- The header of a calibration frame: STRING is 0xFF on lanes that belong to no string (09 R242). -/
def Plant.delayHdr (p : Plant) (q : Part) (l kind seq : Nat) : Nat :=
  timeHdr kind seq (p.tgenOf q) (match q with
    | .cvc => 0xFF
    | .hub h => if l < 48 then stringOfPort h (l / 2) else 0xFF
    | .cell c => c.str.val)

/-- DELAY_REQ_SEND: a part sends DELAY_REQ on a lane at its calibration time (R277, R279). -/
def execDelayReqSend (port : Port) (s : State) : Host.Outcome State Fault Refusal :=
  s.onUp port.part (fun p =>
    let q := port.part
    let l := port.lane.val
    if !p.laneUp q l ∨ (q.kind = 0 ∧ p.serviceOnly l) then p
    else
      let f := mkFrame (p.delayHdr q l 2 ((p.schedNow q).k)) [0, 0]
      (p.onLane q l (fun e => { e with exch := { e.exch with out := true, since := e.exch.since + 1 } })).send q l f)

/-- DELAY_REQ: answered at once with DELAY_RESP: t2, and the turnaround as it leaves (R277). -/
def execDelayReq (port : Port) (f : Frame) (tap : Fin 64) (s : State) : Host.Outcome State Fault Refusal :=
  s.onUp port.part (fun p => p.receive port f 4 (fun p good =>
    let q := port.part
    let l := port.lane.val
    if !good ∨ timeKind f ≠ 2 then p
    else
      let t2 := p.arrival q tap
      let b := (t2 % 256).toNat * 2 ^ 56 + unsigned 48 (-t2) * 256
      p.send q l (mkFrame (p.delayHdr q l 3 (bits f.hdr.toNat 47 40)) [unsigned 64 (t2 / 256), b])))

/-- Shows a lane's delay; a change by more than 1 ns raises source 84 in the CVC (R277). -/
def Plant.showDelay (p : Plant) (q : Part) (l : Nat) (before : Nat) : Plant :=
  let rs := (p.lane q l).exch.results
  let old := p.get q (timeKey l 1)
  let new := clampI 0 4294967295 (rdiv (sumI rs * 1000) (512 * rs.length))
  let p := p.put q (timeKey l 1) new
  if 16 ≤ before ∧ 1000 < (new - old).natAbs ∧ p.up .cvc then p.raise .cvc 84 l else p

/-- DELAY_RESP: one result ((t4 − t1) − CORR) ÷ 2, kept in 1/512 ns (R277). -/
def execDelayResp (port : Port) (f : Frame) (tap : Fin 64) (s : State) : Host.Outcome State Fault Refusal :=
  s.onUp port.part (fun p => p.receive port f 4 (fun p good =>
    let q := port.part
    let l := port.lane.val
    let x := (p.lane q l).exch
    if timeKind f ≠ 3 ∨ !x.out then p
    else if !good then p.onLane q l (fun e => { e with exch := { e.exch with out := false } })
    else
      let r := p.arrival q tap - x.t1 - corrOf f
      let p := p.onLane q l (fun e => { e with exch := { e.exch with out := false, results := (r :: e.exch.results).take 16 } })
      let p := (p.bump q (timeKey l 4) 1).showDelay q l x.results.length
      if p.up .cvc then p.showPaths else p))

/-! ### Ring closure (R280, R281) -/

/-- Moves time.asym_cal of a lane end. -/
def Plant.moveAsym (p : Plant) (q : Part) (l : Nat) (d : Int) : Plant :=
  if p.up q then p.put q (timeKey l 3) (clampI (-2147483648) 2147483647 (p.get q (timeKey l 3) + d)) else p

/-- Shares a closure out over the string's n + 1 links: the moves, which take effect together at the next cycle boundary (R281). -/
def closureMoves (s : StringNo) (n : Nat) (closure : Int) : List (Part × Nat × Int) :=
  let c := rdiv (-closure) (n + 1)
  (rangeFrom 0 (n + 1)).flatMap (fun j =>
    ((linkEnd s n j false).map (fun e => (e.1, e.2, 2 * c))).toList ++ ((linkEnd s n j true).map (fun e => (e.1, e.2, -2 * c))).toList)

/-- The CVC writes the shares of a closure (R281). -/
def Plant.shareClosure (p : Plant) (s : StringNo) (n : Nat) (closure : Int) : Plant :=
  p.onCvc (fun v => { v with asymDue := v.asymDue ++ closureMoves s n closure })

/-- The shares written since the last boundary take effect (R281). -/
def Plant.asymBoundary (p : Plant) : Plant :=
  let due := p.cvc.asymDue
  due.foldl (fun p e => p.moveAsym e.1 e.2.1 e.2.2) (p.onCvc (fun v => { v with asymDue := [] }))

/-- CLOSURE_READ: the CVC reads both cells of the split, shows their mean, and in mode 1 shares it out (R280, R281). -/
def execClosureRead (str : StringNo) (s : State) : Host.Outcome State Fault Refusal :=
  s.onUp .cvc (fun p =>
    let n := p.c (K.stringCells + str.val)
    let a := (n + 1) / 2
    let read := fun (pos : Nat) => match cellAt str.val pos with
      | some c => if p.up (.cell c) then p.get (.cell c) K.timeClosureOwn else 0x7FFFFFFF
      | none => 0x7FFFFFFF
    let normal := decide (2 ≤ n) && p.c (K.stringLost + str.val) == 0
    let x := if normal then read (a - 1) else 0x7FFFFFFF
    let y := if normal then read a else 0x7FFFFFFF
    if x = 0x7FFFFFFF ∨ y = 0x7FFFFFFF then p.cPut (K.timeClosure + str.val) 0x7FFFFFFF
    else
      let v := rdiv (x + y) 2
      let p := p.cPut (K.timeClosure + str.val) v
      let p := if p.c K.timeClosureMax < v.natAbs then p.raise .cvc 83 str.val else p
      if p.c K.timeClosureMode = 1 then p.shareClosure str n v else p)

/-! ### Calendar (R287, R288) -/

/-- A calendar set at a boundary: K, the epoch everywhere, the CALSET record and source 81 (R288). -/
def Plant.calendarSet (p : Plant) (src : Nat) (newK : Int) (n : Nat) : Plant :=
  let old := p.get .cvc K.timeCalOffset
  let epoch := (p.c K.timeEpoch + 1) % 65536
  let p := ((p.cPut K.timeCalOffset newK).cPut K.timeEpoch epoch).cPut K.timeCalSrc src
  let p := p.nodes.foldl (fun p e =>
    if e.1 ≠ 0 ∧ e.2.power.core then p.put e.2.part K.timeEpoch epoch else p) p
  let c := fun (k : Int) => leBytes 8 (unsigned 64 ((n : Int) + k))
  let p := p.record .cvc 3 src 0 0 (c old ++ c newK ++ leBytes 8 n)
  p.raise .cvc 81 0

/-- Calendar time now in ns (R287). -/
def Plant.calendar (p : Plant) : Int := (p.now .cvc : Int) + p.get .cvc K.timeCalOffset

/-! ### PTP (R284–R286) -/

/-- The host port PTP runs on (R285). -/
def Plant.ptpPort (p : Plant) : Nat := if p.c K.timePtpActive = 0xFF then p.c K.timePtpPort else p.c K.timePtpActive

/-- The order of the best master clock algorithm on what an Announce carries (R284): priority1, class, accuracy, variance,
priority2, identity, steps removed, sender. -/
def announceKey (m : Announce) : List Nat :=
  [m.prio1.toNat, m.cls.toNat, m.acc.toNat, m.var.toNat, m.prio2.toNat, m.gm.toNat, m.steps.toNat, m.sender.toNat]

/-- Lexicographic order of equally long lists. -/
def lexLt : List Nat → List Nat → Bool
  | a :: s, b :: t => decide (a < b) || (a == b && lexLt s t)
  | _, _ => false

/-- PTP has reached SLAVE. -/
def Plant.ptpSlave (p : Plant) : Bool := p.c K.timePtpState == 9

/-- time.state as the role and time.source have it (R290, 14 R389): following the partner, free-running, PTP locked or acquiring. -/
def Plant.showTimeMode (p : Plant) : Plant :=
  p.cPut K.timeState (if p.c K.redRole = 2 then 4 else if p.c K.timeSource = 0 then 0 else if p.ptpSlave then 2 else 1)

/-- PTP_ANNOUNCE: the best master clock algorithm runs (R284, R285, R287). An Announce on the first port brings PTP back to
it. -/
def execPtpAnnounce (port : HostPort) (m : Announce) (s : State) : Host.Outcome State Fault Refusal :=
  s.onUp .cvc (fun p =>
    let n := port.val
    let first := p.c K.timePtpPort
    if m.domain.toNat ≠ p.c K.timePtpDomain ∨ (n ≠ p.ptpPort ∧ n ≠ first) then p
    else
      let back := n == first && p.ptpPort != first
      let best := p.cvc.ptp.best
      let take := back || (match best with
        | none => true
        | some b => lexLt (announceKey m) (announceKey b) || b.sender == m.sender)
      if !take then p
      else
        let same := !back && (match best with | some b => b.sender == m.sender | none => false)
        let p := p.onCvc (fun v => { v with ptp := { v.ptp with
          best := some m, waitFup := v.ptp.waitFup && same, utcLocked := m.utcValid } })
        let p := (p.cPut K.timePtpActive n).cPut K.timePtpGm m.gm.toNat
        let p := if m.utcValid then p.cPut K.timeUtcOffset m.utc.toInt else p
        if same ∧ p.ptpSlave then p
        else
          let p := p.cPut K.timePtpState 8
          if p.c K.timeSource = 1 then p.showTimeMode else p)

/-- The offset from the master takes effect (R286): a step in STARTING before the first cycle opens (R270), else slew
and rate, else a calendar set. -/
def Plant.ptpApply (p : Plant) (off : Int) : Plant :=
  let p := (p.cPut K.timePtpOffset (clampI (-2147483648) 2147483647 off)).cPut K.timePtpState 9
  let p := p.onCvc (fun v => { v with ptp := { v.ptp with waitFup := false, offsetSeen := true } })
  if p.c K.timeSource ≠ 1 ∨ p.c K.redRole = 2 then p
  else
    let p := p.cPut K.timeState 2
    if p.conv = 1 ∧ !(p.node .cvc).sched.valid then
      let e := (p.get .cvc K.timeCalOffset - off) * 256
      (((p.stepO .cvc e).cPut K.timeCalOffset 0).cPut K.timeCalSrc 1)
    else if off.natAbs ≤ p.c K.timePtpStepThr then
      let r := servoClock (p.node .cvc).clock p.tick (-off * 256) (p.c K.timeCvcSlew * 256 / 1000) p.tc
      let p := (p.onNode .cvc (fun n => { n with clock := r.1 })).cPut K.timeRate (ratePpb r.1.rho)
      if r.2 then (p.bump .cvc K.timeSlewLim 1).raise .cvc 85 0 else p
    else p.onCvc (fun v => { v with ptp := { v.ptp with calDue := true, calK := p.get .cvc K.timeCalOffset - off } })

/-- A PTP message is for the port in use, with a master known. -/
def Plant.ptpHears (p : Plant) (port : HostPort) : Bool := port.val == p.ptpPort && p.cvc.ptp.best.isSome

/-- PTP_SYNC: a one-step Sync disciplines at once; a two-step one waits for its Follow_Up (R284, R286). -/
def execPtpSync (port : HostPort) (offset : BitVec 64) (twoStep : Bool) (s : State) : Host.Outcome State Fault Refusal :=
  s.onUp .cvc (fun p =>
    if !p.ptpHears port then p
    else if twoStep then p.onCvc (fun v => { v with ptp := { v.ptp with waitFup := true } })
    else p.ptpApply offset.toInt)

/-- PTP_FOLLOW_UP: the Follow_Up of a two-step Sync (R284). -/
def execPtpFollowUp (port : HostPort) (offset : BitVec 64) (s : State) : Host.Outcome State Fault Refusal :=
  s.onUp .cvc (fun p => if p.ptpHears port ∧ p.cvc.ptp.waitFup then p.ptpApply offset.toInt else p)

/-- PDELAY_REQ: answered as a two-step clock, with Pdelay_Resp and Pdelay_Resp_Follow_Up (R284); the model keeps how many
such messages were sent and which request they answer. -/
def execPdelayReq (port : HostPort) (id : BitVec 64) (seq : BitVec 16) (s : State) : Host.Outcome State Fault Refusal :=
  s.onUp .cvc (fun p =>
    if port.val = p.ptpPort then
      p.onCvc (fun v => { v with ptp := { v.ptp with
        peerSent := v.ptp.peerSent + 2, peerLast := [port.val, id.toNat, seq.toNat] } })
    else p)

/-- PTP_MANAGEMENT: ignored and counted (R284). -/
def execPtpManagement (_port : HostPort) (s : State) : Host.Outcome State Fault Refusal :=
  s.onUp .cvc (fun p => p.bump .cvc K.timePtpIgnored 1)

/-- ANNOUNCE_TIMEOUT: the port in use has not reached SLAVE, or has lost its master; PTP moves to the backup port (R285). -/
def execAnnounceTimeout (s : State) : Host.Outcome State Fault Refusal :=
  s.onUp .cvc (fun p =>
    let p := p.onCvc (fun v => { v with ptp := { v.ptp with best := none, waitFup := false, utcLocked := false } })
    let other := if p.ptpPort = p.c K.timePtpPort then p.c K.timePtpPort2 else p.c K.timePtpPort
    let p := (p.cPut K.timePtpState 4).cPut K.timePtpActive (if other = 0xFF then p.ptpPort else other : Nat)
    if p.c K.timeSource ≠ 1 then p
    else
      let p := if p.c K.timeState = 2 then p.cPut K.timeState 3 else p
      p.raise .cvc 80 0)

end Sys2Proof.Machine
end

