-- ==== Sys2Proof/Machine/Redundant.lean ====
section
/-! DEFINITION. The redundant pair: roles, heartbeats, takeover and the mirror (14_redundant_pair.md). The partner CVC itself
lies outside the model: it acts through the frames it sends. -/

namespace Sys2Proof.Machine

/-- Changes the record of the pair. -/
def Plant.onRed (p : Plant) (f : Red → Red) : Plant := p.onCvc (fun c => { c with red := f c.red })

/-- Changes the mirror's record. -/
def Plant.onMirror (p : Plant) (f : Mirror → Mirror) : Plant := p.onCvc (fun c => { c with mirror := f c.mirror })

/-- A CVC-B in a station without a pair takes no role (R378). -/
def Plant.misstrapped (p : Plant) : Bool := p.c K.redId == 1 && !p.paired

/-! ### Heartbeats (R380–R384) -/

/-- A partner's role is heard on a path (R381, R382, R390). A STANDBY that hears an ACTIVE partner begins its wait anew. -/
def Plant.hearPartner (p : Plant) (role : Nat) (peer : Bool) : Plant :=
  let p := p.cPut K.redPartnerRole (role : Nat)
  let anew := p.c K.redRole == 2 && role == 3
  p.onRed (fun r => { r with
    heardPeer := r.heardPeer || peer, heardHub := r.heardHub || !peer, activeHeard := r.activeHeard || role == 3,
    everHeard := !anew, everActive := !anew && (r.everActive || role == 3) })

/-- R390: an ACTIVE CVC gives way to a partner that declares ACTIVE with a newer epoch; with the same one, CVC-B does. -/
def Plant.giveWay (p : Plant) (role epoch : Nat) : Plant :=
  let own := p.c K.redAepoch
  if role = 3 ∧ p.active ∧ (epochNewer epoch own ∨ (epoch = own ∧ p.c K.redId = 1)) then
    p.onRed (fun r => { r with toStandby := true })
  else p

/-- The IDLE frame of the partner on a peer lane (R382); one of the same identity is a strap conflict (R378). -/
def Plant.idleFromPeer (p : Plant) (f : Frame) : Plant :=
  let role := idleRole f % 16
  if idleId f = p.c K.redId then
    (p.onRed (fun r => { r with sameId := true })).raise .cvc 118 0
  else
    ((p.cPut K.redPartnerAepoch (idleEpoch f : Nat)).hearPartner role true).giveWay role (idleEpoch f)

/-- Shows whether a hub is found on its own lanes (01 R17, R26). -/
def Plant.showHubFound (p : Plant) (n : Nat) : Plant :=
  p.cPut K.stationHubsFound (setBit (p.c K.stationHubsFound) n (p.hubServes n) : Nat)

/-- The IDLE frame of a hub (R382, R388; 01 R17): the hub is found on its lane pair when its number matches. One heard on another pair
puts that pair's hub and the hub of its own number on the wrong lanes, as it may be one hub on two pairs. A fresh one carries the
partner's heartbeat. -/
def Plant.idleFromHub (p : Plant) (l : Nat) (f : Frame) : Plant :=
  let n := l / 2
  let right := idleId f == n
  let b := idleRole f
  let step := match partOf (0x100 + n) with | some q => p.getN q K.idStep | none => 0
  let p := p.onHubInfo n (fun i => { i with
    found := true, wrong := i.wrong || !right, step := step, hbc := idleHbc f })
  let p := if h8 : idleId f < 8 then p.onHub ⟨idleId f, h8⟩ (fun u => { u with found := true }) else p
  let p := if right ∨ 8 ≤ idleId f then p
    else (p.onHubInfo (idleId f) (fun i => { i with wrong := true })).showHubFound (idleId f)
  let p := p.showHubFound n
  let p := if right then p else p.raise .cvc 48 n
  let mine := (if bitOf b 6 then 1 else 0) == p.c K.redId
  let p := p.cPut K.redHubsAlleg (setBit (p.c K.redHubsAlleg) n mine : Nat)
  if bitOf b 7 ∧ p.paired then p.hearPartner (b % 16) false else p

/-- SEQ of an IDLE frame names the present or the previous cycle of a receiver that knows its cycle (09 R247). -/
def Plant.idleInWindow (p : Plant) (q : Part) (f : Frame) : Bool :=
  let k := (p.schedNow q).k
  let seq := bits f.hdr.toNat 47 40
  !p.knowsCycle q || seq == k % 256 || (seq + 1) % 256 == k % 256

/-- IDLE: an IDLE frame at a hub, from a CVC, or at a CVC, from a hub or the partner (R382). -/
def execIdle (port : Port) (f : Frame) (s : State) : Host.Outcome State Fault Refusal :=
  s.onUp port.part (fun p => p.receive port f 6 (fun p good =>
    let l := port.lane.val
    if !p.idleInWindow port.part f then p.violation port.part l 6
    else if !good then p
    else match port.part with
    | .hub h => if 48 ≤ l ∧ idlePart f = 0 then p.idleAtHub h l f else p
    | .cvc =>
      if l < 16 then (if idlePart f = 1 then p.idleFromHub l f else p)
      else if idlePart f = 0 ∧ p.paired then p.idleFromPeer f else p
    | .cell _ => p))

/-- IDLE_SEND: the CVC sends its IDLE frame on every uplink lane and, unless it has fallen silent, on every peer lane in L0 or L1
(R380, R384, 09 R245). -/
def execIdleSend (s : State) : Host.Outcome State Fault Refusal :=
  s.onUp .cvc (fun p =>
    if p.misstrapped then p
    else
      let p := p.onRed (fun r => { r with hbc := (r.hbc + 1) % 2 ^ 32 })
      let f := idleFrame 0 (p.node .cvc).sched.k (p.c K.redAepoch) (p.c K.redId) p.cvc.red.hbc (p.c K.redRole)
      let lanes := rangeFrom 0 16 ++ (if p.paired && !p.cvc.red.silent then [16, 17] else [])
      lanes.foldl (fun p l => p.sendTimed l f) p)

/-- A path is lost: 0 the peer path, 1 the hub path (R383). -/
def Plant.pathIsLost (p : Plant) (path : Nat) : Bool :=
  decide (p.c K.redPeerSilence ≤ if path = 0 then p.cvc.red.missPeer else p.cvc.red.missHub)

/-- PATH_LOST: a path's count stands at red.peer_silence or above; source 113 or 114 while the other path is heard (R383). -/
def execPathLost (path : Fin 2) (s : State) : Host.Outcome State Fault Refusal :=
  s.onUp .cvc (fun p =>
    let other := if path.val = 0 then p.cvc.red.missHub else p.cvc.red.missPeer
    if p.paired ∧ p.pathIsLost path.val ∧ other = 0 then p.raise .cvc (113 + path.val) 0 else p)

/-- PEER_SILENCE: an ACTIVE CVC without an uplink for red.peer_silence boundaries stops its peer heartbeats (R384). -/
def execPeerSilence (s : State) : Host.Outcome State Fault Refusal :=
  s.onUp .cvc (fun p =>
    if p.paired ∧ p.active ∧ p.c K.redPeerSilence ≤ p.cvc.red.noUplink then
      p.onRed (fun r => { r with silent := true })
    else p)

/-! ### Roles (R381, R386, R389) -/

/-- The role that listening gives (R381). -/
def Plant.listened (p : Plant) : Nat :=
  let r := p.cvc.red
  if r.everActive then 2 else if r.everHeard then (if p.c K.redId = 0 then 3 else 2) else 3

/-- START_WAIT_EXPIRE: red.start_wait has passed: the role is settled, and is taken at the boundary that ends STARTING, or, in a
STANDBY that has heard no ACTIVE partner, at the next one (R381). -/
def execStartWaitExpire (s : State) : Host.Outcome State Fault Refusal :=
  s.onUp .cvc (fun p =>
    let r := p.cvc.red
    let standby := p.c K.redRole == 2
    if !p.paired ∨ r.sameId ∨ !(p.conv == 1 || standby) ∨ (standby && r.activeHeard) then p
    else
      let p := if r.everHeard then p else p.raise .cvc 115 0
      p.onRed (fun x => { x with outcome := p.listened, everHeard := false, everActive := false }))

/-- The next authority epoch, stored at once (R386). -/
def Plant.takeAepoch (p : Plant) : Plant :=
  let e := max (p.c K.redAepoch) (p.c K.redPartnerAepoch) + 1
  p.cPut K.redAepoch (if 0xFFFF < e then 1 else (e : Int))

/-- An entry to ACTIVE at the end of STARTING (R381, R386). -/
def Plant.enterActive (p : Plant) : Plant := p.takeAepoch.cPut K.redRole 3

/-- An entry to STANDBY (R381, R390): network time follows the partner, no mirror has come, and the owner's lease ends (15 R416). -/
def Plant.enterStandby (p : Plant) : Plant :=
  let p := ((p.endLease.cPut K.redRole 2).showTimeMode).cPut K.redSyncState 0
  (p.onMirror (fun _ => { (default : Mirror) with since := p.tick })).onRed (fun r => { r with
    outcome := 0, toStandby := false, everHeard := false, everActive := false, silent := false, dual := 0 })

/-- red.cfg_crc: CRC-32C over the stored values of the class P objects that a store sequence writes, in ascending order of index
and subindex (R393; log entry 20). -/
def Plant.cfgCrc (p : Plant) : Nat :=
  let st := (p.node .cvc).stored
  let out := fun (i : Nat) => decide (0x1100 ≤ i ∧ i ≤ 0x11FF) || decide (0x5000 ≤ i ∧ i ≤ 0x53FF)
  let rows := (rangeFrom 0x10 0x52).flatMap (fun h => (dictPage h).filter (fun r =>
    bitOf r.holders 0 && r.pers == .p && !immediate r && r.acc != .rs && !r.isBlob && !out r.idx))
  crc32c (rows.flatMap (fun r => (rangeFrom r.idx (spanCount 0 r)).flatMap (fun i =>
    (rangeFrom r.sub (subCount 0 r)).flatMap (fun s =>
      encodeVal r.ty (Tab.get (objDefault 0) st (i * 256 + s))))))

/-! ### The mirror (R392, R393) -/

/-- Section 0: the fields in the order of the table, most significant byte first, filled to 64 bytes (log entry 20). -/
def Plant.mirrorSec0 (p : Plant) : List Nat :=
  let bs := beBytes 1 p.conv ++ beBytes 2 (p.c K.convArmsBlocked) ++ beBytes 8 p.k ++ beBytes 1 (p.c K.tamTgen) ++
    beBytes 2 (p.c K.redAepoch) ++ beBytes 4 p.degradedLeft ++ beBytes 4 p.cfgCrc ++ beBytes 4 (p.c K.engPackageId) ++
    beBytes 4 (p.c K.rindImageId)
  bs ++ List.replicate (64 - bs.length) 0

/-- Section 1: 14 words per arm. -/
def Plant.mirrorSec1 (p : Plant) : List Nat :=
  (rangeFrom 0 12).flatMap (fun a =>
    let l := p.loop a
    let h := p.harpArm a
    let z := (rangeFrom 0 4).flatMap (fun j => [l.z1.getD j 0, l.z2.getD j 0])
    ([l.r, l.sPrev, l.integ] ++ z ++ [l.limPrev, if h.sigmaNeg then -1 else 1, if h.polNeg then -1 else 1]).flatMap
      (fun v => beBytes 4 (unsigned 32 v)))

/-- The cell identifier at an ordinal of the pass of section 2: 48 positions of each string. -/
def cellAtOrdinal (n : Nat) : Nat := n / 48 % 192 * 64 + n % 48

/-- Section 2: budget, trim age and trim rest of 144 cells from an ordinal on. -/
def Plant.mirrorSec2 (p : Plant) (first : Nat) : List Nat :=
  (rangeFrom first 144).flatMap (fun n =>
    let h := p.harpCell (cellAtOrdinal n)
    beBytes 4 h.budget ++ beBytes 2 h.age ++ beBytes 2 h.rest)

/-- Frames of a section: up to 240 bytes each. The first argument bounds their number. -/
def mirrorFrames (sec : Nat) : Nat → Nat → List Nat → List Frame
  | 0, _, _ => []
  | n + 1, off, bs =>
    if bs.isEmpty then []
    else svcRequest 3 0 0 K.redMirror (sec * 2 ^ 24 + off) (bs.take 240) :: mirrorFrames sec n (off + 240) (bs.drop 240)

/-- The base of the region of section 3. -/
def sharedTail : Nat := 0x107F0000

/-- The mirror of the cycle that opens, spread over the peer lanes (R392). -/
def Plant.sendMirror (p : Plant) (m : List Host.Cell) : Plant :=
  if !p.paired ∨ !p.active then p
  else
    let first := p.k % 64 * 144
    let page := p.k % 16 * 4096
    let fs := mirrorFrames 0 1 0 p.mirrorSec0 ++ mirrorFrames 1 3 0 p.mirrorSec1 ++
      mirrorFrames 2 5 (first * 8) (p.mirrorSec2 first) ++ mirrorFrames 3 18 page (memBytes m (sharedTail + page) 4096)
    fs.foldl (fun p f => p.sendPair .cvc 16 17 f) p

/-- The 4-byte words of a value, most significant byte first. The first argument bounds their number. -/
def wordsOf : Nat → List Nat → List Nat
  | 0, _ => []
  | n + 1, bs => if bs.length < 4 then [] else ofBe (bs.take 4) :: wordsOf n (bs.drop 4)

/-- A list with one element set. -/
def setAt (l : List Int) (n : Nat) (v : Int) : List Int := (l ++ List.replicate (4 - l.length) 0).set n v

/-- A word of section 1 goes to its arm. -/
def Plant.takeLoopWord (p : Plant) (n w : Nat) : Plant :=
  let a := n / 14
  let v := signed 32 w
  if 12 ≤ a then p
  else match n % 14 with
    | 0 => p.onLoop a (fun l => { l with r := v })
    | 1 => p.onLoop a (fun l => { l with sPrev := v })
    | 2 => p.onLoop a (fun l => { l with integ := v })
    | 11 => p.onLoop a (fun l => { l with limPrev := v })
    | 12 => p.onHarpArm a (fun h => { h with sigmaNeg := decide (v < 0) })
    | 13 => p.onHarpArm a (fun h => { h with polNeg := decide (v < 0) })
    | j => p.onLoop a (fun l => if j % 2 = 1 then { l with z1 := setAt l.z1 ((j - 3) / 2) v } else { l with z2 := setAt l.z2 ((j - 4) / 2) v })

/-- Section 0 as received: the converter state, the blocked arms, the cycle and the trip generation are followed (R392, R394). -/
def Plant.takeSec0 (p : Plant) (bs : List Nat) : Plant :=
  let u := fun (o n : Nat) => ofBe ((bs.drop o).take n)
  let p := (((p.cPut K.convState (u 0 1 : Nat)).cPut K.convArmsBlocked (u 1 2 : Nat)).cPut K.cycleCount (u 3 8 : Nat)).cPut
    K.tamTgen (u 11 1 : Nat)
  p.onNode .cvc (fun n => { n with sched := { n.sched with k := u 3 8 } })

/-- A mirror frame at a STANDBY (R392). -/
def Plant.takeMirror (p : Plant) (off : Nat) (bs : List Nat) : Plant :=
  let o := off % 2 ^ 24
  let n := bs.length
  let p := p.onMirror (fun m => { m with any := true })
  match off / 2 ^ 24 with
  | 0 => (p.onMirror (fun m => { m with n0 := m.n0 + n, sec0 := bs })).takeSec0 bs
  | 1 =>
    let p := p.onMirror (fun m => { m with n1 := m.n1 + n })
    (wordsOf 60 bs).zipIdx.foldl (fun p e => p.takeLoopWord (o / 4 + e.2) e.1) p
  | 2 =>
    let p := p.onMirror (fun m => { m with n2 := m.n2 + n })
    let ws := wordsOf 60 bs
    (rangeFrom 0 (n / 8)).foldl (fun p i =>
      p.onHarpCell (cellAtOrdinal (o / 8 + i)) (fun h => { h with
        budget := nth ws (2 * i), age := nth ws (2 * i + 1) / 65536, rest := nth ws (2 * i + 1) % 65536 })) p
  | 3 => p.onMirror (fun m => { m with n3 := m.n3 + n })
  | _ => p

/-- The engine memory after a mirror frame: section 3 goes to its place (R392). -/
def mirrorMem (m : List Host.Cell) (off : Nat) (bs : List Nat) : List Host.Cell :=
  if off / 2 ^ 24 = 3 ∧ off % 2 ^ 24 + bs.length ≤ 0x10000 then memPut m (sharedTail + off % 2 ^ 24) bs else m

/-- The mirror's state at a boundary of a STANDBY; k is the cycle that opens (R393). -/
def Plant.mirrorBoundary (p : Plant) : Plant :=
  let m := p.cvc.mirror
  let was := p.c K.redSyncState
  let basic := decide (64 ≤ m.n0) && decide (672 ≤ m.n1)
  let full := basic && decide (1152 ≤ m.n2) && decide (4096 ≤ m.n3)
  let run := if full then min (m.run + 1) 64 else 0
  let u := fun (o : Nat) => ofBe ((m.sec0.drop o).take 4)
  let alike := u 18 == p.cfgCrc && u 22 == p.c K.engPackageId && u 26 == p.c K.rindImageId
  let st := if !m.any then 0 else if !basic then 3 else if run = 64 && alike then 2 else 1
  let p := if m.any && !full then p.bump .cvc K.redMirrorGaps 1 else p
  let p := p.cPut K.redSyncState (st : Nat)
  let p := if st = 2 then p.cPut K.redSyncedAt (p.k : Nat) else p
  let late := !m.warned && decide (m.since + ticksMs 1000 ≤ p.tick)
  let p := p.onMirror (fun m => { m with
    run := run, n0 := 0, n1 := 0, n2 := 0, n3 := 0, warned := m.warned || late || st == 2 })
  if (was = 2 ∧ st ≠ 2) ∨ (st ≠ 2 ∧ late) then p.raise .cvc 116 0 else p

/-! ### Takeover (R388, R389) -/

/-- Bits set in a number below 2^n. -/
def popCount (n v : Nat) : Nat := ((rangeFrom 0 n).filter (bitOf v)).length

/-- Enough hubs show this CVC's identity (R388). -/
def Plant.quorum (p : Plant) : Bool :=
  let n := popCount 8 (p.c K.redHubsAlleg)
  let q := p.c K.redQuorum
  if q = 0 then decide (popCount 8 (p.c K.stationHubsExpected) < 2 * n) else decide (q ≤ n)

/-- The conditions of R388 at the boundary that the next CYCLE_BOUNDARY opens: the counts as that boundary makes them. -/
def Plant.takeoverDue (p : Plant) : Bool :=
  let r := p.cvc.red
  let miss := fun (heard : Bool) (n : Nat) => if heard then 0 else n + 1
  p.c K.redRole == 2 && decide (p.c K.redPeerSilence ≤ miss r.heardPeer r.missPeer) &&
    decide (p.c K.redPeerSilence ≤ miss r.heardHub r.missHub) && p.quorum

/-- σ of R391: the larger of red.peer_silence and red.hub_silence of the hubs found. -/
def Plant.sigmaCycles (p : Plant) : Nat :=
  (List.finRange 8).foldl (fun m n =>
    if (p.hubInfo n.val).found then max m (p.getN (.hub n) K.redHubSilence) else m) (p.c K.redPeerSilence)

/-- The trip generation after the relayed TSEQ, and whether that is later (R389). -/
def laterTgen (tgen : Nat) (relayed : Option Nat) : Nat × Bool :=
  match relayed with
  | some t =>
    let d := (t + 16 - tgen % 16) % 16
    if 1 ≤ d ∧ d ≤ 7 then ((tgen + d) % 256, true) else (tgen, false)
  | none => (tgen, false)

/-- Steps 1–4 of R389 and the role, at the boundary that opens cycle k. -/
def Plant.becomeActive (p : Plant) (k : Nat) : Plant :=
  let p := p.takeAepoch
  let p := p.onCvc (fun c => { c with epItems := c.epItems + 1, epSinks := c.epSinks + 1, tookOver := true })
  let p := p.cPut K.engGen ((p.c K.engGen + 1) % 2 ^ 32 : Nat)
  let t := laterTgen (p.c K.tamTgen) p.cvc.mirror.relayTseq
  let p := p.cPut K.tamTgen (t.1 : Nat)
  let was := p.conv
  let fresh := decide (k ≤ p.c K.redSyncedAt + p.sigmaCycles + 2) && p.c K.redSyncedAt != 0
  let st := if t.2 then 7 else if (was = 5 ∨ was = 6) ∧ !fresh then 4 else was
  let left := ofBe ((p.cvc.mirror.sec0.drop 14).take 4)
  let p := p.cPut K.convState (st : Nat)
  let p := p.onRind (fun r => { r with degEnd := p.tick + ticksMs left })
  let p := (rangeFrom 0 12).foldl (fun p a =>
    if p.armUsed a then p.onLoop a (fun l => { l with running := true, waiting := false }) else p) p
  let p := (p.cPut K.redRole 3).showTimeMode
  (p.cPut K.redSyncState 0).onRed (fun r => { r with outcome := 0 })

/-- TAKEOVER: at a boundary at which R388 holds, before the CYCLE_BOUNDARY that opens it (R389). -/
def execTakeover (s : State) : Host.Outcome State Fault Refusal :=
  s.onUp .cvc (fun p =>
    if !p.paired ∨ !p.takeoverDue then p
    else
      let sc := (p.node .cvc).sched
      let p := p.becomeActive (p.k + 1)
      let p := (p.bump .cvc K.redTakeovers 1).cPut K.redLastTakeover (sc.s + sc.tc : Nat)
      (p.raise .cvc 112 0).freshServer)

/-! ### The boundary (R383, R384, R390) -/

/-- Some expected hub has an uplink lane in L0 (R384). -/
def Plant.hasUplink (p : Plant) : Bool :=
  (rangeFrom 0 16).any (fun l => bitOf (p.c K.stationHubsExpected) (l / 2) && p.laneState .cvc l == 2)

/-- The pair at a cycle boundary. -/
def Plant.redBoundary (p : Plant) : Plant :=
  if !p.paired then p
  else
    let r := p.cvc.red
    let p := if r.heardPeer then p else p.bump .cvc K.redHbMissedPeer 1
    let p := if r.heardHub then p else p.bump .cvc K.redHbMissedHub 1
    let p := p.cPut K.redPaths ((if r.heardPeer then 1 else 0) + (if r.heardHub then 2 else 0) : Nat)
    let dual := if p.active && r.activeHeard then r.dual + 1 else 0
    let uplink := p.hasUplink
    let p := p.onRed (fun x => { x with
      missPeer := if r.heardPeer then 0 else r.missPeer + 1, missHub := if r.heardHub then 0 else r.missHub + 1,
      heardPeer := false, heardHub := false, activeHeard := false, dual := min dual 4,
      noUplink := if p.active && !uplink then r.noUplink + 1 else 0, silent := r.silent && p.active && !uplink })
    let p := if dual = 3 then (p.bump .cvc K.redDualActive 1).raise .cvc 117 0 else p
    if p.active ∧ r.toStandby then p.enterStandby
    else if p.c K.redRole = 2 then
      let p := p.mirrorBoundary
      if r.outcome = 3 then p.becomeActive p.k else p
    else p

end Sys2Proof.Machine
end

