-- ==== Sys2Proof/Machine/Landing.lean ====
section
/-! DEFINITION. Collect frames at the CVC and aborted frames (09_tamlek_frames_and_integrity.md R230, R236–R240, R247; 08 R213;
12 R332). -/

namespace Sys2Proof.Machine

/-- Changes what the CVC knows of a string. -/
def Plant.onStr (p : Plant) (n : Nat) (f : StrInfo → StrInfo) : Plant :=
  p.onCvc (fun c => { c with strs := Tab.upd (fun _ => default) c.strs n f })

/-- A report slot as bytes, most significant first. -/
def slotBytes (compact : Bool) (data : List Block) (i : Nat) : List Nat :=
  if compact then beBytes 8 (data.getD i 0).toNat
  else beBytes 8 (data.getD (2 * i) 0).toNat ++ beBytes 8 (data.getD (2 * i + 1) 0).toNat

/-- What a report slot says (R236); V in 10 µV, whatever the form. -/
structure Slot where
  seq : Nat
  state : Nat
  status : Nat
  cseq : Nat
  v : Nat
  i : Int
  ok : Bool
  deriving DecidableEq, Repr

/-- Reads a slot; `ok` says that SCHK passes (R237). -/
def readSlot (compact : Bool) (bs : List Nat) : Slot :=
  if compact then
    {
      seq := nth bs 0, state := nth bs 1, status := nth bs 2, cseq := nth bs 6, v := 100 * ofBe ((bs.drop 3).take 3), i := 0,
      ok := crc8 (bs.take 7) == nth bs 7 }
  else
    {
      seq := nth bs 0, state := nth bs 1, status := nth bs 2, cseq := nth bs 3, v := ofBe ((bs.drop 4).take 4),
      i := signed 16 (ofBe ((bs.drop 8).take 2)), ok := crc8 (bs.take 15) == nth bs 15 }

/-- V_MEAS of a record (R240): PU32 of a cell voltage base in mV; V in 10 µV. -/
def vMeas (v base : Nat) : Int :=
  if base = 0 then (if v = 0 then 0 else puMax) else satPU (rdiv ((v * 16777216 : Nat) : Int) (100 * base))

/-- The cycle a landing frame names: one whose S has passed and whose H has not (R240). -/
def Plant.landCycle (p : Plant) (seq : Nat) : Option Nat :=
  if !(p.node .cvc).sched.valid then none
  else if p.k % 256 = seq ∧ !p.pastH p.k then some p.k
  else if 0 < p.k ∧ (p.k - 1) % 256 = seq ∧ !p.pastH (p.k - 1) then some (p.k - 1)
  else none

/-- CSEQ against the SEQ sent for the apply instant before S (R240). -/
def Plant.checkCseq (p : Plant) (id k : Nat) (r : Slot) : Plant :=
  let h := p.harpCell id
  match p.cmdAtS h k with
  | some was =>
    if !bitOf r.state 5 ∧ !bitOf r.status 0 ∧ r.cseq ≠ was.k % 256 then (p.bump .cvc K.tamCseqErr 1).raise .cvc 60 id else p
  | none => p

/-- A cell's LSEV: the first report at 3 since it was below raises source 63 (12 R332). -/
def Plant.noteLsev (p : Plant) (id : Nat) (status : Nat) : Plant :=
  let three := decide (bits status 5 4 = 3)
  let old := (p.harpCell id).sev3
  let p := if three = old then p else p.onHarpCell id (fun h => { h with sev3 := three })
  if three ∧ !old then p.raise .cvc 63 id else p

/-- V_MEAS of a cell of a string: with the voltage base of its arm's side; of a string mapped to no arm the manual gives no base
(log entry 6). -/
def Plant.landV (p : Plant) (str v : Nat) : Int × Plant :=
  let a := p.armOfString str
  if a < 12 then (vMeas v (p.baseVCell (sideOf a)).toNat, p)
  else
    let (x, p) := p.free
    (signed 32 x, p)

/-- Writes the record of one filled slot (R240), and gives the Rind what it takes from it (11 R296). -/
def Plant.landSlot (p : Plant) (k str pos : Nat) (compact good : Bool) (r : Slot) : Plant :=
  let id := str * 64 + pos
  let valid := good && r.ok
  let (v, p) := p.landV str r.v
  let rec_ : RepRec := {
    v := v, i := r.i * 512, seq := r.seq, state := r.state, status := r.status, compact := compact, loss := bitOf r.status 3,
    valid := valid, land := max 1 ((p.nowPs - p.sOf k * 1000) / 1000).toNat, k := k }
  let p := p.onCvc (fun c => { c with reports := Tab.set (fun _ => default) c.reports (k % 2 * 0x3000 + id) rec_ })
  if !valid then p
  else
    let p := p.onRind (fun x => { x with
      cellV := Tab.set (fun _ => 0) x.cellV id r.v, cellSt := Tab.set (fun _ => 0) x.cellSt id r.state,
      reps := if !compact ∧ p.isReporter id ∧ r.seq = k % 256 then Tab.set (fun _ => (0, 0)) x.reps id (k + 1, r.i) else x.reps })
    (p.checkCseq id k r).noteLsev id r.status

/-- A string end has delivered the end of its collect frame of cycle k (05 R114). -/
def Plant.endDelivered (p : Plant) (str k : Nat) (tail : Bool) : Plant :=
  let p := p.onStr str (fun i => if tail then { i with tailDone := max i.tailDone (k + 1) } else { i with headDone := max i.headDone (k + 1) })
  p.reportsDelivered str k

/-- The slots of a collect frame in turn (R235, R239). -/
def Plant.landSlots (p : Plant) (f : Frame) (k : Nat) (good : Bool) : Plant :=
  let h := f.hdr.toNat
  let compact := bitOf h 51
  let str := bits h 39 32
  let first := bits h 31 26
  (rangeFrom 0 (bits h 25 20)).foldl (fun p (i : Nat) =>
    let pos : Int := if bitOf h 50 then (first : Int) + (i : Int) else (first : Int) - (i : Int)
    let r := readSlot compact (slotBytes compact f.data i)
    if pos < 0 ∨ 48 ≤ pos ∨ r.state = 0xFF then p else p.landSlot k str pos.toNat compact good r) p

/-- COLLECT_LAND: a collect frame lands at the CVC (R240). -/
def execCollectLand (lane : Fin 16) (f : Frame) (s : State) : Host.Outcome State Fault Refusal :=
  s.onUp .cvc (fun p => p.receive ⟨.cvc, lane.castLE (by omega)⟩ f 2 (fun p good =>
    let h := f.hdr.toNat
    match p.landCycle (bits h 47 40) with
    | none => p.violation .cvc lane.val 6
    | some k =>
      if 192 ≤ bits h 39 32 then p
      else
        let p := if chkState f = .stomped then p.bump .cvc (K.tamStringBad + bits h 39 32) 1 else p
        let p := if bitOf h 49 then p else p.landSlots f k good
        p.endDelivered (bits h 39 32) k (bitOf h 50)))

/-- The string ends of a hub whose collect frames were cut in this cycle. -/
def Plant.cutEnds (p : Plant) (h : Fin 8) : List (Nat × Bool) :=
  (rangeFrom 0 24).flatMap (fun k =>
    let e := p.hubPort h k
    (if e.cutHead then [(k, false)] else []) ++ (if e.cutTail then [(k, true)] else []))

/-- A hub's string end: the collect frame that had begun there is cut, and ends so towards the CVCs with an abort block (08 R213). -/
def Plant.cutEnd (p : Plant) (h : Fin 8) (l : Nat) : Plant :=
  let e := p.hubPort h (l / 2)
  if (if l % 2 = 0 then e.begunHead else e.begunTail) then p
  else
    (p.onPort h (l / 2) (fun e => if l % 2 = 0 then { e with begunHead := true, cutHead := true }
      else { e with begunTail := true, cutTail := true })).abortOnward (.hub h) l

/-- ABORT_BLOCK: the frame is discarded and counted (R230), and a copy that a cell forwards ends with an abort block as well (R255). At a
string port of a hub it ends the collect frame of that end, also where the lane has been declared lost and the hub itself ends the frame;
the CVC takes the abort as the frame's end (08 R213). -/
def execAbortBlock (port : Port) (s : State) : Host.Outcome State Fault Refusal :=
  s.on (fun p =>
    let q := port.part
    let l := port.lane.val
    if !p.up q then (if q.kind = 2 ∧ p.laneUp q l then p.abortOnward q l else p)
    else
      let p := if p.laneUp q l then p.bump q (tamKey l 7) 1 else p
      match q with
      | .cell _ => if p.laneUp q l then p.abortOnward q l else p
      | .hub h => if 48 ≤ l then p else p.cutEnd h l
      | .cvc =>
        if h8 : l / 2 < 8 then
          let h : Fin 8 := ⟨l / 2, h8⟩
          match p.cutEnds h with
          | [] => p
          | (k, tail) :: _ =>
            let p := p.onPort h k (fun e => if tail then { e with cutTail := false } else { e with cutHead := false })
            p.endDelivered (24 * h.val + k) p.k tail
        else p)

end Sys2Proof.Machine
end

