-- ==== Sys2Proof/Machine/Reset.lean ====
section
/-! DEFINITION. Resets, starts and supplies: what each reset source does to a part, and how a part starts
(16_reset_startup_persistence.md R429–R437, R445–R447, R450; 17 R461–R463). -/

namespace Sys2Proof.Machine

/-! ### Going down (16 R429, R436) -/

/-- What of the memories a reset of the CVC keeps: capture memory, through a reset of the core alone (R436; log entry 2). -/
def memAfter (sc : Scope) (m : List Host.Cell) : List Host.Cell :=
  if sc = .core then m.filter (fun e => decide (0x20000000 ≤ e.1) && decide (e.1 < 0x22000000)) else []

/-- What of the CVC's own record a reset keeps: the level of its trigger input; but for a power-on reset the number of the latest record
(13 R364); through a reset of the core alone the Rind's channels (R435) and the banks that wait for their release (R436). -/
def cvcAfter (sc : Scope) (c : Cvc) : Cvc :=
  let d : Cvc := default
  let a := { (default : AcqSt) with trigIn := c.acq.trigIn, recno := if sc = .por then 0 else c.acq.recno }
  if sc = .core then
    { d with
      rind := { c.rind with armedBy := 0, commitDue := false, alone := 0 },
      acq := { a with bank := c.acq.bank, heldA := c.acq.heldA, heldB := c.acq.heldB } }
  else { d with acq := a }

/-- A reset of the CVC. -/
def State.cvcDown (s : State) (sc : Scope) (cause : Nat) : State :=
  { s with plant := (s.plant.nodeDown .cvc sc cause).onCvc (cvcAfter sc), mem := memAfter sc s.mem }

/-- A hub that resets, and its strings with their cells, are out of the station until the CVC finds them again (R450; 12 R345). -/
def Plant.forgetHub (p : Plant) (h : Fin 8) : Plant :=
  if !p.up .cvc then p
  else
    let p := p.onHubInfo h.val (fun i => { i with found := false, wrong := false })
    let p := p.cPut K.stationHubsFound (setBit (p.c K.stationHubsFound) h.val false : Nat)
    let p := p.onCvc (fun c => { c with
      cells := (c.cells.map (fun e => if e.1 / 64 / 24 = h.val then (e.1, { e.2 with found := false }) else e)).filter (fun e =>
        decide (e.2 ≠ default)) })
    (rangeFrom (24 * h.val) 24).foldl (fun p s => p.onStr s (fun i => { i with found := false })) p

/-- A reset of a hub: it loses every lane (R434). -/
def Plant.hubDown (p : Plant) (h : Fin 8) (sc : Scope) (cause : Nat) : Plant :=
  ((p.nodeDown (.hub h) sc cause).onHub h (fun _ => default)).forgetHub h

/-- A reset of a part. -/
def State.partDown (s : State) (q : Part) (sc : Scope) (cause : Nat) : State :=
  match q with
  | .cvc => s.cvcDown sc cause
  | .hub h => { s with plant := s.plant.hubDown h sc cause }
  | .cell c => { s with plant := s.plant.cellDown c sc cause }

/-! ### Starting (16 R445–R447) -/

/-- The lanes of a list that may train start to (08 R196, R221). -/
def Plant.trainLanes (p : Plant) (q : Part) (ls : List Nat) : Plant :=
  ls.foldl (fun p l => if p.mayTrain q l then p.laneDown q l 1 else p) p

/-- The CVC's strap is sampled (14 R378); the default address of a CVC-B is its own (15 R406). -/
def Plant.takeStrap (p : Plant) (b : Boot) : Plant :=
  let id := b.strap.toNat % 2
  let p := p.cPut K.redId (id : Nat)
  if id = 1 ∧ p.c 0x110403 = 0xC0A8640A then p.cPut 0x110403 0xC0A8640B else p

/-- The CVC starts: event 2 of 02 R43 and steps 1 to 6 of R445. In recovery it stays there (R447). -/
def State.cvcStart (s : State) : State :=
  let b := (s.plant.node .cvc).power.pins
  let p := s.plant.nodeUp .cvc
  let p := ((p.cPut K.convState 1).cPut K.convCause (2 * 256 : Nat)).cPut K.convEntered (p.now .cvc : Nat)
  let p := ((p.takeStrap b).cPut K.redRole 1).showTimeMode
  if b.fwPath.val = 2 then { s with plant := p }
  else
    let p := if p.chState 0 = 0 ∧ p.chState 1 = 0 then p.rindStart b.imageA b.imageB else p
    let p := p.onNode .cvc (fun n => { n with
      sched := { n.sched with tc := p.c K.cycleTc, ta := p.c K.cycleTa } })
    let s := { s with plant := p }.packageStart b.package
    let p := (s.plant.trainLanes .cvc (rangeFrom 0 16)).pairChanged
    { s with plant := if p.misstrapped then p.raise .cvc 118 0 else p }

/-- A hub starts: its strap is sampled and its lanes train (R446, 01 R17). -/
def Plant.hubStart (p : Plant) (h : Fin 8) : Plant :=
  let q := Part.hub h
  let p := p.nodeUp q
  (p.put q K.hubId ((p.node q).power.pins.strap.toNat : Nat)).trainLanes q (rangeFrom 0 52)

/-- A part starts when RESET_N is high and, in a CVC or hub, its supplies are in range; a cell asks for its boot (R433, R180). -/
def State.partStart (s : State) (q : Part) : State :=
  let w := (s.plant.node q).power
  match q with
  | .cell c => { s with plant := if w.held then s.plant else s.plant.requestBoot c }
  | .cvc => if w.held ∨ !w.rails ∨ w.core then s else s.cvcStart
  | .hub h => if w.held ∨ !w.rails ∨ w.core then s else { s with plant := s.plant.hubStart h }

/-- A reset of the core alone, at the end of which the part starts again (R429, R436). -/
def State.coreReset (s : State) (q : Part) (cause : Nat) : State := (s.partDown q .core cause).partStart q

/-- Changes a part's power record. -/
def Plant.onPower (p : Plant) (q : Part) (f : Power → Power) : Plant := p.onNode q (fun n => { n with power := f n.power })

/-- POWER_ON_RESET: everything is cleared; the part waits for its supplies (R429, R436, R450). -/
def execPowerOnReset (q : Part) (s : State) : Host.Outcome State Fault Refusal :=
  let held := (s.plant.node q).power.held
  let s := s.partDown q .por (if held then 3 else 1)
  .next { s with plant := s.plant.onPower q (fun w => { w with rails := false }) }

/-- RESET_N_ASSERT: a low that passes the filter resets the part and starts the hold timer (R433). -/
def execResetNAssert (q : Part) (s : State) : Host.Outcome State Fault Refusal :=
  if (s.plant.node q).power.held then .next s
  else
    let s := s.partDown q .pin 2
    .next { s with plant := s.plant.holdReset q }

/-- RESET_N_RELEASE: RESET_N rises after the filter and the part starts (R433). -/
def execResetNRelease (q : Part) (b : Boot) (s : State) : Host.Outcome State Fault Refusal :=
  if !(s.plant.node q).power.held then .next s
  else
    let p := s.plant.endHold q b
    let p := match q with
      | .cell c => p.onCell c (fun e => { e with led := { e.led with timing := false } })
      | _ => p
    .next ({ s with plant := p }.partStart q)

/-- LONG_RESET: the hold exceeds 4 s and the always-on logic latches the flag (R433). -/
def execLongReset (q : Part) (s : State) : Host.Outcome State Fault Refusal :=
  s.on (fun p => if (p.node q).power.held then p.onPower q (fun w => { w with longFlag := true }) else p)

/-- WATCHDOG_EXPIRE: the watchdog resets the core (R430). -/
def execWatchdogExpire (q : Part) (s : State) : Host.Outcome State Fault Refusal :=
  .next (if s.plant.up q then s.coreReset q 4 else s)

/-- A soft reset that is accepted: at once, or when the store sequence or firmware write in progress ends (R431). -/
def State.softReset (s : State) (q : Part) : State :=
  let w := (s.plant.node q).power
  if w.storing ∨ w.fwWriting then { s with plant := s.plant.onPower q (fun w => { w with softDue := true }) }
  else s.coreReset q 8

/-- A delayed soft reset begins once nothing delays it (R431). -/
def State.softAfter (s : State) (q : Part) : State :=
  let w := (s.plant.node q).power
  if w.softDue ∧ !w.storing ∧ !w.fwWriting then s.coreReset q 8 else s

/-- STORE_DONE: the store sequence ends (R441). In a cell its commitment ends with it (07 R176). -/
def execStoreDone (q : Part) (ok : Bool) (s : State) : Host.Outcome State Fault Refusal :=
  if !s.plant.up q ∨ !(s.plant.node q).power.storing then .next s
  else .next ({ s with plant := s.plant.storeEnd q ok }.softAfter q)

/-- FIRMWARE_WRITE_DONE: the slot holds its firmware (R447, R431). -/
def execFirmwareWriteDone (q : Part) (s : State) : Host.Outcome State Fault Refusal :=
  if !s.plant.up q ∨ !(s.plant.node q).power.fwWriting then .next s
  else .next ({ s with plant := s.plant.firmwareWritten q }.softAfter q)

/-- RIND_REQUESTED_RESET: both channels together reset their CVC after STARTING; one alone is recorded (R432). -/
def execRindRequestedReset (by_ : BitVec 2) (s : State) : Host.Outcome State Fault Refusal :=
  if !s.plant.up .cvc ∨ s.plant.conv < 2 ∨ by_ = 0 then .next s
  else if by_ = 3 then .next (s.coreReset .cvc 16)
  else s.on (fun p => p.onRind (fun r => { r with alone := r.alone ||| by_.toNat }))

/-! ### Start-up (16 R445, 10 R286) -/

/-- Two passes of both ends of every string of every found hub are complete (R445 step 9). -/
def Plant.discoveryDone (p : Plant) : Bool :=
  (rangeFrom 0 8).all (fun h => !p.hubServes h || (rangeFrom (24 * h) 24).all (fun s =>
    decide (2 ≤ (p.strInfo s).headPasses) && decide (2 ≤ (p.strInfo s).tailPasses)))

/-- Every expected hub is found, or the wait for them is over (R445 step 8). -/
def Plant.hubsDone (p : Plant) : Bool :=
  p.cvc.conv.hubWaited || (p.c K.stationHubsExpected &&& p.c K.stationHubsFound) == p.c K.stationHubsExpected

/-- STARTUP_COMPLETE: steps 6 to 9 of R445 are done in STARTING: event 3 of 02 R43, and boot.time_start. -/
def execStartupComplete (s : State) : Host.Outcome State Fault Refusal :=
  s.onUp .cvc (fun p =>
    if p.conv ≠ 1 ∨ p.getN .cvc K.bootStatus = 2 ∨ !(p.node .cvc).sched.valid ∨ !p.hubsDone ∨ !p.discoveryDone then p
    else
      let p := (p.convEvent 3 0).onCvc (fun c => { c with conv := { c.conv with startDone := 1 } })
      p.cPut K.bootTimeStart (((p.tick - (p.node .cvc).power.releasedAt) / 400000 : Nat) : Int))

/-- HUB_WAIT_EXPIRE: boot.hub_wait is over and start-up moves on to discovery (R445). -/
def execHubWaitExpire (s : State) : Host.Outcome State Fault Refusal :=
  s.onUp .cvc (fun p => if p.conv = 1 then p.onCvc (fun c => { c with conv := { c.conv with hubWaited := true } }) else p)

/-- PTP_WAIT_EXPIRE: time.ptp_wait is over in STARTING; N runs on from its counter and the calendar stays unset (10 R286). -/
def execPtpWaitExpire (s : State) : Host.Outcome State Fault Refusal :=
  s.onUp .cvc (fun p => if p.conv = 1 then p.onCvc (fun c => { c with conv := { c.conv with ptpWaited := true } }) else p)

/-! ### Supplies (17 R461–R463) -/

/-- The source of a part's core-side rails (R461). -/
def railSource : Nat → Nat
  | 0 => 120
  | _ => 0

/-- The part has the rail (R461). -/
def hasRail (kind rail : Nat) : Bool :=
  match kind with
  | 0 => decide (rail ≤ 6)
  | 1 => rail == 0 || rail == 2 || rail == 3 || rail == 4
  | _ => rail == 0 || rail == 2 || rail == 3 || rail == 7

/-- A channel whose supply is below its reset threshold is OFF, its output at trip level (R461, 11 R307). -/
def Plant.chOff (p : Plant) (ch : Nat) : Plant :=
  ((p.cPut (K.rindSaState + ch) 0).onChan ch (fun _ => default)).showOut

/-- Whether a channel's supply is below its reset threshold (R461). -/
def Plant.chSupply (p : Plant) (ch : Nat) (low : Bool) : Plant :=
  p.onPower .cvc (fun w => { w with chLow := setBit w.chLow ch low })

/-- A channel starts from its own rail alone (R462, 11 R317). -/
def Plant.chStart (p : Plant) (ch : Nat) : Plant :=
  let b := (p.node .cvc).power.pins
  let ok := (if ch = 0 then b.imageA else b.imageB) && p.c K.rindImageId != 0
  let p := (p.cPut (K.rindSaState + ch) (if ok then 2 else 1)).cPut (K.rindSaFault + ch) 0
  if ok then p.showOut else p.showOut.raise .cvc 102 0

/-- pwr.rails shows a rail out of range; a new episode is counted, and a core-side rail raises its source (R461, R467). -/
def Plant.railOut (p : Plant) (q : Part) (r : Nat) : Plant :=
  if bitOf (p.getN q K.pwrRails) r then p
  else
    let p := (p.put q K.pwrRails (setBit (p.getN q K.pwrRails) r true : Nat)).bump q K.pwrRailEvents 1
    if r ≤ 3 ∧ p.up q then p.raise q (railSource q.kind) 0 else p

/-- The part loses its supplies and waits for them: power-on reset. -/
def State.supplyLost (s : State) (q : Part) : State :=
  let s := s.partDown q .por (if (s.plant.node q).power.held then 3 else 1)
  { s with plant := s.plant.onPower q (fun w => { w with rails := false }) }

/-- A core-side rail below its threshold: a reset with the scope of RESET_N, until the rail is back; a cell's core then waits for
CORE_PG (R461, R462). -/
def State.coreSupplyLost (s : State) (q : Part) : State :=
  let s := s.partDown q .pin 1
  match q with
  | .cell c => { s with plant := s.plant.onCell c (fun e => { e with led := { e.led with pg := false } }) }
  | _ => { s with plant := s.plant.onPower q (fun w => { w with rails := false }) }

/-- RAIL_OUT_OF_RANGE: a rail leaves its operating range, or falls below its reset threshold; bit 7 shows VIN above 30 V
(R461). -/
def execRailOutOfRange (q : Part) (rail : Fin 8) (below : Bool) (s : State) : Host.Outcome State Fault Refusal :=
  let r := rail.val
  if !hasRail q.kind r then .next s
  else if r = 7 ∧ below then
    .next ({ s with plant := s.plant.put q K.pwrRails (setBit (s.plant.getN q K.pwrRails) 7 false : Nat) }.supplyLost q)
  else
    let p := s.plant.railOut q r
    let s := { s with plant := p }
    if r = 5 ∨ r = 6 then
      .next { s with plant := if below then (p.chSupply (r - 5) true).chOff (r - 5) else p.chFault (r - 5) 1 }
    else if !below then .next s
    else if r = 4 then .next (s.supplyLost q)
    else .next (s.coreSupplyLost q)

/-- RAIL_IN_RANGE: a rail is back in its range: with every rail of a CVC or hub in range, for 2 ms, it starts; a cell enters
COLD as VIN rises; a channel starts from its own rail (R462). -/
def execRailInRange (q : Part) (rail : Fin 8) (s : State) : Host.Outcome State Fault Refusal :=
  let r := rail.val
  if !hasRail q.kind r then .next s
  else
    let p := s.plant.put q K.pwrRails (setBit (s.plant.getN q K.pwrRails) r false : Nat)
    let p := if r = 5 ∨ r = 6 then
        let p := p.chSupply (r - 5) false
        if p.up .cvc ∧ p.chState (r - 5) = 0 then p.chStart (r - 5) else p
      else p
    if q.kind = 2 then
      .next { s with plant := if r = 7 then p.onPower q (fun w => { w with rails := true }) else p }
    else if p.getN q K.pwrRails % 128 ≠ 0 then .next { s with plant := p }
    else .next ({ s with plant := p.onPower q (fun w => { w with rails := true }) }.partStart q)

/-- JUNCTION_TEMPERATURE: pwr.tj as measured; rising above 105 °C or 110 °C raises a source (12 R332–R334, R467). -/
def execJunctionTemperature (q : Part) (tenths : BitVec 16) (s : State) : Host.Outcome State Fault Refusal :=
  s.onUp q (fun p =>
    let old := p.get q K.pwrTj
    let v := tenths.toInt
    let crossed := fun (t : Int) => decide (old ≤ t ∧ t < v)
    let warn := match q.kind with | 0 => 124 | _ => 4
    let p := (p.put q K.pwrTj v).raiseMax q K.pwrTjMax v
    let p := if crossed 1050 then p.raise q warn 0 else p
    if crossed 1100 then p.raise q (warn + 1) 0 else p)

/-- REFERENCE_CLOCK_LOST: a reference clock is lost or a PLL unlocks (17, 12 R332–R334). -/
def execReferenceClockLost (q : Part) (s : State) : Host.Outcome State Fault Refusal :=
  s.onUp q (fun p => p.raise q (match q.kind with | 0 => 121 | _ => 1) 0)

end Sys2Proof.Machine
end

