-- ==== Sys2Proof/Machine/Cycle.lean ====
section
/-! DEFINITION. The control cycle and the converter's transitions: S of a cycle, the events of 02 R43 in the order of R44,
requests and the CHARGE checks (02_control_cycle.md). -/

namespace Sys2Proof.Machine

/-! ### Slot descriptors (05 R113, R114) -/

/-- A tag word names a producer that exists (R114). -/
def tagOk (w : Nat) : Bool :=
  match tagKind w with
  | 0 => true
  | 1 => tagSource w == 0
  | 2 => decide (tagSource w < 12)
  | 3 => decide (tagSource w < 192)
  | 4 => decide (tagSource w < 12)
  | 5 => decide (tagSource w < 16)
  | 6 => tagSource w == 0 && decide (0 < tagParam w)
  | _ => false

/-- A descriptor (control word, arm mask, entry, tags) leaves an enabled slot as R113 allows. -/
def descOk (d : List Nat) : Bool :=
  let c := nth d 0
  let n := ctrlTags c
  !ctrlEn c ||
    ((!ctrlCritical c || (ctrlCyclic c && ctrlDiv c == 1)) && (!ctrlCyclic c || ctrlDiv c != 0) && decide (1 ≤ n ∧ n ≤ 8) && ctrlGroups c != 0 &&
      (rangeFrom 0 n).all (fun t => tagKind (nth d (3 + t)) != 0 && tagOk (nth d (3 + t))) &&
      (ctrlCritical c || nth d 1 == 0) && nth d 2 % 2 == 0 && decide (nth d 2 ≤ 0xFFFE))

/-- The descriptor of a slot as it will be at the next boundary. -/
def Plant.descOf (p : Plant) (n : Nat) : List Nat :=
  let s := p.slot n
  match s.newDesc with
  | some d => d
  | none => s.ctrl :: s.arms :: s.entry :: (rangeFrom 0 8).map (nth s.tags)

/-! ### The CHARGE checks (R45) -/

/-- Raises a source for each of a list of parameters. -/
def Plant.raiseEach (p : Plant) (s : Nat) (l : List Nat) : Plant := l.foldl (fun (p : Plant) (x : Nat) => p.raise .cvc s x) p

/-- The silicon step this manual describes (01 R1). -/
def stepB0 : Nat := 0xB0

/-- Hubs that are missing, unexpected, or on the wrong lanes (R21, R17). -/
def Plant.badHubs (p : Plant) : List Nat :=
  (rangeFrom 0 8).filter (fun n =>
    (p.hubInfo n).found != bitOf (p.c K.stationHubsExpected) n || (p.hubInfo n).wrong)

/-- Discovered cells. -/
def Plant.discovered (p : Plant) : List Nat := (rangeFrom 0 192).flatMap p.cellsOfString

/-- Strings mapped to an arm. -/
def Plant.mappedStrings (p : Plant) : List Nat := (rangeFrom 0 192).filter (fun s => decide (p.armOfString s < 12))

/-- Strings mapped to an arm that are undiscovered or too long; a cell that is in bench mode, has no voltage gain, fails its
reserve check, is not ACTIVE or no longer answers at either end counts as undiscovered (R21, 06 R167, 07 R173, R184, 16 R449). -/
def Plant.badStrings (p : Plant) : List Nat :=
  p.mappedStrings.filter (fun s =>
    !(p.strInfo s).found || (p.strInfo s).tooLong || (p.cellsOfString s).length != p.c (K.stringCells + s) ||
      (p.cellsOfString s).any (fun id =>
        let i := p.cellInfo id
        bits i.ans.flags 5 2 != 0 || (i.silentHead && i.silentTail)))

/-- Parts whose step differs, each by what its source's parameter names: a hub's number or a cell identifier (R1). A discovered cell
of a string mapped to no arm is among them (log entry 79). -/
def Plant.badSteps (p : Plant) : List Nat :=
  (rangeFrom 0 8).filter (fun n => (p.hubInfo n).found && (p.hubInfo n).step != stepB0) ++
    p.discovered.filter (fun id => (p.cellInfo id).ans.step != stepB0)

/-- The mask of arms that satisfy a condition. -/
def armMask (f : Nat → Bool) : Nat := (rangeFrom 0 12).foldl (fun m a => if f a then m + 2 ^ a else m) 0

/-- Arms that fail a condition of R21: on side B in single mode, over 16 strings, or of mixed cell types. -/
def Plant.badArms (p : Plant) : Nat :=
  armMask (fun a => p.armUsed a &&
    ((!p.twoSides && decide (6 ≤ a)) || decide (16 < (p.stringsOf a).length) ||
      ((p.cellsOfArm a).any (fun id => p.isFull id) && (p.cellsOfArm a).any (fun id => !p.isFull id))))

/-- Sides with a used arm. -/
def Plant.usedSides (p : Plant) : List Nat := [0, 1].filter (fun s => p.armsUsed.any (fun a => sideOf a == s))

/-- A cell reports BENCH: in the STATE byte of its latest valid report (06 R141), or, with none, in its discovery answer. -/
def Plant.reportsBench (p : Plant) (id : Nat) : Bool :=
  let r := fun h => Tab.get (fun _ => default) p.cvc.reports (h * 0x3000 + id)
  let a := r 0
  let b := r 1
  let last := if a.valid && (!b.valid || decide (b.k ≤ a.k)) then a else b
  if last.valid then bitOf last.state 6 else bitOf (p.cellInfo id).ans.flags 2

/-- Ta outside its range, short of its need, a base quantity of zero, or a cell in bench mode (R27, R34, R48, 06 R161). -/
def Plant.badCycle (p : Plant) : Bool :=
  let ta := p.c K.cycleTa
  let need := if p.c K.cycleTaPolicy = 0 then p.c K.cycleTaNeedSingle else p.c K.cycleTaNeedDual
  decide (ta < 2200) || decide (2 * p.c K.cycleTc < ta) || decide (ta * 1000 < need) ||
    p.usedSides.any (fun s => p.baseVArm s == 0 || p.baseIArm s == 0 || p.baseVCell s == 0) ||
    p.discovered.any p.reportsBench

/-- A measurement source of a loop names a bitstream channel, or a discovered cell in a string of the arm (04 R95). -/
def Plant.measSrcOk (p : Plant) (a src : Nat) : Bool :=
  if src / 2 ^ 14 = 0 then true
  else
    let id := src % 2 ^ 14
    p.armOfString (id / 64) == a && (p.cellInfo id).found

/-- Arms that fail the loop measurement check (04 R95). -/
def Plant.badLoops (p : Plant) : Nat :=
  armMask (fun a => p.armUsed a &&
    (let v := fun sub => parAt (p.loopPars a) sub
     p.get .cvc (K.loopMeasGain + a * 256) == 0 || !p.measSrcOk a (v 1).toNat ||
       ((v 2).toNat != 0xFFFF && !p.measSrcOk a (v 2).toNat)))

/-- A tag's producer is part of the station (05 R128). -/
def Plant.tagUsed (p : Plant) (w : Nat) : Bool :=
  match tagKind w with
  | 2 => p.armUsed (tagSource w)
  | 3 => decide (p.armOfString (tagSource w) < 12)
  | 4 => p.armUsed (tagSource w)
  | _ => true

/-- Enabled slots that fail R113, R114 or the station's configuration (05 R128). -/
def Plant.badSlots (p : Plant) : List Nat :=
  p.enabledSlots.filter (fun n =>
    let s := p.slot n
    !descOk (s.ctrl :: s.arms :: s.entry :: s.tags) ||
      (rangeFrom 0 (ctrlTags s.ctrl)).any (fun t => !p.tagUsed (nth s.tags t)))

/-- The parts the CVC has found, itself among them. -/
def Plant.foundParts (p : Plant) : List Part :=
  .cvc :: ((List.finRange 8).filter (fun h => (p.hubInfo h.val).found)).map .hub ++
    p.discovered.filterMap (fun id => (cellAt (id / 64) (id % 64)).map .cell)

/-- Slot tables whose bank in force fails its check, as the source's parameter names them (09 R252). -/
def Plant.badTables (p : Plant) : List Nat :=
  p.foundParts.flatMap (fun q => ((tablesOf q.kind).filter (fun t =>
    !p.tableOk q t (p.getN q ((0x3A10 + t) * 256 + 0x21)) p.tc p.ta)).map (fun t => q.node * 65536 + t))

/-- Arms without an arm current in a channel: no input with their role, and no two discovered reporters on hubs with full
reports (11 R297). -/
def Plant.badCurrents (p : Plant) : Nat :=
  let ok := fun (ch a : Nat) =>
    (rangeFrom 0 8).any (fun n => p.inRole ch n == 0x10 + a) ||
      (let ids := p.reporterIds ch a
       decide (ids.length = 2) && ids.all (fun id => (p.cellInfo id).found && (p.hubInfo (id / 64 / 24)).form == 1))
  armMask (fun a => p.armUsed a && !(ok 0 a && ok 1 a))

/-- Every check of CHARGE, each failing one with its own source; the emergency latch has none (R45, 12 R342). The number and
parameter of a failing arm condition are the model's reading. -/
def Plant.chargeChecks (p : Plant) : Bool × Plant :=
  let hubs := p.badHubs
  let strs := p.badStrings
  let steps := p.badSteps
  let arms := p.badArms
  let cyc := p.badCycle
  let loops := p.badLoops
  let slots := p.badSlots
  let tables := p.badTables
  let cur := p.badCurrents
  let e := p.c K.rindEvalAt
  let evalBad := decide (e ≤ 300) || decide (p.c K.cycleTc ≤ e)
  let starting := p.chState 0 == 1 || p.chState 1 == 1
  let bad := [0, 1].filter (fun ch => p.chState ch != 2 && p.chState ch != 1)
  let ok := hubs.isEmpty && strs.isEmpty && steps.isEmpty && arms == 0 && !cyc && loops == 0 && p.cvc.package.loaded &&
    slots.isEmpty && tables.isEmpty && cur == 0 && !evalBad && !starting && bad.isEmpty && !bitOf (p.c K.faultSummary) 2
  let p := ((p.raiseEach 48 hubs).raiseEach 49 strs).raiseEach 50 steps
  let p := if arms = 0 then p else p.raise .cvc 19 arms
  let p := if cyc then p.raise .cvc 19 0 else p
  let p := if loops = 0 then p else p.raise .cvc 28 loops
  let p := if p.cvc.package.loaded then p.raiseEach 40 slots else p.raise .cvc 40 0
  let p := p.raiseEach 61 tables
  let p := if cur = 0 then p else p.raiseArms 100 cur
  let p := if evalBad ∨ starting then p.raise .cvc 102 0 else p
  (ok, bad.foldl (fun p ch => p.raise .cvc (97 + ch) 0) p)

/-! ### Requests (R45) -/

/-- A request that R43 refuses in the present state, or R311 or the trip outputs refuse (11 R311). -/
def Plant.requestRefused (p : Plant) (v : Nat) : Bool :=
  match v with
  | 1 => p.conv != 2
  | 2 => p.conv != 4 || p.chState 0 == 3 || p.chState 1 == 3 || p.cvc.rind.disagree
  | 3 => !(p.conv == 4 || p.conv == 5 || p.conv == 6)
  | 4 => !(p.conv == 2 || p.conv == 3 || p.conv == 4)
  | _ => p.conv != 7 || !p.tripsReleased

/-- An accepted request waits for the next boundary. -/
def Plant.takeRequest (p : Plant) (v : Nat) : Plant :=
  p.onCvc (fun c => { c with conv := { c.conv with requests := c.conv.requests ++ [v] } })

/-- A request discarded at a boundary (R45). -/
def Plant.discardRequest (p : Plant) (v : Nat) : Plant :=
  (p.cPut K.convLastRefused (v : Nat)).record .cvc 6 v p.conv 0 []

/-- The event of a request: 4, 7, 8, 9 or 15 (R43). -/
def requestEvent : Nat → Nat
  | 1 => 4
  | 2 => 7
  | 3 => 8
  | 4 => 9
  | _ => 15

/-- Takes a request at a boundary; answers whether a transition happened (R43, R45). -/
def Plant.doRequest (p : Plant) (v : Nat) : Bool × Plant :=
  if p.requestRefused v then (false, p.discardRequest v)
  else
    let ev := requestEvent v
    match v with
    | 1 =>
      let (ok, p) := p.chargeChecks
      if ok then
        (true, p.convGo 3 ev 0)
      else (false, p.kept ev v)
    | 2 => (true, (p.convGo 5 ev 0).harpReset)
    | 3 => if p.conv = 4 then (false, p.kept ev v) else (true, p.convGo 4 ev 0)
    | 4 => if p.conv = 2 then (false, p.kept ev v) else (true, p.convGo 2 ev 0)
    | _ => (true, p.convGo 2 ev 0)

/-! ### Events at a boundary (R43, R44) -/

/-- What an event of R43 does in a state. -/
inductive EventAct where
  /-- the event cannot occur in the state -/
  | none_
  /-- it is recorded and the state stays -/
  | keep
  /-- the state entered -/
  | go (new : Nat)
  deriving DecidableEq, Repr

/-- Events 3, 5, 6, 10, 11 and 14 of R43; `kept13` says that event 13 was kept in STARTING. -/
def eventAct (ev st : Nat) (kept13 : Bool) : EventAct :=
  match ev with
  | 11 => if st = 6 then .go 4 else .none_
  | 14 => if st = 3 then .go 2 else if st = 5 ∨ st = 6 then .go 4 else .keep
  | 10 => if st = 5 then .go 6 else .keep
  | 6 => if st = 3 then .go 2 else .none_
  | 5 => if st = 3 then .go 4 else .none_
  | _ => if st = 1 then .go (if kept13 then 7 else 2) else .none_

/-- The events in the order R44 takes them. -/
def eventOrder : List Nat := [11, 14, 10, 6, 5, 3]

/-- Takes one pending event. The state is whether a transition has happened and what stays pending. -/
def Plant.doEvent (acc : Bool × List (Nat × Nat) × Plant) (e : Nat × Nat) : Bool × List (Nat × Nat) × Plant :=
  let (done, left, p) := acc
  if done then
    (true, if (e.1 = 10 ∨ e.1 = 14) ∧ p.pendingSrc .cvc e.2 then left ++ [e] else left, p)
  else match eventAct e.1 p.conv p.cvc.conv.tripKept with
    | .none_ => (false, left, p)
    | .keep => (false, left, p.kept e.1 e.2)
    | .go new => (true, left, p.convGo new e.1 (if 10 ≤ e.1 then e.2 else 0))

/-- Arm blocks: event 12 is kept in every state, and in RUNNING and DEGRADED the arms block (R43). -/
def Plant.armBlocks (p : Plant) (l : List (Nat × Nat)) : Plant :=
  l.foldl (fun p e =>
    let p := p.kept 12 e.2
    if p.conv = 5 ∨ p.conv = 6 then p.cPut K.convArmsBlocked (p.c K.convArmsBlocked ||| e.1 : Nat) else p) p

/-- A cell is available as far as its reports go (03 R61): its capacitance is known, its report of the cycle is valid and shows no loss
action, no FIRED and no local severity of 2 or 3, and it is not in forced BYPASS. -/
def Plant.chargeAvail (p : Plant) (id : Nat) (r : RepRec) : Bool :=
  let a := p.armOfString (id / 64)
  p.cellC id (p.harpPars (sideOf a)).vals != 0 && !r.loss && !(p.harpCell id).forced && r.state % 16 != 5 &&
    decide (r.status / 16 % 4 < 2)

/-- Charging is complete (R47): in every used arm the mean measured voltage is at the level, and no available cell is below the limit.
The mean is over the valid reports of the cycle just ended from cells that are not FIRED; an arm without one is not charged
(log entry 79). -/
def Plant.charged (p : Plant) : Bool :=
  p.armsUsed.all (fun a =>
    let rs := (p.cellsOfArm a).filterMap (fun id => (p.reportOf id (p.k - 1)).map (fun r => (id, r)))
    let vs := (rs.filter (fun e => e.2.state % 16 != 5)).map (·.2.v)
    !vs.isEmpty && decide (p.get .cvc K.convChargeLevel * (vs.length : Int) ≤ sumI vs) &&
      rs.all (fun e => !p.chargeAvail e.1 e.2 || decide (p.get .cvc K.convChargeMinCell ≤ e.2.v)))

/-- The transition of a boundary, if one happens, what becomes of requests, and the arm blocks in the state that then holds
(R43–R45). A STANDBY takes none: it follows its partner. -/
def Plant.convBoundary (p : Plant) : Plant :=
  let cv := p.cvc.conv
  let p := p.onCvc (fun c => { c with conv := { c.conv with events := [], requests := [], armBlocks := [] } })
  if p.c K.redRole = 2 then p
  else
    let evs := if p.conv = 3 ∧ p.charged then cv.events ++ [(5, 0)] else cv.events
    let r := (eventOrder.flatMap (fun n => evs.filter (fun e => e.1 == n))).foldl Plant.doEvent (false, [], p)
    let q := cv.requests.foldl (fun (a : Bool × Plant) v =>
      if a.1 then (true, a.2.discardRequest v) else a.2.doRequest v) (r.1, r.2.2)
    (q.2.armBlocks cv.armBlocks).onCvc (fun c => { c with conv := { c.conv with events := r.2.1 ++ c.conv.events } })

/-- The role that the end of STARTING brings (14 R381): ACTIVE when alone. -/
def Plant.takeRole (p : Plant) : Plant :=
  if !p.paired ∨ p.cvc.red.outcome = 3 then p.enterActive.onRed (fun r => { r with outcome := 0 })
  else p.enterStandby

/-! ### The cycle (R28, R29) -/

/-- S_0 may open (16 R445, 10 R286, 14 R378, R381). -/
def Plant.mayOpen (p : Plant) : Bool :=
  p.conv == 1 && p.getN .cvc K.bootStatus != 2 && !p.misstrapped && !p.cvc.red.sameId &&
    (!p.paired || p.cvc.red.outcome != 0) &&
    (p.c K.timeSource != 1 || p.cvc.ptp.offsetSeen || p.cvc.conv.ptpWaited)

/-- The schedule at S_0. -/
def Plant.openCycle (p : Plant) : Plant :=
  let n := p.now .cvc
  let p := p.onNode .cvc (fun x => { x with sched := { x.sched with valid := true, s := n, k := 0 } })
  ((p.cPut K.cycleOrigin (n : Nat)).cPut K.cycleCount 0).cPut K.cycleSeq 0

/-- The schedule at the next S: k and S move on, and an announced change of Tc and Ta takes effect at its boundary, where cycle.origin
moves so that S_k stays origin + k × Tc (R28, R29; log entry 29). -/
def Plant.nextCycle (p : Plant) : Plant :=
  let sc := (p.node .cvc).sched
  let s := (sc.s + sc.tc) % 2 ^ 64
  let due := sc.chgDue && sc.chgS == s
  let sc := { sc with s := s, k := (sc.k + 1) % 2 ^ 64 }
  let p := p.onNode .cvc (fun x => { x with
    sched := if due then { sc with tc := sc.chgTc, ta := sc.chgTa, chgDue := false } else sc })
  let p := p.onCvc (fun c => { c with hOffPrev := c.hOff })
  let p := (p.cPut K.cycleCount (sc.k : Nat)).cPut K.cycleSeq (sc.k % 256 : Nat)
  let p := if due then p.cPut K.cycleOrigin (unsigned 64 ((s : Int) - (sc.k : Int) * sc.chgTc) : Nat) else p
  if due ∧ p.acqRecords then p.acqStopNow else p

/-- A change of Tc or Ta since the last announcement is announced to every running hub and cell for 16 cycles ahead (R28). -/
def Plant.announce (p : Plant) : Plant :=
  let sc := (p.node .cvc).sched
  let tc := p.c K.cycleTc
  let ta := p.c K.cycleTa
  let known := if sc.chgDue then (sc.chgTc, sc.chgTa) else (sc.tc, sc.ta)
  if known = (tc, ta) then p
  else
    let at_ := sc.s + 16 * sc.tc
    p.nodes.foldl (fun p e =>
      if e.2.power.core then p.onNode e.2.part (fun n => { n with
        sched := { n.sched with chgDue := true, chgS := at_, chgTc := tc, chgTa := ta } }) else p) p

/-- The present need is above Ta in a state after STOPPED (R35). -/
def Plant.checkNeed (p : Plant) : Plant :=
  if 3 ≤ p.conv ∧ p.ta * 1000 < p.c K.cycleTaNeedNow then p.raise .cvc 19 0 else p

/-- A calendar set that is due (10 R288): one by PTP, or the owner's group of index 0x1202; an owner's is discarded and recorded
when PTP has reached SLAVE. -/
def Plant.calBoundary (p : Plant) (due : List (Nat × Nat × List (Nat × Int))) : Plant :=
  let n := p.sOf p.k
  let p := if p.cvc.ptp.calDue then
      (p.onCvc (fun c => { c with ptp := { c.ptp with calDue := false } })).calendarSet 1 p.cvc.ptp.calK n.toNat
    else p
  match due.find? (fun e => e.1 == 0x1202) with
  | none => p
  | some e =>
    let v := fun key => (Tab.get (fun _ => (0 : Int)) e.2.2 key)
    let want := v K.timeCalNewS * 1000000000 + v K.timeCalNewNs
    if p.c K.timeSource = 1 ∧ p.ptpSlave then p.record .cvc 0x000A 0 0 0 (leBytes 8 (unsigned 64 want))
    else p.calendarSet 2 (want - n) n.toNat

/-- What the boundary does in the plant, from the start of the cycle to the run of its parts, in the order of 04 R89. -/
def Plant.boundary (p : Plant) : Plant :=
  let p := p.onCvc (fun c => { c with bsPrev := c.bsAtS, bsAtS := c.bsOut })
  let p := ((p.switchBanks .cvc).asymBoundary.stationBoundary).announce
  let p := p.redBoundary
  let before := p.conv
  let p := (p.slotBoundary p.k).capsBoundary.convBoundary.capsBoundary
  let p := if p.c K.convStatePrev = 2 ∧ 2 < p.conv then p.endTests else p
  let p := if before = 1 ∧ p.conv ≠ 1 then p.takeRole else p
  let due := p.cvc.applies
  let p := p.moveGroups.calBoundary due
  let p := p.imageBoundary.rindBoundary before
  let p := p.checkNeed.acqEvent 8
  let p := (p.vatBoundary p.k (before != 2 && p.conv == 2)).harpBoundary
  p.loopBoundary.injBoundary

/-- S of a cycle in the CVC: the first one in STARTING once listening and the wait for PTP are over, each later one Tc after the
one before (R28, R29, 16 R445). -/
def State.cycleBoundary (s : State) : State :=
  let p := s.plant
  if !p.up .cvc then s
  else if !(p.node .cvc).sched.valid ∧ !p.mayOpen then s
  else
    let p := if (p.node .cvc).sched.valid then p.nextCycle else p.openCycle
    let s := State.packageBoundary { s with plant := p }
    let s := { s with plant := s.plant.boundary }
    { s with plant := s.plant.sendMirror s.mem }

/-- CHARGE_TIMEOUT: conv.charge_timeout has passed in CHARGING: source 18 and event 6 (R47). -/
def execChargeTimeout (s : State) : Host.Outcome State Fault Refusal :=
  s.onUp .cvc (fun p => if p.conv = 3 then (p.convEvent 6 0).raise .cvc 18 0 else p)

end Sys2Proof.Machine
end

