-- ==== Sys2Proof/Machine/Engine.lean ====
section
/-! DEFINITION. The Xhkx instructions of the control engines (05_control_engines_and_vat.md R108–R111). -/

namespace Sys2Proof.Machine

/-- An engine runs an item; it runs nothing else (R102). -/
def Plant.engRuns (p : Plant) (e : Eng) : Bool := (p.eng e).item.isSome

/-- Changes the registers of an engine. -/
def Plant.onRegs (p : Plant) (e : Eng) (f : Regs → Regs) : Plant := p.onEng e (fun g => { g with regs := f g.regs })

/-- An integer register; x0 reads 0. -/
def Plant.xReg (p : Plant) (e : Eng) (n : Nat) : Nat := if n = 0 then 0 else nth (p.eng e).regs.x n

/-- Writes an integer register; x0 discards the write. -/
def Plant.setX (p : Plant) (e : Eng) (n v : Nat) : Plant :=
  if n = 0 then p else p.onRegs e (fun r => { r with x := r.x.set n (v % 2 ^ 32) })

/-- The next instruction, n bytes on. -/
def Plant.nextPc (p : Plant) (e : Eng) (n : Nat) : Plant := p.onRegs e (fun r => { r with pc := (r.pc + n) % 2 ^ 32 })

/-- Sets bits of hxflags (R111). -/
def Plant.setHx (p : Plant) (e : Eng) (m : Nat) : Plant := p.onRegs e (fun r => { r with hx := r.hx ||| m })

/-- A register as PU32 steps (R12). -/
def Plant.puReg (p : Plant) (e : Eng) (n : Nat) : Int := signed 32 (p.xReg e n)

/-- A PU32 result: rounded already, saturated here, with the instruction's bit of hxflags (R109). -/
def Plant.puResult (p : Plant) (e : Eng) (rd : Nat) (x : Int) (bit : Nat) : Plant :=
  let p := p.setX e rd (unsigned 32 (satPU x))
  (if satHit x then p.setHx e (2 ^ bit) else p).nextPc e 4

/-- PADD: rd = sat(a + b). -/
def Plant.padd (p : Plant) (e : Eng) (rd rs1 rs2 : Nat) : Plant := p.puResult e rd (p.puReg e rs1 + p.puReg e rs2) 0
/-- PSUB: rd = sat(a − b). -/
def Plant.psub (p : Plant) (e : Eng) (rd rs1 rs2 : Nat) : Plant := p.puResult e rd (p.puReg e rs1 - p.puReg e rs2) 1
/-- PMUL: rd = sat(round(a × b ÷ 2^24)). -/
def Plant.pmul (p : Plant) (e : Eng) (rd rs1 rs2 : Nat) : Plant := p.puResult e rd (puMulX (p.puReg e rs1) (p.puReg e rs2)) 2
/-- The exact accumulation of PMAC, rounded once (R109). -/
def pmacX (acc a b : Int) : Int := rdiv (acc * 16777216 + a * b) 16777216
/-- PMAC: rd = sat(round((rd × 2^24 + a × b) ÷ 2^24)). -/
def Plant.pmac (p : Plant) (e : Eng) (rd rs1 rs2 : Nat) : Plant :=
  p.puResult e rd (pmacX (p.puReg e rd) (p.puReg e rs1) (p.puReg e rs2)) 3

/-- The deposit of VPUT and VPUTP by a handle (R110, R118). -/
def Plant.put_ (p : Plant) (e : Eng) (rs1 rs2 : Nat) : Nat × Plant :=
  match (p.eng e).item with
  | none => (0, p)
  | some it =>
    let h := p.xReg e rs1
    let (r, p) := p.deposit (some it) 0 (bits h 15 4) (bits h 2 0) (bits h 31 16) (p.xReg e rs2)
    (r, if r = 0 then p else p.setHx e (if r = 1 then 32 else 16))

/-- VPUT: the deposit's result goes to rd. -/
def Plant.vput (p : Plant) (e : Eng) (rd rs1 rs2 : Nat) : Plant :=
  let (r, p) := p.put_ e rs1 rs2
  (p.setX e rd r).nextPc e 4
/-- VPUTP: the deposit is only counted. -/
def Plant.vputp (p : Plant) (e : Eng) (rs1 rs2 : Nat) : Plant := (p.put_ e rs1 rs2).2.nextPc e 4
/-- VGET: the operand of a tag as copied at dispatch (R117); a tag the slot does not have gives a free value (log entry 6). -/
def Plant.vget (p : Plant) (e : Eng) (rd rs1 : Nat) : Plant :=
  match (p.eng e).item with
  | none => p
  | some it =>
    let t := p.xReg e rs1 % 8
    if t < ctrlTags (p.ctrlOf it.slot) then (p.setX e rd (nth it.ops t)).nextPc e 4
    else
      let (v, p) := p.free
      (p.setX e rd v).nextPc e 4
/-- VQRY: a handle with the slot's present epoch (R110). -/
def Plant.vqry (p : Plant) (e : Eng) (rd rs1 rs2 : Nat) : Plant :=
  let n := p.xReg e rs1 % 4096
  (p.setX e rd (p.epochOf n * 2 ^ 16 + n * 16 + p.xReg e rs2 % 8)).nextPc e 4
/-- VSTAT: vat.slot_state of a slot. -/
def Plant.vstat (p : Plant) (e : Eng) (rd rs1 : Nat) : Plant := (p.setX e rd (p.slotState (p.xReg e rs1 % 4096))).nextPc e 4
/-- VDONE: the item completes with code rs1[7:0]; its deposits have been delivered (R122). -/
def Plant.vdone (p : Plant) (e : Eng) (rs1 : Nat) : Plant :=
  match (p.eng e).item with
  | none => p
  | some it => p.itemDone e it (p.xReg e rs1 % 256) (p.eng e).regs.hx
/-- TNOW: network time, its high half latched for TNOWH. -/
def Plant.tnow (p : Plant) (e : Eng) (rd : Nat) : Plant :=
  let n := p.now .cvc
  ((p.onEng e (fun g => { g with tnowHi := n / 2 ^ 32 })).setX e rd n).nextPc e 4
/-- TNOWH: the high half latched at this engine's last TNOW. -/
def Plant.tnowh (p : Plant) (e : Eng) (rd : Nat) : Plant := (p.setX e rd (p.eng e).tnowHi).nextPc e 4
/-- The cycle of the item. -/
def Plant.itemK (p : Plant) (e : Eng) : Nat := match (p.eng e).item with | some it => it.k | none => 0
/-- S of the item's cycle. -/
def Plant.itemS (p : Plant) (e : Eng) : Int := match (p.eng e).item with | some it => it.sAt | none => 0
/-- TSAMP: S of the item's cycle. -/
def Plant.tsamp (p : Plant) (e : Eng) (rd : Nat) : Plant := (p.setX e rd (unsigned 32 (p.itemS e))).nextPc e 4
/-- H of the item's cycle minus now in ns, rounded down; 0x7FFF_FFFF for a background item. -/
def Plant.leftNs (p : Plant) (e : Eng) : Int :=
  match (p.eng e).item with
  | some it => if it.critical then clampI (-2147483648) 2147483647 ((it.hAt - p.nowPs) / 1000) else 2147483647
  | none => 0
/-- TLEFT. -/
def Plant.tleft (p : Plant) (e : Eng) (rd : Nat) : Plant := (p.setX e rd (unsigned 32 (p.leftNs e))).nextPc e 4
/-- TCYC: the low 32 bits of the item's cycle number. -/
def Plant.tcyc (p : Plant) (e : Eng) (rd : Nat) : Plant := (p.setX e rd (p.itemK e)).nextPc e 4

/-- An engine instruction runs only within an item (R102). -/
def State.onEngine (s : State) (e : Eng) (f : Plant → Plant) : Host.Outcome State Fault Refusal :=
  s.onUp .cvc (fun p => if p.engRuns e then f p else p)

/-- PADD (R108). -/
def execPadd (e : Eng) (rd rs1 rs2 : RegNo) (s : State) : Host.Outcome State Fault Refusal :=
  s.onEngine e (fun p => p.padd e rd.val rs1.val rs2.val)
/-- PSUB (R108). -/
def execPsub (e : Eng) (rd rs1 rs2 : RegNo) (s : State) : Host.Outcome State Fault Refusal :=
  s.onEngine e (fun p => p.psub e rd.val rs1.val rs2.val)
/-- PMUL (R109). -/
def execPmul (e : Eng) (rd rs1 rs2 : RegNo) (s : State) : Host.Outcome State Fault Refusal :=
  s.onEngine e (fun p => p.pmul e rd.val rs1.val rs2.val)
/-- PMAC (R109). -/
def execPmac (e : Eng) (rd rs1 rs2 : RegNo) (s : State) : Host.Outcome State Fault Refusal :=
  s.onEngine e (fun p => p.pmac e rd.val rs1.val rs2.val)
/-- VPUT (R118). -/
def execVput (e : Eng) (rd rs1 rs2 : RegNo) (s : State) : Host.Outcome State Fault Refusal :=
  s.onEngine e (fun p => p.vput e rd.val rs1.val rs2.val)
/-- VPUTP (R118). -/
def execVputp (e : Eng) (rs1 rs2 : RegNo) (s : State) : Host.Outcome State Fault Refusal :=
  s.onEngine e (fun p => p.vputp e rs1.val rs2.val)
/-- VGET (R117). -/
def execVget (e : Eng) (rd rs1 : RegNo) (s : State) : Host.Outcome State Fault Refusal :=
  s.onEngine e (fun p => p.vget e rd.val rs1.val)
/-- VQRY (R110). -/
def execVqry (e : Eng) (rd rs1 rs2 : RegNo) (s : State) : Host.Outcome State Fault Refusal :=
  s.onEngine e (fun p => p.vqry e rd.val rs1.val rs2.val)
/-- VSTAT (R108). -/
def execVstat (e : Eng) (rd rs1 : RegNo) (s : State) : Host.Outcome State Fault Refusal :=
  s.onEngine e (fun p => p.vstat e rd.val rs1.val)
/-- VDONE (R122). -/
def execVdone (e : Eng) (rs1 : RegNo) (s : State) : Host.Outcome State Fault Refusal :=
  s.onEngine e (fun p => p.vdone e rs1.val)
/-- TNOW (R108). -/
def execTnow (e : Eng) (rd : RegNo) (s : State) : Host.Outcome State Fault Refusal := s.onEngine e (fun p => p.tnow e rd.val)
/-- TNOWH (R108). -/
def execTnowh (e : Eng) (rd : RegNo) (s : State) : Host.Outcome State Fault Refusal := s.onEngine e (fun p => p.tnowh e rd.val)
/-- TSAMP (R108). -/
def execTsamp (e : Eng) (rd : RegNo) (s : State) : Host.Outcome State Fault Refusal := s.onEngine e (fun p => p.tsamp e rd.val)
/-- TLEFT (R108). -/
def execTleft (e : Eng) (rd : RegNo) (s : State) : Host.Outcome State Fault Refusal := s.onEngine e (fun p => p.tleft e rd.val)
/-- TCYC (R108). -/
def execTcyc (e : Eng) (rd : RegNo) (s : State) : Host.Outcome State Fault Refusal := s.onEngine e (fun p => p.tcyc e rd.val)

end Sys2Proof.Machine
end

