-- ==== Sys2Proof/Machine/View.lean ====
section
/-! DEFINITION. What a read of an object returns: values held, values that are computed where they are read, and the reads that
change something (15_dictionary_and_hosts.md R401–R404; 03 R76, 05 R130, R131, 10 R287, 12 R352). -/

namespace Sys2Proof.Machine

/-- vat.slot_present: the present tags of an instance; those of a sink count for the present cycle and the one before. -/
def Plant.presentOf (p : Plant) (n i : Nat) : Nat :=
  let x := (p.slot n).inst i
  if isSink n && !(x.k == p.k || x.k + 1 == p.k) then 0 else x.present % 256

/-- The slot window of record 0x3020 by subindex (05 R131). -/
def Plant.vatView (p : Plant) (sub : Nat) : Int :=
  let n := p.c K.vatSel
  let s := p.slot n
  let d := p.descOf n
  let v : Nat :=
    if sub = 0x01 then n
    else if sub = 0x02 then (if n < 4032 then nth d 0 else p.ctrlOf n)
    else if sub = 0x03 then nth d 1
    else if sub = 0x04 then nth d 2
    else if sub = 0x0D then p.epochOf n
    else if sub = 0x0E then p.slotState n
    else if sub = 0x0F then p.presentOf n 1 * 256 + p.presentOf n 0
    else if sub = 0x10 then s.flags
    else if sub = 0x11 then s.code
    else if sub = 0x12 then s.runs
    else if isSink n then (if sub = 0x05 then 0x10000000 else 0)
    else nth d (sub - 2)
  (v : Int)

/-- The cell window of record 0x2430 by subindex (03 R76): the values of the latest completed run of the cell's arm. -/
def Plant.harpView (p : Plant) (sub : Nat) : Int :=
  let id := p.c K.harpCellSel
  let w := (Tab.get (fun _ => (default : HarpCell)) p.cvc.harp id).win
  if sub = 0x01 then (id : Int)
  else if !(p.cellInfo id).found then 0
  else if sub = 0x02 then w.vpred
  else if sub = 0x03 then w.key
  else if sub = 0x04 then (w.budget : Int)
  else if sub = 0x05 then (w.cmd : Int)
  else if sub = 0x06 then (min w.age 0xFFFF : Nat)
  else if sub = 0x07 then (w.rest : Int)
  else (w.c : Int)

/-- The pending sources from one on, as 64 bits (12 R354). -/
def Plant.pendingBits (p : Plant) (q : Part) (first : Nat) : Nat :=
  (p.pendingList q).foldl (fun m s => if first ≤ s ∧ s < first + 64 then m + 2 ^ (s - first) else m) 0

/-- Objects of the CVC whose value is computed where it is read. -/
def Plant.viewCvc (p : Plant) (key : Nat) : Int :=
  if key / 256 = 0x3020 ∧ 0 < key % 256 then p.vatView (key % 256)
  else if key / 256 = 0x2430 ∧ 0 < key % 256 then p.harpView (key % 256)
  else if K.engState ≤ key ∧ key < K.engState + 16 then
    (match allEngines.find? (fun e => e.val == key - K.engState) with | some e => (p.engState e : Nat) | none => 0)
  else if key = K.vatEnabled then p.enabledSlots.length
  else if key = K.svcQueued then p.cvc.proxy.queue.length
  else if key = K.timeCalS then (unsigned 48 (p.calendar / 1000000000) : Nat)
  else if key = K.timeCalNs then p.calendar % 1000000000
  else if key = K.rindDegradedLeft then p.degradedLeft
  else if key = K.redCfgCrc then p.cfgCrc
  else if key = K.gdpOwnerLeft then
    (if p.c K.gdpOwnerRid = 0 then 0 else ((p.cvc.gdp.leaseEnd - p.tick) / 400 : Nat))
  else if key = K.gdpBatchEntries then p.cvc.gdp.batch.length
  else if key = K.gdpSessions then p.cvc.gdp.sessions.length
  else p.get .cvc key

/-- The value of an object as a read shows it. -/
def Plant.view (p : Plant) (q : Part) (key : Nat) : Int :=
  if key = K.faultSummary then p.summary q
  else if key = K.faultNpending then (p.pendingList q).length
  else if key = K.faultPending then p.pendingBits q 0
  else if key = K.faultPending1 then p.pendingBits q 64
  else if key = K.timeNow then p.nowLong q
  else if key = K.storeDirty then p.storeDirty q
  else if key = K.caveForm then p.caveForm q
  else match q with
    | .cvc => p.viewCvc key
    | .hub _ => p.get q key
    | .cell _ => if key = K.nrgQueued then (p.node q).cave.queue.length else p.get q key

/-- The bytes of a DOMAIN or STRING object, but for cave.rec, whose read advances (12 R352). -/
def State.blobOf (s : State) (q : Part) (key : Nat) : List Nat :=
  match q with
  | .cvc =>
    if key = K.acqData then s.acqData 0 0 0x2000000
    else if key = K.acqData + 1 then s.acqData 1 0 0x1000000
    else s.plant.blob q key
  | .hub _ => s.plant.blob q key
  | .cell c => if key = K.capData then s.plant.capData c else s.plant.blob q key

/-- A segment of at most n bytes of a DOMAIN or STRING object from an offset, and whether bytes remain after it. Memory alone is
read where the object is acquisition memory. -/
def State.blobPart (s : State) (q : Part) (key off n : Nat) : List Nat × Bool :=
  if q = .cvc ∧ (key = K.acqData ∨ key = K.acqData + 1) then
    let bank := key - K.acqData
    let size := if s.plant.c K.acqMode = 1 then 0x1000000 else if bank = 0 then 0x2000000 else 0
    (s.acqData bank off n, decide (off + n < size))
  else
    let bs := s.blobOf q key
    ((bs.drop off).take n, decide (off + n < bs.length))

/-- Steps 6 and 7 of 15 R404 for a read. -/
def readStatus (kind key : Nat) : Nat :=
  if !hasIndex kind (key / 256) then 0x0101
  else match rowOf kind key with
    | none => 0x0102
    | some r => if r.acc = .wo then 0x0202 else 0

/-- A read of an object that is not a DOMAIN: its value's bytes, and what the read changes. A read of time.cal_s latches
time.cal_ns for the next read (10 R287). -/
def State.readValue (s : State) (q : Part) (r : ObjRow) (key : Nat) : List Nat × State :=
  let p := s.plant
  if r.ty = .string then (s.blobOf q key, s)
  else if q = .cvc ∧ key = K.timeCalS then
    (encodeVal r.ty (p.view q key), { s with plant := p.onCvc (fun c => { c with ptp := { c.ptp with
      latchedNs := (p.calendar % 1000000000).toNat + 1 } }) })
  else if q = .cvc ∧ key = K.timeCalNs ∧ p.cvc.ptp.latchedNs ≠ 0 then
    (encodeVal r.ty (p.cvc.ptp.latchedNs - 1 : Nat), { s with plant := p.onCvc (fun c => { c with ptp := { c.ptp with
      latchedNs := 0 } }) })
  else (encodeVal r.ty (p.view q key), s)

/-- A read of a DOMAIN: at most n bytes from an offset, whether bytes remain, and what the read changes: cave.rec advances
(12 R352). -/
def State.readDomain (s : State) (q : Part) (key off n : Nat) : (List Nat × Bool) × State :=
  if key = K.caveRec then
    let (bs, p) := s.plant.caveRead q
    (((bs.drop off).take n, decide (off + n < bs.length)), { s with plant := p })
  else (s.blobPart q key off n, s)

end Sys2Proof.Machine
end

