-- ==== Sys2Proof/Machine/Write.lean ====
section
/-! DEFINITION. A write of an object: the checks of 15 R404 in their order, and what an accepted write does. A check answers a
status code of 15 R423, 0 when it passes. -/

namespace Sys2Proof.Machine

/-- The first check that fails. -/
def firstStatus : List Nat → Nat
  | [] => 0
  | x :: t => if x = 0 then firstStatus t else x

/-- A condition that must hold, with the status it is refused with. -/
def must (b : Bool) (status : Nat) : Nat := if b then 0 else status

/-! ### Steps 6 and 7 -/

/-- Steps 6 and 7 for a write (00_scope.md R6). The mirror is written by the partner alone (14 R393). -/
def writeAccess (kind key : Nat) : Nat :=
  if !hasIndex kind (key / 256) then 0x0101
  else match rowOf kind key with
    | none => 0x0102
    | some r => if r.acc = .ro ∨ r.acc = .rs ∨ key = K.redMirror then 0x0203 else 0

/-! ### Step 9 -/

/-- A test pattern or loopback object of a lane (08 R202). -/
def isTest (key : Nat) : Bool :=
  decide (0x3800 ≤ key / 256 ∧ key / 256 < 0x3840) && (key % 256 == 0x0B || key % 256 == 0x0C || key % 256 == 0x12)

/-- Objects other than class RWS whose write is accepted in STOPPED alone: 06 R160, 07 R184, 11 R316, 12 R342, R351,
16 R439, R443, R444. -/
def stoppedOnly (key : Nat) : Bool :=
  key == K.bypUnfire || key == K.faultEmergClear || key == K.caveClear || key == K.pwrRequest || key == K.storeRestore ||
    key == K.storeImage || key == K.bootKeyProg || key == K.bootKeyProg + 1 || key == K.rindImageArm ||
    key == K.rindImageCommit

/-- The converter state allows the write of a value at a part (step 9; 00_scope.md R6, 06 R161, 08 R202, 16 R431, R447,
14 R378). The CVC judges it for every part. -/
def Plant.stateStatus (p : Plant) (q : Part) (key : Nat) (r : ObjRow) (v : Nat) : Nat :=
  let stopped := p.conv == 2
  firstStatus
    [must (p.getN .cvc K.bootStatus != 2 || key == K.bootFwLoad) 0x0204,
     must (!p.misstrapped) 0x0204,
     must (r.acc != .rws || stopped) 0x0204,
     must (!stoppedOnly key || stopped) 0x0204,
     must (key != K.rstSoft || (if q.kind = 0 then p.conv != 5 && p.conv != 6 else stopped)) 0x0204,
     must (!isTest key || stopped || (q.kind == 0 && p.conv == 1)) 0x0204,
     must (q.kind != 2 || key != K.swBench || v == 0 || stopped) 0x0204]

/-- The CVC's own conditions (step 9; 02 R45, 04 R90, 05 R131, 10 R284, R288, 11 R318, 13 R376). -/
def Plant.cvcCond (p : Plant) (key v : Nat) : Nat :=
  let inj := p.c K.loopInjState
  firstStatus
    [must (key != K.convRequest || v == 0 || decide (5 < v) || !p.requestRefused v) 0x0204,
     must (key != K.loopInjCtrl || v != 1 || p.injCheck != 0x0204) 0x0204,
     must (!(decide (K.loopInjArms ≤ key ∧ key ≤ K.loopInjLength) || key == K.loopInjCapture) || (inj != 1 && inj != 2)) 0x0204,
     must (!(decide (K.vatSlotCtrl ≤ key ∧ key < K.vatSlotTag + 8)) || decide (p.c K.vatSel < 4032)) 0x0204,
     must (!acqConfig key || !p.acqOn) 0x0204,
     must (key != K.timeUtcOffset || !p.cvc.ptp.utcLocked) 0x0204,
     must (key != K.timeCalApply || p.c K.timeSource != 1 || !p.ptpSlave) 0x0204,
     must (key != K.rindImageArm || p.c K.rindImageStatus == 1) 0x0204,
     must (key != K.rindImageCommit || p.c K.rindImageStatus == 2) 0x0204]

/-- A cell's own conditions (step 9; 06 R160, R161, 07 R184). -/
def Plant.cellCond (p : Plant) (c : CellId) (key v : Nat) : Nat :=
  let q := Part.cell c
  let bench := p.getN q K.swBench
  let st := p.getN q K.swState
  firstStatus
    [must (key != K.swBench || v == 0 || decide (p.cellUv c < 50000000)) 0x0204,
     must (!(key == K.pwmPrdWr || key == K.pwmCmpWr) || bench == 1) 0x0204,
     must (key != K.bypUnfire || !bitOf (p.getN q K.bypStatus) 0) 0x0204,
     must (key != K.pwrRequest || ((st == 0 || st == 5) && bench == 0)) 0x0204]

/-- A part's own conditions (step 9; 16 R439, R441). -/
def Plant.ownCond (p : Plant) (q : Part) (key v : Nat) : Nat :=
  let slot := key - K.bootKeyProg
  firstStatus
    [must (!(key == K.bootKeyProg || key == K.bootKeyProg + 1) || !bitOf (p.getN q K.bootKeys) (2 + slot)) 0x0204,
     must (key != K.bootKeyRevoke || decide (3 < v) || p.revokeOk q v) 0x0204,
     must (key != K.storeSave || !(p.node q).power.storing) 0x0204,
     match q with
     | .cvc => p.cvcCond key v
     | .hub _ => 0
     | .cell c => p.cellCond c key v]

/-! ### Steps 11 to 13 -/

/-- A value that an object's meaning refuses beside its range (step 11; 03 R76, 05 R113, R114, R131, 08 R195, 12 R355, 13 R359, R371,
16 R439). -/
def valueOk (kind key v len : Nat) : Bool :=
  let i := key / 256
  if key = K.harpCellSel then cellIdOk v
  else if key = K.vatSlotCtrl then bits v 28 28 == 0 && bits v 23 20 == 0
  else if K.vatSlotTag ≤ key ∧ key < K.vatSlotTag + 8 then bits v 19 16 == 0 && tagOk v
  else if key = K.vatMove then bits v 19 16 != 0 && decide (bits v 11 0 < 4032)
  else if key = K.vatRearm ∨ key = K.vatFlagsClear then decide (v < 4032)
  else if i = 0x4810 then acqSrcOk v
  else if i = 0x4820 then acqCondOk v
  else if i = 0x4010 then decide (v ≤ sevMax kind)
  else if key = K.faultAck then v == 0xFFFF || decide (v < sourceCount kind)
  else if kind = 2 ∧ 0x3800 ≤ i ∧ i < 0x3840 ∧ key % 256 = 1 then v != 0
  else if key = K.bootKeyProg ∨ key = K.bootKeyProg + 1 then len == 32
  else true

/-- The clear token of a Cave (step 12; 12 R351): checked by the CVC for every part. -/
def Plant.tokenStatus (p : Plant) (key v : Nat) : Nat :=
  must (key != K.caveClear || (p.c K.rindCaveToken != 0 && v == p.c K.rindCaveToken)) 0x0205

/-- A scan of a check unit stays in one region of its part (11 R319). -/
def scanOk (kind start len : Nat) : Bool :=
  let fits := fun (base size : Nat) => decide (base ≤ start ∧ start + len ≤ base + size)
  if kind = 0 then
    (decide (start < 0x100000) && fits (start / 0x10000 * 0x10000) 0x10000) || fits 0x10000000 0x800000 ||
      fits 0x40000000 0x10000 || fits 0x41000000 0x10000
  else fits 0 0x80000 || fits 0x10000000 0x10000

/-- The descriptor of the slot shown, with a value written into it (05 R113, R131). -/
def Plant.slotWith (p : Plant) (key v : Nat) : List Nat := (p.descOf (p.c K.vatSel)).set (key - K.vatSlotCtrl) v

/-- A slot table entry of the bank in force (09 R251). -/
def Plant.entryInForce (p : Plant) (q : Part) (key : Nat) : Bool :=
  let sub := key % 256
  decide (0x3A10 ≤ key / 256 ∧ key / 256 ≤ 0x3A13) && decide (1 ≤ sub ∧ sub ≤ 0x20) &&
    (if sub ≤ 0x10 then 0 else 1) == p.getN q (key / 256 * 256 + 0x21)

/-- Consistency of a written value with other objects (step 13; 03 R73, 04 R88, R90, R99, 05 R113, 09 R251, 10 R290, 11 R319, 13 R363,
R373, R376). -/
def Plant.consistStatus (p : Plant) (q : Part) (key v : Nat) : Nat :=
  let i := key / 256
  if p.entryInForce q key then 0x0701
  else if 0x3A10 ≤ i ∧ i ≤ 0x3A13 ∧ key % 256 = 0x22 then p.switchStatus q (i - 0x3A10) v
  else if key = K.timeUnlockThr then must (decide (p.getN q K.timeLockThr < v)) 0x0303
  else if 0x5A00 ≤ i ∧ i ≤ 0x5A03 ∧ key % 256 = 2 then must (scanOk q.kind v (p.getN q (key + 1))) 0x0303
  else if 0x5A00 ≤ i ∧ i ≤ 0x5A03 ∧ key % 256 = 3 then must (scanOk q.kind (p.getN q (key - 1)) v) 0x0303
  else match q with
    | .cvc =>
      if key = K.harpApplyA ∨ key = K.harpApplyB then must (p.harpGroupOk (key - K.harpApplyA)) 0x0303
      else if K.loopApply ≤ key ∧ key < K.loopApply + 12 then must (p.loopGroupOk (key - K.loopApply)) 0x0303
      else if key = K.loopInjCtrl ∧ v = 1 then p.injCheck
      else if K.vatSlotCtrl ≤ key ∧ key < K.vatSlotTag + 8 then must (descOk (p.slotWith key v)) 0x0303
      else if key = K.acqCtrl ∧ v = 1 then p.acqArmCheck
      else if key = K.acqPre then must (decide (v < p.c K.acqDepth)) 0x0303
      else if key = K.acqObjAt then must (decide (v + 100 ≤ p.tc)) 0x0303
      else if K.acqCondB ≤ key ∧ key < K.acqCondB + 16 then
        let w := p.c (K.acqCond + (key - K.acqCondB))
        must (!(bits w 23 20 == 4 || bits w 23 20 == 5) || decide (p.get .cvc (K.acqCondA + (key - K.acqCondB)) ≤ signed 32 v)) 0x0303
      else if key = K.loopInjSeed then must (v % 2 ^ p.c K.loopInjOrder != 0) 0x0303
      else 0
    | .hub _ => 0
    | .cell c => if key = K.capCtrl ∧ v = 1 then p.capArmCheck c else 0

/-- The number that a value's bytes carry, without sign. -/
def rawVal (bs : List Nat) : Nat := ofBe (bs.take 8)

/-- The steps that a part makes on a value itself: 9 for its own conditions, 11 and 13 (15 R404). -/
def Plant.partStatus (p : Plant) (q : Part) (r : ObjRow) (key : Nat) (bs : List Nat) : Nat :=
  let v := rawVal bs
  firstStatus
    [rangeStatus r bs, must (valueOk q.kind key v bs.length) 0x0302, p.consistStatus q key v]

/-- Steps 6, 7 and 9 to 13 of a write of the CVC's own object (15 R404). -/
def Plant.writeStatus (p : Plant) (key ty : Nat) (bs : List Nat) : Nat :=
  match rowOf 0 key with
  | none => writeAccess 0 key
  | some r =>
    let v := rawVal bs
    firstStatus
      [writeAccess 0 key, p.stateStatus .cvc key r v, p.ownCond .cvc key v, typeStatus r ty bs, rangeStatus r bs,
       must (valueOk 0 key v bs.length) 0x0302, p.tokenStatus key v, p.consistStatus .cvc key v]

/-- The steps 6 to 12 that the CVC makes of a write of a hub's or cell's object (15 R404). -/
def Plant.proxyStatus (p : Plant) (q : Part) (key ty : Nat) (bs : List Nat) : Nat :=
  match rowOf q.kind key with
  | none => writeAccess q.kind key
  | some r =>
    let v := rawVal bs
    firstStatus
      [writeAccess q.kind key, p.stateStatus q key r v, typeStatus r ty bs, p.tokenStatus key v]

/-- The steps that a hub or cell makes of a service WRITE: its own conditions of step 9, 11 and 13; an object it does not hold, one that
is not written, and a value of another length are refused as the CVC would (15 R404). In recovery it takes firmware alone
(16 R447). -/
def Plant.nodeStatus (p : Plant) (q : Part) (key : Nat) (bs : List Nat) : Nat :=
  match rowOf q.kind key with
  | none => writeAccess q.kind key
  | some r =>
    firstStatus
      [writeAccess q.kind key, must (p.getN q K.bootStatus != 2 || key == K.bootFwLoad) 0x0204, p.ownCond q key (rawVal bs),
       typeStatus r r.ty.code bs, p.partStatus q r key bs]

/-! ### What an accepted write does -/

/-- A new polarity of the filtered inputs: the levels shown turn with it (06 R152). -/
def Plant.setPol (p : Plant) (c : CellId) (v : Nat) : Plant :=
  let q := Part.cell c
  let old := p.getN q K.diState
  let new := old ^^^ (p.getN q K.diPol ^^^ v)
  let p := (p.put q K.diPol v).put q K.diState new
  (rangeFrom 0 8).foldl (fun p n =>
    if bitOf new n && !bitOf old n && bitOf (p.getN q K.diFunc) n then p.raise q 25 n else p) p

/-- Terms of the reserve check of a cell (07 R173). -/
def reserveTerm (key : Nat) : Bool :=
  key == K.nrgReserve || key == K.bypRetries || key == K.nrgCostFire || key == K.nrgPPass || key == K.bypConfirm

/-- A written value that stays readable comes into effect, with what follows from it: lanes and their tests (08 R195, R202), the
window of the slot shown (05 R131), bench mode (06 R161), the reserve check (07 R173), the inputs' polarity (06 R152). -/
def Plant.putWritten (p : Plant) (q : Part) (key : Nat) (v : Int) : Plant :=
  let i := key / 256
  let lane := i - 0x3800
  if 0x3800 ≤ i ∧ i < 0x3840 then
    let old := p.get q (laneKey lane 0x0C)
    let p := p.put q key v
    if key % 256 = 1 then p.laneEnable q lane v.toNat
    else if isTest key then (p.checkerChanged q lane old).testChanged q lane
    else p
  else if 0x5A00 ≤ i ∧ i ≤ 0x5A03 then (p.put q key v).unitSet q (i - 0x5A00)
  else match q with
    | .cvc =>
      if K.vatSlotCtrl ≤ key ∧ key < K.vatSlotTag + 8 then
        let d := p.slotWith key v.toNat
        p.onSlot (p.c K.vatSel) (fun x => { x with newDesc := some d })
      else if key = K.stationPair then (p.put q key v).pairChanged
      else if key = K.timeSource then (p.put q key v).showTimeMode
      else p.put q key v
    | .hub _ => p.put q key v
    | .cell c =>
      if key = K.swBench ∧ v = 0 then p.leaveBench c
      else if key = K.diPol then p.setPol c v.toNat
      else if key = K.bypStatPol then (p.put q key v).readStat c
      else if reserveTerm key then (p.put q key v).checkReserve c
      else p.put q key v

/-- Clears bits of a sticky word. -/
def Plant.clearBits (p : Plant) (key m : Nat) : Plant := p.cPut key ((p.c key &&& (0xFFFF ^^^ (m % 65536)) : Nat) : Int)

/-- A write-only object of the CVC acts: its status, 0 when it did. -/
def Plant.actCvc (p : Plant) (rid key v : Nat) : Nat × Plant :=
  if key = K.convRequest then (0, p.takeRequest v)
  else if key = K.timeCalApply then (0, p.acceptApply 0x1202 1)
  else if key = K.harpApplyA ∨ key = K.harpApplyB then (0, p.acceptApply (0x2410 + (key - K.harpApplyA)) 1)
  else if K.loopApply ≤ key ∧ key < K.loopApply + 12 then (0, p.acceptApply (0x2500 + (key - K.loopApply)) v)
  else if K.harpFlagsClear ≤ key ∧ key < K.harpFlagsClear + 12 then (0, p.clearBits (K.harpFlags + (key - K.harpFlagsClear)) v)
  else if K.loopFlagsClear ≤ key ∧ key < K.loopFlagsClear + 12 then (0, p.clearBits (K.loopFlags + (key - K.loopFlagsClear)) v)
  else if key = K.loopInjCtrl then (0, p.injCtrl v)
  else if key = K.vatMove then (0, p.vatMove v)
  else if key = K.vatRearm then (0, p.vatRearm v)
  else if key = K.vatFlagsClear then (0, p.vatFlagsClear v)
  else if key = K.acqCtrl then (0, p.acqCtrl v)
  else if key = K.faultEmergClear then (0, p.emergClear)
  else if key = K.rindImageArm then (0, p.imageArmed rid v)
  else if key = K.rindImageCommit then p.imageCommitted rid v
  else (0, p)

/-- A write-only object of a cell acts. -/
def Plant.actCell (p : Plant) (c : CellId) (key v : Nat) : Plant :=
  if key = K.swFbClear then p.fbClear c v
  else if key = K.pwmPrdWr then p.writePrd c v
  else if key = K.pwmCmpWr then p.writeCmp c v
  else if key = K.tripClear then p.tripClear c v
  else if key = K.bypFire then p.fire c 2
  else if key = K.bypUnfire then p.unfire c
  else if key = K.pwrRequest then p.askPower c v
  else if key = K.capCtrl then p.capCtrl c v
  else p

/-- store.save: a cell's store sequence is granted by its ledger or refused (16 R441, 07 R177). -/
def Plant.storeSave (p : Plant) (q : Part) : Nat × Plant :=
  match q with
  | .cell c =>
    let (ok, p) := p.request c 5
    if ok then (0, p.storeStart q) else (0x0204, p.put q K.storeStatus 4)
  | _ => (0, p.storeStart q)

/-- A write-only object acts: its status, 0 when it did. A soft reset begins once its response is on its way (16 R431). -/
def Plant.act (p : Plant) (q : Part) (rid key v : Nat) : Nat × Plant :=
  let i := key / 256
  if key = K.rstSoft then (0, p.onPower q (fun w => { w with softDue := true }))
  else if key = K.storeSave then p.storeSave q
  else if key = K.storeRestore then (0, p.onPower q (fun w => { w with restore := true }))
  else if key = K.bootKeyRevoke then (0, p.revokeKey q v)
  else if key = K.faultAck then (0, p.ack q v)
  else if key = K.caveClear then (0, p.caveClear q (if q.kind = 0 then rid else 0))
  else if 0x3800 ≤ i ∧ i < 0x3840 then (0, p.prbsClear q (i - 0x3800))
  else if 0x3A10 ≤ i ∧ i ≤ 0x3A13 then (0, p.switchAt q (i - 0x3A10) v)
  else match q with
    | .cvc => p.actCvc rid key v
    | .hub _ => (0, p)
    | .cell c => (0, p.actCell c key v)

/-- The status of an entry of a dictionary image at its part (16 R444): every step of 15 R404 but ownership. -/
def Plant.entryStatus (p : Plant) (q : Part) (e : Nat × List Nat) : Nat :=
  match rowOf q.kind e.1 with
  | none => writeAccess q.kind e.1
  | some r =>
    firstStatus
      [writeAccess q.kind e.1, p.stateStatus q e.1 r (rawVal e.2), p.ownCond q e.1 (rawVal e.2), typeStatus r r.ty.code e.2,
       p.tokenStatus e.1 (rawVal e.2), p.partStatus q r e.1 e.2]

/-- The first failing entry of a dictionary image; an image that is not made of whole entries has none to check, and its verification
fails. -/
def Plant.imageEntries (p : Plant) (q : Part) (bs : List Nat) : Nat :=
  match bodyEntries bs.length (imageBody bs) with
  | some es => firstStatus (es.map (p.entryStatus q))
  | none => 0

/-- A whole DOMAIN or STRING value is taken: its status, 0 when it is. A failing entry of a dictionary image answers 0x0405 with the
entry's status above it (16 R444). -/
def Plant.takeBytes (p : Plant) (q : Part) (key : Nat) (bs : List Nat) : Nat × Plant :=
  if key = K.bootKeyProg ∨ key = K.bootKeyProg + 1 then (0, p.programKey q (key - K.bootKeyProg) bs)
  else if key = K.storeImage then
    let bad := p.imageEntries q bs
    if bad = 0 then (0, p.putBlob q key bs) else (0x0405 + 65536 * bad, p)
  else if q = .cvc ∧ key = K.engPackage then
    (0, p.onCvc (fun c => { c with package := { c.package with staged := bs, verified := false } }))
  else if q = .cvc ∧ key = K.rindImageStage then (0, p.imageStaged bs)
  else (0, p.putBlob q key bs)

/-- What an accepted write does, by the object's access class (00_scope.md R6, R7): a status that only the act itself can give, 0 when it
is done. rid is the writer. -/
def Plant.applyWrite (p : Plant) (q : Part) (rid key : Nat) (bs : List Nat) : Nat × Plant :=
  match rowOf q.kind key with
  | none => (0x0102, p)
  | some r =>
    if r.isBlob then p.takeBytes q key bs
    else if r.acc = .wo then p.act q rid key (rawVal bs)
    else if r.acc = .rwc then (0, p.put q (key + 0x40) (decodeVal r.ty bs))
    else (0, p.putWritten q key (decodeVal r.ty bs))

/-- The entries of a dictionary image are written in their order, and the store sequence follows (16 R444). -/
def Plant.writeImage (p : Plant) (q : Part) : Plant :=
  let image := p.blob q K.storeImage
  let es := (bodyEntries image.length (imageBody image)).getD []
  let p := es.foldl (fun p e => (p.applyWrite q 0 e.1 e.2).2) (p.putBlob q K.storeImage [])
  if (p.node q).power.storing then p else (p.storeSave q).2

/-- A dictionary image that waits is verified or not; the CVC writes one at its next boundary, or at once where no cycle runs
(16 R439, R444). -/
def Plant.dictVerified (p : Plant) (q : Part) (ok : Bool) : Plant :=
  let image := p.blob q K.storeImage
  if image = [] ∨ (p.node q).power.imageDue then p
  else if p.imageAccepted q image ok && headerOk image (partNumber q.kind) 4 &&
      (bodyEntries image.length (imageBody image)).isSome then
    let p := p.onPower q (fun w => { w with sigDict := some (keySlot image) })
    if q.kind = 0 ∧ (p.node .cvc).sched.valid then p.onPower q (fun w => { w with imageDue := true }) else p.writeImage q
  else (p.verifyFailed q).putBlob q K.storeImage []

end Sys2Proof.Machine
end

