-- ==== Sys2Proof/Machine/Gdp.lean ====
section
/-! DEFINITION. The parts of the GDP server: messages, sessions, responses, descriptors, blocks, batches, and the CVC's own objects
(15_dictionary_and_hosts.md R402–R419). -/

namespace Sys2Proof.Machine

/-- A GDP request as R408 lays it out, without its header. -/
inductive Msg where
  | read (key off maxLen : Nat)
  | desc (key : Nat)
  | write (batched : Bool) (key ty off : Nat) (fin : Bool) (val : List Nat)
  | block (key count off maxLen : Nat)
  | batchOpen
  | batchCommit (bseq : Nat)
  | batchAbort (bseq : Nat)
  | claim (prio : Nat)
  | renew
  | yield (succ : Nat)
  | subscribe (key mode period : Nat)
  deriving DecidableEq, Repr

/-- The message code of R408. -/
def msgCode : Msg → Nat
  | .read .. => 1
  | .desc .. => 1
  | .write .. => 2
  | .block .. => 3
  | .batchOpen => 4
  | .batchCommit .. => 5
  | .batchAbort .. => 6
  | .claim .. => 7
  | .renew => 8
  | .yield .. => 9
  | .subscribe .. => 10

/-- Messages served with rights 0 (R416). -/
def msgReads (m : Msg) : Bool :=
  let c := msgCode m
  c == 1 || c == 3 || c == 10

/-- Messages a hub or cell may be sent (R400). -/
def msgAtNode (m : Msg) : Bool := decide (msgCode m ≤ 3)

/-! ### Ports (R405, R406) -/

/-- The key of an object of a host port (R427). -/
def hpKey (port sub : Nat) : Nat := (0x1100 + port) * 256 + sub

/-- A host port. -/
def Plant.portSt (p : Plant) (n : Nat) : PortSt := Tab.get (fun _ => default) p.cvc.ports n

/-- Changes a host port. -/
def Plant.onPortSt (p : Plant) (n : Nat) (f : PortSt → PortSt) : Plant :=
  p.onCvc (fun c => { c with ports := Tab.upd (fun _ => default) c.ports n f })

/-- A port is enabled and its link is up. -/
def Plant.portUp (p : Plant) (n : Nat) : Bool := p.up .cvc && p.c (hpKey n 1) == 1 && p.c (hpKey n 8) == 1

/-- GDP is served on a port: it has an address, and in recovery it is port 4 (R406, 16 R447). -/
def Plant.portServes (p : Plant) (n : Nat) : Bool :=
  p.portUp n && p.c (hpKey n 3) != 0 && (p.c K.bootStatus != 2 || n == 4)

/-- A GDP message goes out on a port; the port keeps the latest 32. -/
def Plant.sendMsg (p : Plant) (port : Nat) (r : Resp) : Plant :=
  (p.onPortSt port (fun x => { x with sent := (r :: x.sent).take 32 })).bump .cvc (hpKey port 0x0D) 1

/-! ### Sessions (R410–R412) -/

/-- The header fields that a response echoes, with the port (R407). -/
structure Echo where
  port : Nat
  seq : Nat
  rid : Nat
  inc : Nat
  node : Nat
  msg : Nat
  deriving DecidableEq, Repr

/-- What a response to a request echoes. -/
def echoOf (r : Req) (m : Msg) : Echo :=
  { port := r.port.val, seq := r.seq.toNat, rid := r.rid.toNat, inc := r.inc.toNat, node := r.node.toNat, msg := msgCode m }

/-- A response that is not cached: 0x0601, 0x0602, and 0x0209, which no session holds (R410, R411). -/
def Plant.answerBare (p : Plant) (e : Echo) (status : Nat) : Plant :=
  p.sendMsg e.port {
                     msg := e.msg, seq := e.seq, rid := e.rid, inc := e.inc, node := e.node, status := status, dup := false,
                     more := false, body := [] }

/-- A response, which the session caches; a session of another incarnation does not (R411, R412). -/
def Plant.answer (p : Plant) (e : Echo) (status : Nat) (more : Bool) (body : List Nat) : Plant :=
  let x : Resp := {
                    msg := e.msg, seq := e.seq, rid := e.rid, inc := e.inc, node := e.node, status := status, dup := false,
                    more := more, body := body }
  let p := p.onSession e.rid (fun s => if s.inc = e.inc then
    { s with cache := (x :: s.cache).take 16, busy := s.busy.erase e.seq } else s)
  p.sendMsg e.port x

/-- The request is carried on, and its answer comes later (R411). -/
def Plant.markBusy (p : Plant) (e : Echo) : Plant := p.onSession e.rid (fun s => { s with busy := e.seq :: s.busy })

/-- A session as a new requester finds it. -/
def freshSession (rid inc : Nat) : Session :=
  { rid := rid, inc := inc, begun := false, hi := 0, cache := [], busy := [], notes := 0, lostBatch := false }

/-- The session of a requester comes first, the most recently used. -/
def Plant.touch (p : Plant) (rid : Nat) : Plant :=
  p.onGdp (fun g =>
    let mine := g.sessions.filter (fun x => x.rid == rid)
    { g with sessions := mine ++ g.sessions.filter (fun x => x.rid != rid) })

/-- Ends the subscriptions and partial DOMAIN values of a session. -/
def Plant.endSubs (p : Plant) (rid : Nat) : Plant :=
  p.onGdp (fun g => { g with subs := g.subs.filter (fun x => x.rid != rid), partials := g.partials.filter (fun x => x.rid != rid) })

/-- A requester has restarted (R412). Its own open batch is discarded. -/
def Plant.restartSession (p : Plant) (rid inc : Nat) : Plant :=
  let p := (p.endSubs rid).onSession rid (fun _ => freshSession rid inc)
  if p.owner = rid then p.discardBatch 1 else p

/-- The least recently used session that holds neither ownership nor a batch (R410): the last such in order of use. -/
def Plant.reclaimable (p : Plant) : Option Session :=
  (p.cvc.gdp.sessions.filter (fun x => x.rid != p.owner && !(p.cvc.gdp.committing && x.rid == p.cvc.gdp.commitRid))).getLast?

/-- The session of a request: the requester's, restarted where INC differs, or one it takes; none when no session is free (R410,
R412). -/
def Plant.takeSession (p : Plant) (rid inc : Nat) : Option Plant :=
  match p.session rid with
  | some x => some ((if x.inc = inc then p else p.restartSession rid inc).touch rid)
  | none =>
    let add := fun (p : Plant) => p.onGdp (fun g => { g with sessions := freshSession rid inc :: g.sessions })
    if p.cvc.gdp.sessions.length < 16 then some (add p)
    else match p.reclaimable with
      | none => none
      | some old =>
        some (add ((p.endSubs old.rid).onGdp (fun g => { g with sessions := g.sessions.filter (fun x => x.rid != old.rid) })))

/-- How the SEQ of a request stands to its session (R411). -/
inductive SeqCase where
  /-- its response is cached -/
  | cached (r : Resp)
  /-- it is still being carried -/
  | carried
  /-- it is new -/
  | fresh
  /-- anything else -/
  | stale
  deriving DecidableEq, Repr

/-- The case of a SEQ. -/
def Session.seqCase (x : Session) (seq : Nat) : SeqCase :=
  match x.cache.find? (fun r => r.seq == seq) with
  | some r => .cached r
  | none =>
    let d := (seq + 2 ^ 32 - x.hi) % 2 ^ 32
    if x.busy.contains seq then .carried
    else if !x.begun ∨ (1 ≤ d ∧ d ≤ 2 ^ 31 - 1) then .fresh
    else .stale

/-- A malformed request: counted, answered and reported (R422). -/
def Plant.malformed (p : Plant) (e : Echo) : Plant :=
  ((p.bump .cvc K.gdpMalformed 1).answerBare e 0x0601).raise .cvc 3 0

/-! ### Descriptors (R403) -/

/-- The bounds of a range as a descriptor shows them. -/
def rangeBounds : Range → Int × Int
  | .rng lo hi => (lo, hi)
  | .mult lo hi _ => (lo, hi)
  | .orVal v lo hi => (min v lo, max v hi)
  | .mask m => (0, m)
  | .measSrc _ => (0, 0xFFFF)
  | .slotEntry => (0, 2 ^ 64 - 1)

/-- The apply object of a class RWC object, as APPLY names it. -/
def applyField (key : Nat) : Nat :=
  let i := key / 256
  let o := if i = 0x1202 then K.timeCalApply
    else if i = 0x2410 ∨ i = 0x2411 then K.harpApplyA + (i - 0x2410)
    else K.loopApply + (i - 0x2500)
  o / 256 * 65536 + o % 256 * 256

/-- The descriptor of an object of a part of a kind (R403). -/
def descBytes (key : Nat) (r : ObjRow) : List Nat :=
  let b := if r.isBlob then (0, 0) else rangeBounds r.range
  let i64 := fun (x : Int) => beBytes 8 (unsigned 64 x)
  [r.ty.code, r.acc.code, r.pers.code, 0] ++ beBytes 2 (min r.maxLen 0xFFFF) ++ [0, 0] ++ i64 b.1 ++ i64 b.2 ++
    beBytes 4 (if r.acc = .rwc then applyField key else 0)

/-! ### Reads (R402, R408, R409) -/

/-- INDEX and SUB of a body. -/
def keyBytes (key : Nat) : List Nat := beBytes 3 key

/-- The body of a READ response. -/
def readBody (key ty off : Nat) (val : List Nat) : List Nat :=
  keyBytes key ++ [ty] ++ beBytes 4 off ++ beBytes 2 val.length ++ [0, 0] ++ val

/-- Bytes that a READ asks for. -/
def readMax (maxLen : Nat) : Nat := if maxLen = 0 then 1408 else min maxLen 1408

/-- An entry of a block of successive subindices (R409). -/
def blockItem (key ty status : Nat) (val : List Nat) : List Nat :=
  [key % 256, ty] ++ beBytes 2 status ++ beBytes 2 val.length ++ val

/-- The entry of one subindex of the CVC; a DOMAIN gives its first 240 bytes. -/
def State.ownItem (s : State) (key : Nat) : List Nat × State :=
  match rowOf 0 key with
  | none => (blockItem key 0 0x0102 [], s)
  | some r =>
    if r.acc = .wo then (blockItem key r.ty.code 0x0202 [], s)
    else if r.ty = .domain then
      let x := s.readDomain .cvc key 0 240
      (blockItem key r.ty.code 0 x.1.1, x.2)
    else
      let x := s.readValue .cvc r key
      (blockItem key r.ty.code 0 x.1, x.2)

/-- Entries up to a length; the flag says that one would pass it. -/
def State.ownItems (s : State) : List Nat → Nat → (List Nat × Bool) × State
  | [], _ => (([], false), s)
  | k :: rest, left =>
    let x := s.ownItem k
    if left < x.1.length then (([], true), s)
    else
      let y := x.2.ownItems rest (left - x.1.length)
      ((x.1 ++ y.1.1, y.1.2), y.2)

/-- Successive records of cave.rec up to a length, each after its length (R409, 12 R352). The first argument bounds their number. -/
def Plant.caveRun (p : Plant) : Nat → Nat → (List Nat × Bool) × Plant
  | 0, _ => (([], false), p)
  | n + 1, left =>
    let x := p.caveRead .cvc
    if x.1 = [] then (([], false), p)
    else if left < 2 + x.1.length then (([], true), p)
    else
      let y := x.2.caveRun n (left - 2 - x.1.length)
      ((beBytes 2 x.1.length ++ x.1 ++ y.1.1, y.1.2), y.2)

/-- The subindices of a block: COUNT of them from SUB, none past 0xFF. -/
def blockKeys (key count : Nat) : List Nat := rangeFrom key (min count (256 - key % 256))

/-- READ of the CVC's own object (R404, R408). -/
def State.readOwn (s : State) (e : Echo) (key off maxLen : Nat) : State :=
  let bad := readStatus 0 key
  match rowOf 0 key with
  | none => { s with plant := s.plant.answer e bad false [] }
  | some r =>
    if bad ≠ 0 then { s with plant := s.plant.answer e bad false [] }
    else if r.ty = .domain then
      let x := s.readDomain .cvc key off (min 240 (readMax maxLen))
      { x.2 with plant := x.2.plant.answer e 0 x.1.2 (readBody key r.ty.code off x.1.1) }
    else
      let x := s.readValue .cvc r key
      { x.2 with plant := x.2.plant.answer e 0 false (readBody key r.ty.code off x.1) }

/-- READ_BLOCK of the CVC's own objects (R409). -/
def State.blockOwn (s : State) (e : Echo) (key count off maxLen : Nat) : State :=
  let n := min maxLen 1408
  if !hasIndex 0 (key / 256) then { s with plant := s.plant.answer e 0x0101 false [] }
  else if key = K.caveRec then
    let x := s.plant.caveRun 256 n
    { s with plant := x.2.answer e 0 x.1.2 x.1.1 }
  else match rowOf 0 key with
    | some r =>
      if r.ty = .domain then
        if r.acc = .wo then { s with plant := s.plant.answer e 0x0202 false [] }
        else
          let x := s.readDomain .cvc key off n
          { x.2 with plant := x.2.plant.answer e 0 x.1.2 (readBody key r.ty.code off x.1.1) }
      else
        let x := s.ownItems (blockKeys key count) n
        { x.2 with plant := x.2.plant.answer e 0 x.1.2 x.1.1 }
    | none =>
      let x := s.ownItems (blockKeys key count) n
      { x.2 with plant := x.2.plant.answer e 0 x.1.2 x.1.1 }

/-! ### Writes (R402, R404, R417) -/

/-- The body of a WRITE response: a batch entry, or 0. -/
def writeBody (key entry : Nat) : List Nat := keyBytes key ++ [entry]

/-- A segment of a DOMAIN value, or the whole value at FIN: the status it is answered with, 0 when it is taken, and the value once it
is whole (R402). -/
def Plant.takeSegment (p : Plant) (node key rid maxLen off : Nat) (fin : Bool) (val : List Nat) : Nat × Option (List Nat) × Plant :=
  let mine := fun (x : Partial) => x.node == node && x.key == key && x.rid == rid
  let drop := fun (p : Plant) => p.onGdp (fun g => { g with partials := g.partials.filter (fun x => !mine x) })
  let old := p.cvc.gdp.partials.find? mine
  let held : Option (List Nat) := if off = 0 then some [] else match old with
    | some x => if x.bytes.length = off then some x.bytes else none
    | none => none
  match held with
  | none => (0x0304, none, p)
  | some bs =>
    let all := bs ++ val
    if maxLen < all.length then (0x0304, none, drop p)
    else if fin then (0, some all, drop p)
    else
      let x : Partial := { node := node, key := key, rid := rid, bytes := all, tick := p.tick }
      (0, none, (drop p).onGdp (fun g => { g with partials := x :: g.partials }))

/-- What a failing act of a write adds to its response: the status of the failing entry of a dictionary image (16 R444). -/
def actBody (key st : Nat) : List Nat := if st / 65536 = 0 then [] else writeBody key 0 ++ beBytes 2 (st / 65536)

/-- An accepted value of the CVC's own object acts, and the answer goes out. -/
def Plant.writeNow (p : Plant) (e : Echo) (key : Nat) (bs : List Nat) : Plant :=
  let x := p.applyWrite .cvc e.rid key bs
  x.2.answer e (x.1 % 65536) false (if x.1 = 0 then writeBody key 0 else actBody key x.1)

/-- A direct WRITE of the CVC's own object, ownership given (R402, R404). -/
def Plant.writeOwn (p : Plant) (e : Echo) (key ty off : Nat) (fin : Bool) (val : List Nat) : Plant :=
  match rowOf 0 key with
  | none => p.answer e (writeAccess 0 key) false []
  | some r =>
    if r.ty = .domain then
      let bad := firstStatus [p.stateStatus .cvc key r 0, p.ownCond .cvc key 0, must (ty == r.ty.code) 0x0301]
      if bad ≠ 0 then p.answer e bad false []
      else
        let (st, whole, p) := p.takeSegment 0 key e.rid r.maxLen off fin val
        match whole with
        | none => p.answer e st false (if st = 0 then writeBody key 0 else [])
        | some bs =>
          let bad := p.writeStatus key ty bs
          if bad ≠ 0 then p.answer e bad false [] else p.writeNow e key bs
    else
      let bad := p.writeStatus key ty val
      if bad ≠ 0 then p.answer e bad false [] else p.writeNow e key val

/-- The bytes of values in the open batch. -/
def Plant.batchBytes (p : Plant) : Nat := ((p.cvc.gdp.batch.map (fun x => x.val.length))).sum

/-- A WRITE with B set, ownership given (R417, R419): the checks of R404, then those of a batch. -/
def Plant.writeBatched (p : Plant) (e : Echo) (key ty : Nat) (val : List Nat) : Plant :=
  let q := (partOf e.node).getD .cvc
  let checks := if e.node = 0 then p.writeStatus key ty val else p.proxyStatus q key ty val
  let domain := match rowOf q.kind key with | some r => r.ty == .domain | none => false
  let lost := match p.session e.rid with | some x => x.lostBatch | none => false
  let n := p.cvc.gdp.batch.length
  let bad := firstStatus
    [checks, must (!lost) 0x0404, must p.batchOpen 0x0401, must (e.node == 0 && !domain) 0x0406,
     must (decide (n < 64) && decide (p.batchBytes + val.length ≤ 4096)) 0x0403]
  let p := if bad = 0x0404 then p.onSession e.rid (fun x => { x with lostBatch := false }) else p
  if bad ≠ 0 then p.answer e bad false []
  else
    let x : BatchEntry := { key := key, ty := ty, val := val }
    (p.onGdp (fun g => { g with batch := g.batch ++ [x] })).answer e 0 false (writeBody key (n + 1))

/-! ### Batches (R417–R419) -/

/-- The status that BATCH_COMMIT and BATCH_ABORT meet first (R418, R419). -/
def Plant.batchStatus (p : Plant) (rid bseq : Nat) : Nat :=
  let lost := match p.session rid with | some x => x.lostBatch | none => false
  firstStatus [must (!lost) 0x0404, must (p.batchOpen && bseq == p.c K.gdpBatchSeq) 0x0401]

/-- A 0x0404 is answered once (R419). -/
def Plant.noteLost (p : Plant) (rid st : Nat) : Plant :=
  if st = 0x0404 then p.onSession rid (fun x => { x with lostBatch := false }) else p

/-- The first entry of the open batch that fails, by its number, and its status (R418). -/
def Plant.batchFailure (p : Plant) : Nat × Nat :=
  let l := p.cvc.gdp.batch.map (fun x => p.writeStatus x.key x.ty x.val)
  match l.zipIdx.find? (fun x => x.1 != 0) with
  | some x => (x.2 + 1, x.1)
  | none => (0, 0)

/-- The body of a BATCH_COMMIT response. -/
def commitBody (bseq entries fail status : Nat) : List Nat := beBytes 4 bseq ++ [entries, fail] ++ beBytes 2 status

/-- The entries of the batch are written in their order, the lock is released and the response is sent (R418). -/
def Plant.writeBatch (p : Plant) : Plant :=
  let g := p.cvc.gdp
  let n := g.batch.length
  let seq := p.c K.gdpBatchSeq
  let p := g.batch.foldl (fun p x => (p.applyWrite .cvc g.commitRid x.key x.val).2) p
  p.dropBatch.answer { port := g.commitPort, seq := g.commitSeq, rid := g.commitRid, inc := g.commitInc, node := 0, msg := 5 } 0
    false (commitBody seq n 0 0)

/-- BATCH_COMMIT, ownership given: every entry is checked again; the entries are written after the next boundary, at once where no
cycle runs (R418). -/
def Plant.commitBatch (p : Plant) (e : Echo) (bseq : Nat) : Plant :=
  let st := p.batchStatus e.rid bseq
  if st ≠ 0 then (p.noteLost e.rid st).answer e st false []
  else
    let f := p.batchFailure
    let n := p.cvc.gdp.batch.length
    if f.1 ≠ 0 then p.answer e 0x0405 false (commitBody bseq n f.1 f.2)
    else
      let p := (p.markBusy e).onGdp (fun g => { g with
        committing := true, commitSeq := e.seq, commitPort := e.port, commitRid := e.rid, commitInc := e.inc })
      if (p.node .cvc).sched.valid then p else p.writeBatch

/-- BATCH_ABORT, ownership given (R418). -/
def Plant.abortBatch (p : Plant) (e : Echo) (bseq : Nat) : Plant :=
  let st := p.batchStatus e.rid bseq
  if st ≠ 0 then (p.noteLost e.rid st).answer e st false []
  else p.dropBatch.answer e 0 false (beBytes 4 bseq)

/-- BATCH_OPEN, ownership given (R417). -/
def Plant.openBatch (p : Plant) (e : Echo) : Plant :=
  if p.c K.gdpBatchState = 1 then p.answer e 0x0402 false []
  else
    let seq := (p.c K.gdpBatchSeq + 1) % 2 ^ 32
    (((p.cPut K.gdpBatchSeq (seq : Nat)).cPut K.gdpBatchState 1).onGdp (fun g => { g with batch := [] })).answer e 0 false (beBytes 4 seq)

/-! ### Ownership (R413–R415) -/

/-- The body of CLAIM, RENEW and YIELD: the ownership after the request (R408). -/
def Plant.ownerBody (p : Plant) : List Nat :=
  beBytes 8 p.owner ++ [p.c K.gdpOwnerPrio, 0, 0, 0] ++ beBytes 4 (p.viewCvc K.gdpOwnerLeft).toNat

/-- CLAIM (R413). A priority of 0 is out of range. -/
def Plant.claim (p : Plant) (e : Echo) (prio : Nat) : Plant :=
  if prio = 0 then p.answer e 0x0302 false p.ownerBody
  else if p.owner = e.rid then
    let p := (p.cPut K.gdpOwnerPrio (prio : Nat)).newLease
    p.answer e 0 false p.ownerBody
  else if p.owner ≠ 0 ∧ prio ≤ p.c K.gdpOwnerPrio then
    (p.bump .cvc K.gdpClaimsRefused 1).answer e 0x0206 false p.ownerBody
  else
    let p := ((p.discardBatch 2).setOwner e.rid prio e.port).newLease
    p.answer e 0 false p.ownerBody

/-- RENEW from the owner: at or after the end of the lease it is not the owner's any more (R414, R424). -/
def Plant.renew (p : Plant) (e : Echo) : Plant :=
  if p.owner ≠ e.rid ∨ p.cvc.gdp.leaseEnd ≤ p.tick then p.answer e 0x0201 false p.ownerBody
  else
    let p := p.newLease
    p.answer e 0 false p.ownerBody

/-- YIELD (R415). -/
def Plant.yield (p : Plant) (e : Echo) (succ : Nat) : Plant :=
  if p.owner ≠ e.rid then p.answer e 0x0201 false p.ownerBody
  else if p.c K.gdpBatchState = 1 then p.answer e 0x0402 false p.ownerBody
  else if succ = e.rid then p.renew e
  else
    let prio := p.c K.gdpOwnerPrio
    let p := if succ = 0 then p.setOwner 0 0 0xFF else (p.setOwner succ prio 0xFF).newLease
    p.answer e 0 false p.ownerBody

/-! ### Subscriptions (R420) -/

/-- The value of an object as a notification carries it; sampling it changes nothing. -/
def State.sampleBytes (s : State) (key : Nat) : List Nat :=
  match rowOf 0 key with
  | some r => if r.isBlob then s.blobOf .cvc key else encodeVal r.ty (s.plant.view .cvc key)
  | none => []

/-- SUBSCRIBE at the CVC (R420). -/
def Plant.subscribe (p : Plant) (e : Echo) (key mode period : Nat) : Plant :=
  let bad := firstStatus
    [readStatus 0 key, match rowOf 0 key with | some r => must (r.ty != .domain) 0x0301 | none => 0x0102,
     must (decide (mode ≤ 3) && (decide (mode < 2) || decide (10 ≤ period ∧ period ≤ 60000))) 0x0302]
  let g := p.cvc.gdp
  let others := g.subs.filter (fun x => !(x.rid == e.rid && x.key == key))
  if bad ≠ 0 then p.answer e bad false []
  else if mode = 0 then
    (p.onGdp (fun g => { g with subs := others })).answer e 0 false
      (beBytes 2 ((g.subs.find? (fun x => x.rid == e.rid && x.key == key)).map (·.id) |>.getD 0) ++ [0, 0])
  else if 64 ≤ others.length ∨ 16 ≤ (others.filter (fun x => x.rid == e.rid)).length then p.answer e 0x020A false []
  else
    let id := g.nextSub % 65535 + 1
    let x : Subscr := {
                        id := id, rid := e.rid, port := e.port, key := key, mode := mode, period := period, last := [], sentTick := 0,
                        sentOnce := false }
    (p.onGdp (fun g => { g with subs := others ++ [x], nextSub := id })).answer e 0 false (beBytes 2 id ++ [0, 0])

end Sys2Proof.Machine
end

