-- ==== Sys2Proof/Machine/Proxy.lean ====
section
/-! DEFINITION. The CVC's proxy of hubs and cells: requests sent one at a time for each string and four for each hub, their answers,
and the runs that one GDP request becomes (09_tamlek_frames_and_integrity.md R243, R244; 15 R400, R409). -/

namespace Sys2Proof.Machine

/-- Changes the proxy. -/
def Plant.onProxy (p : Plant) (f : Proxy → Proxy) : Plant := p.onCvc (fun c => { c with proxy := f c.proxy })

/-- The hub that a node is reached through. -/
def nodeHub (node : Nat) : Nat := if node < 0x1000 then node - 0x100 else (node - 0x1000) / 64 / 24

/-- The string of a cell's node; none for a hub. -/
def nodeString (node : Nat) : Option Nat := if node < 0x1000 then none else some ((node - 0x1000) / 64)

/-- A request to a node may go out now (R244). -/
def Proxy.free (x : Proxy) (node : Nat) : Bool :=
  decide ((x.out.filter (fun r => nodeHub r.node == nodeHub node)).length < 4) &&
    (match nodeString node with
      | none => true
      | some s => x.out.all (fun r => nodeString r.node != some s))

/-- Sends a request on the uplink pair of its hub. -/
def Plant.svcSend (p : Plant) (r : SvcReq) : Plant :=
  let tag := p.cvc.proxy.nextTag % 256
  let p := p.onProxy (fun x => { x with nextTag := (x.nextTag + 1) % 256, out := x.out ++ [{ r with tag := tag }] })
  let h := nodeHub r.node
  p.sendPair .cvc (2 * h) (2 * h + 1) (svcRequest r.op tag r.node r.key r.off r.val)

/-- A request goes out, or waits in the queue of 64; the answer is false when the queue is full (R244). -/
def Plant.svcStart (p : Plant) (r : SvcReq) : Bool × Plant :=
  let x := p.cvc.proxy
  if x.free r.node && x.queue.all (fun y => nodeHub y.node != nodeHub r.node || (nodeString y.node).isSome && nodeString y.node != nodeString r.node) then
    (true, p.svcSend r)
  else if x.queue.length < 64 then (true, p.onProxy (fun x => { x with queue := x.queue ++ [r] }))
  else (false, p)

/-- The first waiting request that may go out goes out; the first argument bounds how many do. -/
def Plant.svcPump : Nat → Plant → Plant
  | 0, p => p
  | n + 1, p =>
    match p.cvc.proxy.queue.find? (fun r => p.cvc.proxy.free r.node) with
    | none => p
    | some r => svcPump n ((p.onProxy (fun x => { x with queue := x.queue.erase r })).svcSend r)

/-! ### Runs (15 R400, R409) -/

/-- What a request becomes after an answer: a further request, or the end with a status, MORE and a body. -/
inductive Next where
  | send (r : SvcReq)
  | done (status : Nat) (more : Bool) (body : List Nat)
  deriving DecidableEq, Repr

/-- The next subindices of a block: those that the part does not hold, or that are not read, are answered from the built-in tables
(15 R403, R409). -/
def nextItem (kind : Nat) : List Nat → SvcReq → Next
  | [], r => .done 0 false r.acc
  | k :: t, r =>
    let add := fun (ty st : Nat) =>
      let b := blockItem k ty st []
      if r.left < b.length then none else some { r with acc := r.acc ++ b, left := r.left - b.length }
    match rowOf kind k with
    | none => match add 0 0x0102 with
      | some r => nextItem kind t r
      | none => .done 0 true r.acc
    | some row =>
      if row.acc = .wo then match add row.ty.code 0x0202 with
        | some r => nextItem kind t r
        | none => .done 0 true r.acc
      else .send { r with key := k, rest := t, op := if row.ty = .domain then 2 else 0 }

/-- The type code of an object of a node. -/
def nodeType (node key : Nat) : Nat :=
  match partOf node with
  | some q => match rowOf q.kind key with
    | some r => r.ty.code
    | none => 0
  | none => 0

/-- A READ's answer: a value, or a segment of a DOMAIN, after which bytes may remain when it is as long as one can be. -/
def readDone (r : SvcReq) (val : List Nat) : Next :=
  let ty := nodeType r.node r.key
  if r.op = 2 then
    .done 0 (decide (r.left < val.length) || val.length == 240) (readBody r.key ty r.off (val.take r.left))
  else .done 0 false (readBody r.key ty r.off val)

/-- The answer to a piece of a block: of a DOMAIN, of the stream cave.rec, or of one subindex. -/
def blockDone (kind : Nat) (r : SvcReq) (status : Nat) (val : List Nat) : Next :=
  let ty := nodeType r.node r.key
  if r.sent = 1 then
    if status ≠ 0 then .done status false []
    else
      let acc := r.acc ++ val
      if val.length < 240 ∨ r.left ≤ acc.length then
        .done 0 (decide (r.left < acc.length) || val.length == 240) (readBody r.key ty r.off (acc.take r.left))
      else .send { r with acc := acc }
  else if r.sent = 2 then
    if status ≠ 0 then .done status false []
    else if val = [] then .done 0 false r.acc
    else if r.left < r.acc.length + 2 + val.length then .done 0 true r.acc
    else .send { r with acc := r.acc ++ beBytes 2 val.length ++ val }
  else
    let b := blockItem r.key ty status (if status = 0 then val else [])
    if r.left < b.length then .done 0 true r.acc
    else nextItem kind r.rest { r with acc := r.acc ++ b, left := r.left - b.length }

/-- The answer to a WRITE, or to a segment of a DOMAIN value; a segment shorter than 240 bytes completes the value at the node. -/
def writeDone (r : SvcReq) (status : Nat) : Next :=
  if status ≠ 0 then .done status false []
  else if r.op = 3 ∧ r.val.length = 240 then
    .send { r with off := r.off + 240, val := r.rest.take 240, rest := r.rest.drop 240 }
  else .done 0 false (writeBody r.key 0)

/-- What follows an answer. -/
def afterAnswer (r : SvcReq) (status : Nat) (val : List Nat) : Next :=
  match r.what with
  | .own => .done status false val
  | .host _ _ _ _ msg =>
    if msg = 2 then writeDone r status
    else if msg = 3 then blockDone (if r.node < 0x1000 then 1 else 2) r status val
    else if status ≠ 0 then .done status false []
    else readDone r val

/-- The end of a run: the GDP response, or the summary of a hub, whose severity 3 raises source 64 (12 R343). -/
def Plant.svcEnd (p : Plant) (r : SvcReq) (status : Nat) (more : Bool) (body : List Nat) : Plant :=
  match r.what with
  | .host port rid seq inc msg =>
    p.answer { port := port, seq := seq, rid := rid, inc := inc, node := r.node, msg := msg } status more body
  | .own =>
    if status = 0 ∧ r.key = K.faultSummary ∧ ofBe body / 4096 = 3 then p.raise .cvc 64 (r.node - 0x100 : Nat) else p

/-- Takes a step of a run. The segment of a DOMAIN that a block reads next starts after the bytes received. -/
def Plant.svcNext (p : Plant) (r : SvcReq) (x : Next) : Plant :=
  match x with
  | .done st more body => p.svcEnd r st more body
  | .send n =>
    let f := if n.sent = 1 then n.off + n.acc.length else n.off
    let y := p.svcStart { n with off := f }
    if y.1 then y.2 else y.2.svcEnd r 0x0503 false []

/-- A response to an outstanding request; one that comes after its timeout is dropped (R244). -/
def Plant.svcArrive (p : Plant) (op tag node status : Nat) (val : List Nat) : Plant :=
  match p.cvc.proxy.out.find? (fun r => r.tag == tag && r.node == node && r.op == op) with
  | none => p
  | some r =>
    let p := p.onProxy (fun x => { x with out := x.out.erase r })
    let base := if r.sent = 1 then { r with off := r.off - r.acc.length } else r
    (p.svcNext base (afterAnswer base status val)).svcPump 64

/-- SERVICE_TIMEOUT: a request is unanswered after svc.timeout (R244, R260 source 62). -/
def execServiceTimeout (tag : Byte) (s : State) : Host.Outcome State Fault Refusal :=
  s.onUp .cvc (fun p =>
    match p.cvc.proxy.out.find? (fun r => r.tag == tag.toNat) with
    | none => p
    | some r =>
      let p := ((p.onProxy (fun x => { x with out := x.out.erase r })).bump .cvc K.svcTimeouts 1).raise .cvc 62 0
      (p.svcEnd r 0x0501 false []).svcPump 64)

/-! ### Requests of hosts (R244; 15 R400) -/

/-- A request for a host, with nothing gathered yet. `sent` is 1 for a block of a DOMAIN, 2 for one of a stream, else 0. -/
def hostSvc (e : Echo) (op key off : Nat) (val : List Nat) (left : Nat) : SvcReq :=
  {
    tag := 0, node := e.node, op := op, key := key, off := off, val := val, rest := [], acc := [], left := left, sent := 0,
    what := .host e.port e.rid e.seq e.inc e.msg }

/-- Carries a request on, or answers that the node is busy. -/
def Plant.carry (p : Plant) (e : Echo) (r : SvcReq) : Plant :=
  let y := (p.markBusy e).svcStart r
  if y.1 then y.2 else y.2.answer e 0x0503 false []

/-- READ at a hub or cell (15 R400). -/
def Plant.readNode (p : Plant) (e : Echo) (q : Part) (key off maxLen : Nat) : Plant :=
  let bad := readStatus q.kind key
  if bad ≠ 0 then p.answer e bad false []
  else match rowOf q.kind key with
    | some r =>
      if r.ty = .domain then p.carry e (hostSvc e 2 key off [] (min 240 (readMax maxLen)))
      else p.carry e (hostSvc e 0 key off [] 0)
    | none => p.answer e 0x0102 false []

/-- READ_BLOCK at a hub or cell (15 R400, R409). -/
def Plant.blockNode (p : Plant) (e : Echo) (q : Part) (key count off maxLen : Nat) : Plant :=
  let n := min maxLen 1408
  if !hasIndex q.kind (key / 256) then p.answer e 0x0101 false []
  else
    let domain : Bool := match rowOf q.kind key with | some r => r.ty == .domain | none => false
    let wo : Bool := match rowOf q.kind key with | some r => r.acc == .wo | none => false
    if key = K.caveRec then p.carry e { hostSvc e 2 key 0 [] n with sent := 2 }
    else if domain then
      if wo then p.answer e 0x0202 false [] else p.carry e { hostSvc e 2 key off [] n with sent := 1 }
    else match nextItem q.kind (blockKeys key count) (hostSvc e 0 key 0 [] n) with
      | .done st more body => p.answer e st more body
      | .send r => p.carry e r

/-- WRITE at a hub or cell, ownership given: the CVC makes its steps, gathers a DOMAIN up to FIN, and carries the value (15 R400, R402,
R404). -/
def Plant.writeNode (p : Plant) (e : Echo) (q : Part) (key ty off : Nat) (fin : Bool) (val : List Nat) : Plant :=
  match rowOf q.kind key with
  | none => p.answer e (writeAccess q.kind key) false []
  | some r =>
    if r.ty = .domain then
      let bad := firstStatus [p.stateStatus q key r 0, must (ty == r.ty.code) 0x0301]
      if bad ≠ 0 then p.answer e bad false []
      else
        let (st, whole, p) := p.takeSegment e.node key e.rid r.maxLen off fin val
        match whole with
        | none => p.answer e st false (if st = 0 then writeBody key 0 else [])
        | some bs =>
          let bad := p.proxyStatus q key ty bs
          if bad ≠ 0 then p.answer e bad false []
          else p.carry e { hostSvc e 3 key 0 (bs.take 240) 0 with rest := bs.drop 240 }
    else
      let bad := p.proxyStatus q key ty val
      if bad ≠ 0 then p.answer e bad false [] else p.carry e (hostSvc e 1 key 0 val 0)

/-- A hub of the station is not LOCKED after STARTING (10 R289 source 82). -/
def Plant.hubUnlocked (p : Plant) (h : Fin 8) : Bool :=
  decide (2 ≤ p.conv) && bitOf (p.c K.stationHubsExpected) h.val && p.getN (.hub h) K.timeState != 2

/-- The poll of one hub: its fault.summary is asked for, and a hub that is not LOCKED raises source 82 (12 R343; log entry 51). -/
def Plant.pollHub (p : Plant) (h : Fin 8) : Plant :=
  if p.hubServes h.val then
    let p := if p.hubUnlocked h then p.raise .cvc 82 h.val else p
    (p.svcStart {
                  tag := 0, node := 0x100 + h.val, op := 0, key := K.faultSummary, off := 0, val := [], rest := [], acc := [], left := 0,
                  sent := 0, what := .own }).2
  else p

/-- HUB_POLL: the CVC reads fault.summary of every hub (12 R343). -/
def execHubPoll (s : State) : Host.Outcome State Fault Refusal :=
  s.onUp .cvc (fun p => (List.finRange 8).foldl (fun p h => p.pollHub h) p)

end Sys2Proof.Machine
end

