-- ==== Sys2Proof/Machine/Discovery.lean ====
section
/-! DEFINITION. Discovery of strings and cells by the CVC (16_reset_startup_persistence.md R445, R448, R449). The string number stands in
SUB of the request and is echoed in the answer. -/

namespace Sys2Proof.Machine

/-- The DISCOVER request for a string end, as it enters the port: CTR and END (R448). -/
def discoverFrame (str fin ctr : Nat) : Frame := svcRequest 4 0 0xFFFF str 0 [ctr, fin]

/-- DISCOVERY_PASS: every boot.disc_every a request goes into both ends of every string of every hub found, and the answers of the pass
before are laid aside (R448). -/
def execDiscoveryPass (s : State) : Host.Outcome State Fault Refusal :=
  s.onUp .cvc (fun p =>
    if p.misstrapped ∨ p.c K.bootStatus = 2 then p
    else (rangeFrom 0 8).foldl (fun p h =>
      if !p.hubServes h then p
      else (rangeFrom (24 * h) 24).foldl (fun p str =>
        let p := p.onStr str (fun x => { x with head := [], tail := [] })
        [0, 1].foldl (fun p fin => p.sendPair .cvc (2 * h) (2 * h + 1) (discoverFrame str fin 0)) p) p) p)

/-- The answer that a value of 20 bytes carries (R448). -/
def answerOf (v : List Nat) : Answer :=
  {
    serial := ofBe (v.take 8), fw := ofBe ((v.drop 8).take 4), ctr := nth v 12, step := nth v 14, type := nth v 15,
    flags := ofBe ((v.drop 16).take 2), ledger := nth v 18 }

/-- Takes a cell's answer (R448). -/
def Plant.takeAnswer (p : Plant) (str : Nat) (v : List Nat) : Plant :=
  if 192 ≤ str ∨ v.length ≠ 20 then p
  else
    let a := answerOf v
    let add := fun (l : List Answer) => if l.any (fun x => x.ctr == a.ctr) then l else l ++ [a]
    p.onStr str (fun x => if nth v 13 = 0 then { x with head := add x.head } else { x with tail := add x.tail })

/-- The cell at a position takes it, and the CVC holds its answer; a new cell's capacitance is read where the converter has left STOPPED
(R449, 03 R57). -/
def Plant.placeCell (p : Plant) (str pos : Nat) (a : Answer) : Plant :=
  match cellAt str pos with
  | none => p
  | some c =>
    let id := cellNum c
    let old := p.cellInfo id
    let fresh := !old.found || old.ans.serial != a.serial
    let info : CellInfo := {
      found := true, ans := a, cnom := if fresh then 0 else old.cnom, silentHead := !fresh && old.silentHead,
      silentTail := !fresh && old.silentTail }
    let p := p.onCvc (fun x => { x with cells := Tab.set (fun _ => default) x.cells id info })
    let p := if fresh then p.harpForget id else p
    let q := Part.cell c
    let p := if p.up q then
        (p.put q K.stringPos (pos : Nat)).onCell c (fun e => { e with posKnown := true, lanePos := pos })
      else p
    if fresh ∧ p.cvc.capsRead then p.readCaps [id] else p

/-- The cells of a string not yet discovered: both passes have the same count, every cell answered both, and its counters add up
(R449). -/
def passesAgree (head tail : List Answer) : Bool :=
  let n := head.length
  decide (1 ≤ n) && tail.length == n && head.all (fun a =>
    match tail.find? (fun b => b.serial == a.serial) with
    | some b => a.ctr + b.ctr + 1 == n
    | none => false)

/-- The number of cells of a string as its hub and the CVC hold it. -/
def Plant.setCells (p : Plant) (str n : Nat) : Plant :=
  let p := p.cPut (K.stringCells + str) (n : Nat)
  if h : str / 24 < 8 then p.put (.hub ⟨str / 24, h⟩) (K.stringCells + str % 24) (n : Nat) else p

/-- A string not yet discovered, or out of the station since its hub's reset, is discovered as a whole (R449, R450);
48 answers to a pass that do not add up show one that is too long (01 R18). -/
def Plant.matchWhole (p : Plant) (str : Nat) : Plant :=
  let x := p.strInfo str
  if passesAgree x.head x.tail then
    let p := (p.setCells str x.head.length).onStr str (fun y => { y with found := true, tooLong := false })
    x.head.foldl (fun p a => p.placeCell str a.ctr a) p
  else if 48 ≤ x.head.length ∨ 48 ≤ x.tail.length then p.onStr str (fun y => { y with tooLong := true })
  else p

/-- After start-up the answers of a pass are matched by SERIAL against the cells at their positions; another serial is a new cell where
the former one no longer answers (R449). -/
def Plant.matchPass (p : Plant) (str fin : Nat) : Plant :=
  let n := p.c (K.stringCells + str)
  let l := if fin = 0 then (p.strInfo str).head else (p.strInfo str).tail
  l.foldl (fun p a =>
    if n ≤ a.ctr then p
    else
      let pos := if fin = 0 then a.ctr else n - 1 - a.ctr
      let old := p.cellInfo (str * 64 + pos)
      if old.found && old.ans.serial != a.serial && l.any (fun b => b.serial == old.ans.serial) then p
      else p.placeCell str pos a) p

/-- Notes which cells of a discovered string gave no answer in the pass of an end that is over: a cell in DEEP or AON, whose lanes are
down, gives none at either (07 R184; log entry 83). -/
def Plant.noteSilent (p : Plant) (str fin : Nat) : Plant :=
  let l := if fin = 0 then (p.strInfo str).head else (p.strInfo str).tail
  (rangeFrom 0 (p.c (K.stringCells + str))).foldl (fun p pos =>
    let i := p.cellInfo (str * 64 + pos)
    let silent := !l.any (fun a => a.serial == i.ans.serial)
    let i := if fin = 0 then { i with silentHead := silent } else { i with silentTail := silent }
    if !i.found then p
    else p.onCvc (fun x => { x with cells := Tab.set (fun _ => default) x.cells (str * 64 + pos) i })) p

/-- DISCOVERY_PASS_END: a pass of a string end ends with no answer for 2 cycles (R449). -/
def execDiscoveryPassEnd (str : StringNo) (fin_ : Fin 2) (s : State) : Host.Outcome State Fault Refusal :=
  s.onUp .cvc (fun p =>
    let n := str.val
    let p := p.onStr n (fun x =>
      if fin_.val = 0 then { x with headPasses := min (x.headPasses + 1) 0xFFFF } else { x with tailPasses := min (x.tailPasses + 1) 0xFFFF })
    if (p.strInfo n).found then (p.matchPass n fin_.val).noteSilent n fin_.val else p.matchWhole n)

end Sys2Proof.Machine
end

