-- ==== Sys2Proof/Machine/Service.lean ====
section
/-! DEFINITION. Service frames at hubs, cells and the CVC: requests answered, forwarded and discovered, and the partner's mirror
(09_tamlek_frames_and_integrity.md R243, R244; 14 R392; 16 R447, R448). -/

namespace Sys2Proof.Machine

/-! ### What a part does with a request of its own -/

/-- A value that a hub or cell answers a READ with, and its status. -/
def Plant.nodeRead (p : Plant) (q : Part) (key : Nat) : Nat × List Nat :=
  let bad := readStatus q.kind key
  match rowOf q.kind key with
  | none => (bad, [])
  | some r =>
    if bad ≠ 0 then (bad, [])
    else if r.isBlob then (0, (p.blob q key).take 240)
    else (0, encodeVal r.ty (p.view q key))

/-- A segment of up to 240 bytes that a hub or cell answers a READ_SEG with; cave.rec advances (12 R352). -/
def Plant.nodeReadSeg (p : Plant) (q : Part) (key off : Nat) : Nat × List Nat × Plant :=
  let bad := readStatus q.kind key
  if bad ≠ 0 then (bad, [], p)
  else if key = K.caveRec then
    let (bs, p) := p.caveRead q
    (0, (bs.drop off).take 240, p)
  else match q with
    | .cell c => (0, ((if key = K.capData then p.capData c else p.blob q key).drop off).take 240, p)
    | _ => (0, ((p.blob q key).drop off).take 240, p)

/-- A WRITE at a hub or cell: its steps, and the act (15 R404). -/
def Plant.nodeWrite (p : Plant) (q : Part) (key : Nat) (bs : List Nat) : Nat × Plant :=
  let bad := p.nodeStatus q key bs
  if bad ≠ 0 then (bad, p)
  else
    let x := p.applyWrite q 0 key bs
    (x.1 % 65536, x.2)

/-- A WRITE_SEG at a hub or cell: the segment at offset 0 starts a value, each later one follows on, and one shorter than 240 bytes
completes it (15 R402). -/
def Plant.nodeWriteSeg (p : Plant) (q : Part) (key off : Nat) (bs : List Nat) : Nat × Plant :=
  let maxLen := match rowOf q.kind key with | some r => r.maxLen | none => 0
  let held : Option (List Nat) := if off = 0 then some [] else match (p.node q).seg with
    | some x => if x.1 = key ∧ x.2.length = off then some x.2 else none
    | none => none
  let keep := fun (p : Plant) (x : Option (Nat × List Nat)) => p.onNode q (fun n => { n with seg := x })
  match held with
  | none => (0x0304, p)
  | some old =>
    let all := old ++ bs
    if maxLen < all.length then (0x0304, keep p none)
    else if bs.length = 240 then (0, keep p (some (key, all)))
    else (keep p none).nodeWrite q key all

/-- The answer to a request at a hub or cell by its OP; 5 to 7 are reserved and answered as no operation of the node. A bank that has been
due since the last boundary of the part is in force (09 R251). -/
def Plant.nodeServe (p : Plant) (q : Part) (f : Frame) : Frame × Plant :=
  let p := p.switchBanks q
  let key := svcKey f
  let reply := fun (st : Nat) (val : List Nat) => svcResponse (svcOp f) (svcTag f) q.node key st val
  match svcOp f with
  | 0 =>
    let x := p.nodeRead q key
    (reply x.1 x.2, p)
  | 1 =>
    let x := p.nodeWrite q key (svcValue f)
    (reply x.1 [], x.2)
  | 2 =>
    let x := p.nodeReadSeg q key (svcOffset f)
    (reply x.1 x.2.1, x.2.2)
  | 3 =>
    let x := p.nodeWriteSeg q key (svcOffset f) (svcValue f)
    (reply x.1 [], x.2)
  | _ => (reply 0x0105 [], p)

/-! ### Discovery at a cell (16 R447, R448) -/

/-- FLAGS of a discovery answer. -/
def Plant.discFlags (p : Plant) (c : CellId) : Nat :=
  let q := Part.cell c
  let b := fun (n : Nat) (x : Bool) => if x then 2 ^ n else 0
  b 0 (p.fired c) + b 1 (p.htHeld c) + b 2 (p.getN q K.swBench == 1) + b 3 (p.get q K.adcVGain == 0) + b 4 (p.reserveShort c) +
    b 5 (p.getN q K.pwrState != 0) + b 6 (p.getN q K.bootStatus == 2) + b 7 (p.locked q)

/-- The value of a discovery answer. -/
def Plant.discValue (p : Plant) (c : CellId) (ctr fin : Nat) : List Nat :=
  let q := Part.cell c
  beBytes 8 (p.getN q K.idSerial) ++ beBytes 4 (p.getN q K.idFw) ++ [ctr, fin, p.getN q K.idStep, p.getN q K.swType] ++
    beBytes 2 (p.discFlags c) ++ [p.getN q K.nrgState, 0]

/-- A DISCOVER request at a cell: it answers towards the port and forwards with CTR + 1 on its other lane; one with a CTR of 48 or more
does neither. -/
def Plant.discoverAtCell (p : Plant) (c : CellId) (l : Nat) (f : Frame) : Plant :=
  let q := Part.cell c
  let v := svcValue f
  let ctr := nth v 0
  if 48 ≤ ctr then p
  else
    let node := if (p.cell c).posKnown then q.node else 0xFFFF
    let p := p.send q l (svcResponse 4 (svcTag f) node (svcKey f) 0 (p.discValue c ctr (nth v 1)))
    let next := svcRequest 4 (svcTag f) 0xFFFF (svcKey f) 0 [ctr + 1, nth v 1]
    p.send q (otherLane l) (forwardFrame (p.hopCode q l) f f.hdr next.data)

/-! ### Cells and hubs on the way -/

/-- A service frame at a cell (R244): its own requests are answered on the lane they came on; everything else passes. A frame whose
check fails passes stomped and is not taken. -/
def Plant.serviceAtCell (p : Plant) (c : CellId) (l : Nat) (f : Frame) (good : Bool) : Plant :=
  let q := Part.cell c
  if !p.up q ∨ p.halted q ∨ svcIsResponse f ∨ !good then p.cellForward c l f
  else if svcOp f = 4 then p.discoverAtCell c l f
  else if (p.cell c).posKnown ∧ svcNode f = q.node then
    let x := p.nodeServe q f
    x.2.send q l x.1
  else p.cellForward c l f

/-- The lane that leads from a hub to a position of a string, by the plan it latched; none where the position cannot be reached
(R244, 08 R213). -/
def Plant.laneTo (p : Plant) (h : Fin 8) (k pos : Nat) : Option Nat :=
  match (p.hubPort h k).plan.latched with
  | none => none
  | some v => if pos < v.a then some (2 * k) else if v.b ≤ pos then some (2 * k + 1) else none

/-- A request from a CVC for a cell, or for every cell of a string end (R244); one whose check fails passes on stomped, and is not answered
(R246). -/
def Plant.hubToString (p : Plant) (h : Fin 8) (l : Nat) (f : Frame) (good : Bool) : Plant :=
  let q := Part.hub h
  let on := fun (lane : Nat) => p.send q lane (forwardFrame (p.hopCode q l) f f.hdr f.data)
  if svcOp f = 4 ∧ svcNode f = 0xFFFF then
    let str := svcKey f % 256
    if str / 24 = h.val then on (2 * (str % 24) + nth (svcValue f) 1 % 2) else p
  else
    let id := svcNode f - 0x1000
    let str := id / 64
    if svcNode f < 0x1000 ∨ str / 24 ≠ h.val then p
    else match p.laneTo h (str % 24) (id % 64) with
      | some lane => on lane
      | none =>
        let pair := hubPair (decide (50 ≤ l))
        if !good then p
        else p.sendPair q pair.1 pair.2 (svcResponse (svcOp f) (svcTag f) (svcNode f) (svcKey f) 0x0502 [])

/-- A service frame at a hub (R244): what comes from a string goes to the CVCs, requests for its strings are taken as
08 R217 says; a request of its own is answered on the uplink pair it came on. The answer to a soft reset that begins
at once reaches its CVC before (16 R431). -/
def Plant.serviceAtHub (p : Plant) (h : Fin 8) (l : Nat) (f : Frame) (good : Bool) : Plant :=
  let q := Part.hub h
  if l < 48 then p.hubUp h (forwardFrame (p.hopCode q l) f f.hdr f.data)
  else if svcIsResponse f then p
  else if svcNode f = q.node then
    if !good then p
    else
      let x := p.nodeServe q f
      let w := (x.2.node q).power
      let cvcB := decide (50 ≤ l)
      if w.softDue ∧ !w.storing ∧ !w.fwWriting then
        if p.c K.redId = (if cvcB then 1 else 0) ∧ p.up .cvc then
          x.2.svcArrive (svcOp f) (svcTag f) q.node (svcStatus x.1) (svcValue x.1)
        else x.2
      else x.2.sendPair q (hubPair cvcB).1 (hubPair cvcB).2 x.1
  else if p.hubTakes h l then p.hubToString h l f good
  else p.foreign h

/-- A service frame of an operation at a hub or cell, a request or a response on its way, and a soft reset that it accepted begins
(R244, 16 R431). -/
def State.serviceFrame (s : State) (port : Port) (f : Frame) (op : Nat) : State :=
  let p := s.plant.receive port f 5 (fun p good =>
    if svcOp f ≠ op then p
    else match port.part with
      | .cell c => p.serviceAtCell c port.lane.val f good
      | .hub h => p.serviceAtHub h port.lane.val f good
      | .cvc => p)
  match port.part with
  | .cvc => { s with plant := p }
  | q => { s with plant := p }.softAfter q

/-- SERVICE_READ: a READ request at a hub or cell (R243, R244). -/
def execServiceRead (port : Port) (f : Frame) (s : State) : Host.Outcome State Fault Refusal := .next (s.serviceFrame port f 0)

/-- SERVICE_WRITE: a WRITE request at a hub or cell (R243, R244). -/
def execServiceWrite (port : Port) (f : Frame) (s : State) : Host.Outcome State Fault Refusal := .next (s.serviceFrame port f 1)

/-- SERVICE_READ_SEG: a READ_SEG request at a hub or cell (R243, R244). -/
def execServiceReadSeg (port : Port) (f : Frame) (s : State) : Host.Outcome State Fault Refusal := .next (s.serviceFrame port f 2)

/-- The partner's mirror on a peer lane: a STANDBY takes it and answers nothing (14 R392). -/
def State.mirrorFrame (s : State) (port : Port) (f : Frame) : State :=
  let p := s.plant
  let takes := p.laneUp .cvc port.lane.val && lengthOk f && f.ty == 5 && decide (chkState f = .good) && p.up .cvc && p.c K.redRole == 2 &&
    decide (16 ≤ port.lane.val) && svcOp f == 3 && !svcIsResponse f && svcNode f == 0 && svcKey f == K.redMirror
  { s with
    plant := p.receive port f 5 (fun p _ => if takes then p.takeMirror (svcOffset f) (svcValue f) else p),
    mem := if takes then mirrorMem s.mem (svcOffset f) (svcValue f) else s.mem }

/-- SERVICE_WRITE_SEG: a WRITE_SEG request at a hub or cell, or the mirror at a CVC (R243, R244, 14 R392). -/
def execServiceWriteSeg (port : Port) (f : Frame) (s : State) : Host.Outcome State Fault Refusal :=
  match port.part with
  | .cvc => .next (s.mirrorFrame port f)
  | _ => .next (s.serviceFrame port f 3)

/-- DISCOVER: a DISCOVER request at a hub, which sends it into the string end, or at a cell (R243, 16 R448). -/
def execDiscover (port : Port) (f : Frame) (s : State) : Host.Outcome State Fault Refusal := .next (s.serviceFrame port f 4)

/-- A response at the CVC that asked. -/
def Plant.responseAtCvc (p : Plant) (f : Frame) (good : Bool) : Plant :=
  if !svcIsResponse f ∨ !good ∨ !p.up .cvc then p
  else if svcOp f = 4 then p.takeAnswer (svcKey f % 256) (svcValue f)
  else p.svcArrive (svcOp f) (svcTag f) (svcNode f) (svcStatus f) (svcValue f)

/-- SERVICE_RESPONSE: a response reaches the CVC and completes the request, or is a cell's answer to discovery (R244, 16 R448). -/
def execServiceResponse (lane : Fin 18) (f : Frame) (s : State) : Host.Outcome State Fault Refusal :=
  s.onUp .cvc (fun p => p.receive ⟨.cvc, lane.castLE (by omega)⟩ f 5 (fun p good => p.responseAtCvc f good))

end Sys2Proof.Machine
end

