-- ==== Sys2Proof/Machine/Server.lean ====
section
/-! DEFINITION. The GDP server serves a request in the order of 15 R404, and a host port takes what arrives on it
(15_dictionary_and_hosts.md R399–R422). -/

namespace Sys2Proof.Machine

/-- A node is present (R399). -/
def Plant.present (p : Plant) (q : Part) : Bool :=
  match q with
  | .cvc => true
  | .hub h => bitOf (p.c K.stationHubsExpected) h.val && bitOf (p.c K.stationHubsFound) h.val
  | .cell c => (p.cellInfo (cellNum c)).found

/-- Writes that a STANDBY refuses (14 R394). -/
def standbyRefuses (m : Msg) : Bool :=
  match m with
  | .write _ key _ _ _ _ => key == K.convRequest || key == K.loopInjCtrl || key == K.vatMove
  | _ => false

/-- The answer to a request that fails a check; the ownership stands in those of CLAIM, RENEW and YIELD all the same (R408). -/
def Plant.failMsg (p : Plant) (e : Echo) (m : Msg) (st : Nat) : Plant :=
  p.answer e st false (match m with | .claim .. => p.ownerBody | .renew => p.ownerBody | .yield .. => p.ownerBody | _ => [])

/-- Steps 3 to 5 (R404): port rights, node and operation, role. A descriptor is the CVC's own answer for any node (R400). -/
def Plant.gateStatus (p : Plant) (e : Echo) (m : Msg) : Nat :=
  let role := p.c K.redRole
  if p.c (hpKey e.port 7) = 0 ∧ !msgReads m then 0x0208
  else match partOf e.node with
    | none => 0x0103
    | some q =>
      let desc := match m with | .desc _ => true | _ => false
      if !p.present q then 0x0104
      else if q ≠ .cvc ∧ !msgAtNode m then 0x0105
      else if role = 2 ∧ ((q ≠ .cvc ∧ !desc) ∨ (q = .cvc ∧ standbyRefuses m)) then 0x0207
      else 0

/-- A descriptor (R403). -/
def Plant.descOfObj (p : Plant) (e : Echo) (q : Part) (key : Nat) : Plant :=
  if !hasIndex q.kind (key / 256) then p.answer e 0x0101 false []
  else match rowOf q.kind key with
    | none => p.answer e 0x0102 false []
    | some r => p.answer e 0 false (descBytes key r)

/-- A WRITE: access, ownership, and what follows for its node or the batch (R404, R417). -/
def Plant.writeMsg (p : Plant) (e : Echo) (q : Part) (b : Bool) (key ty off : Nat) (fin : Bool) (val : List Nat) : Plant :=
  let bad := writeAccess q.kind key
  if bad ≠ 0 then p.answer e bad false []
  else if p.owner ≠ e.rid then p.answer e 0x0201 false []
  else if b then p.writeBatched e key ty val
  else if q = .cvc then p.writeOwn e key ty off fin val
  else p.writeNode e q key ty off fin val

/-- A message of the owner alone. -/
def Plant.asOwner (p : Plant) (e : Echo) (f : Plant → Plant) : Plant := if p.owner = e.rid then f p else p.answer e 0x0201 false []

/-- A request that passes steps 3 to 5 is carried out (R404). -/
def State.perform (s : State) (e : Echo) (m : Msg) : State :=
  let p := s.plant
  let q := (partOf e.node).getD .cvc
  let on := fun (x : Plant) => { s with plant := x }
  match m with
  | .read key off maxLen => if q = .cvc then s.readOwn e key off maxLen else on (p.readNode e q key off maxLen)
  | .desc key => on (p.descOfObj e q key)
  | .write b key ty off fin val => on (p.writeMsg e q b key ty off fin val)
  | .block key count off maxLen =>
    if count = 0 then on (p.answer e 0x0302 false [])
    else if q = .cvc then s.blockOwn e key count off maxLen
    else on (p.blockNode e q key count off maxLen)
  | .batchOpen => on (p.asOwner e (fun p => p.openBatch e))
  | .batchCommit n => on (p.asOwner e (fun p => p.commitBatch e n))
  | .batchAbort n => on (p.asOwner e (fun p => p.abortBatch e n))
  | .claim prio => on (p.claim e prio)
  | .renew => on (p.renew e)
  | .yield succ => on (p.yield e succ)
  | .subscribe key mode period => on (p.subscribe e key mode period)

/-- The owner's requests show the port they come through (R413). -/
def Plant.notePort (p : Plant) (e : Echo) : Plant := if p.owner = e.rid then p.cPut K.gdpOwnerPort (e.port : Nat) else p

/-- A new request is executed from step 3 on (R404). -/
def State.execute (s : State) (e : Echo) (m : Msg) : State :=
  let p := s.plant.notePort e
  let bad := p.gateStatus e m
  if bad ≠ 0 then { s with plant := p.failMsg e m bad } else { s with plant := p }.perform e m

/-- The datagram of a request leaves its port's queue (R405): the first one with its RID, SEQ and INC. -/
def Plant.dequeue (p : Plant) (e : Echo) : Plant :=
  p.onPortSt e.port (fun x =>
    match x.queue.find? (fun d => ofBe ((d.drop 4).take 4) == e.seq && ofBe ((d.drop 8).take 8) == e.rid && ofBe ((d.drop 16).take 2) == e.inc) with
    | some d => { x with queue := x.queue.erase d }
    | none => x)

/-- A request that its session holds to be new becomes its highest SEQ (R411). -/
def Plant.begin (p : Plant) (e : Echo) : Plant := p.onSession e.rid (fun x => { x with begun := true, hi := e.seq })

/-- A request is served: steps 1 and 2 of R404, then the rest; a soft reset begins once its response is sent (16 R431). -/
def State.serve (s : State) (r : Req) (m : Msg) : State :=
  let e := echoOf r m
  let p := s.plant.dequeue e
  let on := fun (x : Plant) => { s with plant := x }
  if !s.plant.portServes e.port then s
  else if e.rid = 0 then on (p.malformed e)
  else match p.takeSession e.rid e.inc with
    | none => on (p.answerBare e 0x0209)
    | some p =>
      match (p.session e.rid).map (fun (x : Session) => x.seqCase e.seq) with
      | some (.cached old) => on ((p.sendMsg e.port { old with dup := true }).bump .cvc K.gdpDuplicates 1)
      | some .carried => on p
      | some .stale => on (((p.bump .cvc K.gdpOutOfSeq 1).answerBare e 0x0602).raise .cvc 3 0)
      | _ => ((on (p.begin e)).execute e m).softAfter .cvc

/-! ### Datagrams (R405, R407, R408, R422) -/

/-- Big-endian bytes of a message from an offset. -/
def msgField (bs : List Nat) (o n : Nat) : Nat := ofBe ((bs.drop o).take n)

/-- The header fields that are present, 0 for the missing ones (R422). -/
def echoBytes (port : Nat) (bs : List Nat) : Echo :=
  let b := bs ++ List.replicate 24 0
  { port := port, seq := msgField b 4 4, rid := msgField b 8 8, inc := msgField b 16 2, node := msgField b 18 2, msg := nth b 1 }

/-- The request that a body carries by its message code and the B and DESC bits (R408); none when its length is wrong or a reserved
field is not 0. -/
def bodyMsg (code : Nat) (b desc : Bool) (d : List Nat) : Option Msg :=
  let n := d.length
  let key := msgField d 0 3
  match code with
  | 1 =>
    if n ≠ 12 ∨ nth d 3 ≠ 0 ∨ msgField d 10 2 ≠ 0 then none
    else some (if desc then .desc key else .read key (msgField d 4 4) (msgField d 8 2))
  | 2 =>
    if n < 12 ∨ n ≠ 12 + msgField d 8 2 ∨ 1 < nth d 10 ∨ nth d 11 ≠ 0 then none
    else some (.write b key (nth d 3) (msgField d 4 4) (nth d 10 == 1) (d.drop 12))
  | 3 => if n ≠ 12 ∨ msgField d 10 2 ≠ 0 then none else some (.block key (nth d 3) (msgField d 4 4) (msgField d 8 2))
  | 4 => if n ≠ 0 then none else some .batchOpen
  | 5 => if n ≠ 4 then none else some (.batchCommit (msgField d 0 4))
  | 6 => if n ≠ 4 then none else some (.batchAbort (msgField d 0 4))
  | 7 => if n ≠ 4 ∨ msgField d 1 3 ≠ 0 then none else some (.claim (nth d 0))
  | 8 => if n ≠ 0 then none else some .renew
  | 9 => if n ≠ 8 then none else some (.yield (msgField d 0 8))
  | 10 => if n ≠ 8 ∨ msgField d 6 2 ≠ 0 then none else some (.subscribe key (nth d 3) (msgField d 4 2))
  | _ => none

/-- The request that a datagram carries; none when it is malformed (R407, R422). -/
def datagramMsg (bs : List Nat) : Option Msg :=
  let n := bs.length
  let flags := msgField bs 2 2
  if n < 28 ∨ nth bs 0 ≠ 1 ∨ msgField bs (n - 4) 4 ≠ crc32c (bs.take (n - 4)) ∨ msgField bs 22 2 ≠ n - 28 ∨ bits flags 10 0 ≠ 0 ∨
      bitOf flags 15 ∨ msgField bs 8 8 = 0 then none
  else bodyMsg (nth bs 1) (bitOf flags 12) (bitOf flags 11) ((bs.take (n - 4)).drop 24)

/-- HOST_DATAGRAM: a frame that arrives on a port is counted, dropped, answered as malformed, or queued for GDP (R405, R406, R422). What
the queue holds is served as the GDP commands say. -/
def execHostDatagram (port : HostPort) (f : HostFrame) (s : State) : Host.Outcome State Fault Refusal :=
  s.onUp .cvc (fun p =>
    let n := port.val
    let count := fun (sub : Nat) => p.bump .cvc (hpKey n sub) 1
    if !p.portUp n then p
    else match f with
      | .damaged => count 0x0C
      | .other => count 0x0A
      | .udp dport _ _ ckOk frag opts bytes =>
        if frag ∨ opts then count 0x0A
        else if !ckOk then count 0x0C
        else if dport ≠ 47120 ∨ !p.portServes n then count 0x0A
        else
          let bs := bytes.map BitVec.toNat
          let p := count 9
          if 32 ≤ (p.portSt n).queue.length then p.bump .cvc (hpKey n 0x0B) 1
          else if (datagramMsg bs).isNone then p.malformed (echoBytes n bs)
          else p.onPortSt n (fun x => { x with queue := x.queue ++ [bs] }))

/-- A frame of the port's VLAN (R405). -/
def Plant.vlanOk (p : Plant) (n : Nat) (vlan : BitVec 16) : Bool :=
  let v := p.c (hpKey n 6)
  v == 0xFFFF || (vlan != 0xFFFF && vlan.toNat % 4096 == v % 4096)

/-- ARP_REQUEST: a request for the port's address is answered (R405). -/
def execArpRequest (port : HostPort) (target : BitVec 32) (vlan : BitVec 16) (s : State) : Host.Outcome State Fault Refusal :=
  s.onUp .cvc (fun p =>
    let n := port.val
    if !p.portUp n then p
    else if p.vlanOk n vlan ∧ p.c (hpKey n 3) ≠ 0 ∧ p.c (hpKey n 3) = target.toNat then p.onPortSt n (fun x => { x with arpSent := true })
    else p.bump .cvc (hpKey n 0x0A) 1)

/-- ICMP_ECHO: a request of up to 1,472 bytes of data is answered with them (R405). -/
def execIcmpEcho (port : HostPort) (target : BitVec 32) (vlan : BitVec 16) (data : List Byte) (s : State) :
    Host.Outcome State Fault Refusal :=
  s.onUp .cvc (fun p =>
    let n := port.val
    if !p.portUp n then p
    else if p.vlanOk n vlan ∧ p.c (hpKey n 3) ≠ 0 ∧ p.c (hpKey n 3) = target.toNat ∧ data.length ≤ 1472 then
      p.onPortSt n (fun x => { x with echo := data.map BitVec.toNat })
    else p.bump .cvc (hpKey n 0x0A) 1)

/-- HOST_LINK_CHANGE: the link of an enabled port comes up, and one gratuitous ARP goes out, or it is lost, which raises source 4 (R405,
R406). -/
def execHostLinkChange (port : HostPort) (up : Bool) (s : State) : Host.Outcome State Fault Refusal :=
  s.onUp .cvc (fun p =>
    let n := port.val
    let was := p.c (hpKey n 8) == 1
    if p.c (hpKey n 1) ≠ 1 ∨ was = up then p
    else
      let p := p.cPut (hpKey n 8) (if up then 1 else 0)
      if up then p.onPortSt n (fun x => { x with arpSent := true })
      else (p.bump .cvc (hpKey n 0x0E) 1).raise .cvc 4 n)

/-- NO_LINK_TIMEOUT: no enabled port has had its link up for 1 s (R406). -/
def execNoLinkTimeout (s : State) : Host.Outcome State Fault Refusal :=
  s.onUp .cvc (fun p => if (rangeFrom 0 5).any p.portUp then p else p.raise .cvc 5 0)

/-! ### Notifications (R421) -/

/-- One notification: its subscription, and its entry. -/
structure Note where
  sub : Subscr
  bytes : List Nat
  deriving DecidableEq, Repr

/-- The notification of a subscription with a value sampled now. -/
def Plant.noteOf (p : Plant) (x : Subscr) (val : List Nat) : Note :=
  let ty := match rowOf 0 x.key with | some r => r.ty.code | none => 0
  { sub := x, bytes := beBytes 2 x.id ++ keyBytes x.key ++ [ty] ++ beBytes 2 val.length ++ beBytes 8 (p.now .cvc) ++ val }

/-- One NOTIFY to a session on a port, counted by the session; without a link its notifications are dropped and counted. -/
def Plant.sendNotify (p : Plant) (rid port n : Nat) (body : List Nat) : Plant :=
  match p.session rid with
  | none => p
  | some x =>
    let seq := (x.notes + 1) % 2 ^ 32
    let p := p.onSession rid (fun y => { y with notes := seq })
    if p.portServes port then
      p.sendMsg port { msg := 11, seq := seq, rid := rid, inc := x.inc, node := 0, status := 0, dup := false, more := false, body := body }
    else p.bump .cvc K.gdpNotifyDropped n

/-- Notifications of one session and port in as few messages of up to 1,444 bytes as hold them. -/
def Plant.sendNotes (p : Plant) (rid port n : Nat) (body : List Nat) : List Note → Plant
  | [] => if n = 0 then p else p.sendNotify rid port n body
  | x :: t =>
    if 1444 < body.length + x.bytes.length then (p.sendNotify rid port n body).sendNotes rid port 1 x.bytes t
    else p.sendNotes rid port (n + 1) (body ++ x.bytes) t

/-- The value of a subscription has been sent. -/
def Plant.noteSent (p : Plant) (id : Nat) (val : List Nat) : Plant :=
  p.onGdp (fun g => { g with subs := g.subs.map (fun x => if x.id = id then { x with last := val, sentTick := p.tick, sentOnce := true } else x) })

/-- An on-change subscription is due: its value differs from the last one sent, and 10 ms have passed since. -/
def noteDue (tick : Nat) (x : Subscr) (val : List Nat) : Bool :=
  (x.mode == 1 || x.mode == 3) && (!x.sentOnce || (val != x.last && decide (x.sentTick + ticksMs 10 ≤ tick)))

/-- Sends what is due, session by session and port by port. -/
def Plant.notifyAll (p : Plant) (due : List Note) : Plant :=
  p.cvc.gdp.sessions.foldl (fun p x =>
    (rangeFrom 0 5).foldl (fun p port =>
      p.sendNotes x.rid port 0 [] (due.filter (fun d => d.sub.rid == x.rid && d.sub.port == port))) p) p

/-- NOTIFY: on-change subscriptions are sampled, and notifications due are sent (R421). -/
def execNotify (s : State) : Host.Outcome State Fault Refusal :=
  s.onUp .cvc (fun p =>
    let due := (p.cvc.gdp.subs.map (fun x => (x, s.sampleBytes x.key))).filter (fun y => noteDue p.tick y.1 y.2)
    let p := due.foldl (fun p y => p.noteSent y.1.id y.2) p
    p.notifyAll (due.map (fun y => p.noteOf y.1 y.2)))

/-- PERIODIC_NOTIFY: the period of a subscription elapses (R421). -/
def execPeriodicNotify (subid : BitVec 16) (s : State) : Host.Outcome State Fault Refusal :=
  s.onUp .cvc (fun p =>
    match p.cvc.gdp.subs.find? (fun x => x.id == subid.toNat && decide (2 ≤ x.mode)) with
    | none => p
    | some x =>
      let val := s.sampleBytes x.key
      (p.noteSent x.id val).notifyAll [p.noteOf x val])

end Sys2Proof.Machine
end

