-- ==== Sys2Proof/Machine/HostRows.lean ====
section
/-! DEFINITION. The commands that are one GDP request each, or one write of an object that has a row of its own, the cycle boundary with
what hosts have waiting for it, and the signatures (15_dictionary_and_hosts.md; the rows' own chapters). -/

namespace Sys2Proof.Machine

/-! ### Requests (15 R408) -/

/-- A write of a number to an object of the request's node. -/
def State.hostWrite (s : State) (r : Req) (key v : Nat) : State :=
  match rowOf ((partOf r.node.toNat).getD .cvc).kind key with
  | some row => s.serve r (.write false key row.ty.code 0 true (beBytes row.ty.size v))
  | none => s.serve r (.write false key 0 0 true [])

/-- A write of a whole DOMAIN to an object of the request's node. -/
def State.hostBytes (s : State) (r : Req) (key : Nat) (bs : List Byte) : State :=
  s.serve r (.write false key ObjType.domain.code 0 true (bs.map BitVec.toNat))

/-- A service WRITE of a value at a hub or cell, which answers as SERVICE_WRITE does (09 R244). -/
def State.svcWrite (s : State) (q : Part) (key : Nat) (bs : List Nat) : State :=
  match q with
  | .cvc => s
  | q => if s.plant.up q then { s with plant := (s.plant.nodeWrite q key bs).2 }.softAfter q else s

/-- A write of a number, from a host or by service frame. -/
def State.rowWrite (s : State) (w : WSrc) (key v : Nat) : State :=
  match w with
  | .host r => s.hostWrite r key v
  | .service q => s.svcWrite q key (beBytes (match rowOf q.kind key with | some row => row.ty.size | none => 0) v)

/-- A write of bytes, from a host or by service frame. -/
def State.rowBytes (s : State) (w : WSrc) (key : Nat) (bs : List Byte) : State :=
  match w with
  | .host r => s.hostBytes r key bs
  | .service q => s.svcWrite q key (bs.map BitVec.toNat)

/-- READ (15 R408). -/
def execRead (r : Req) (idx : BitVec 16) (sub : Byte) (off : BitVec 32) (maxLen : BitVec 16) (s : State) :
    Host.Outcome State Fault Refusal :=
  .next (s.serve r (.read (idx.toNat * 256 + sub.toNat) off.toNat maxLen.toNat))

/-- READ with DESC set (15 R403). -/
def execReadDescriptor (r : Req) (idx : BitVec 16) (sub : Byte) (s : State) : Host.Outcome State Fault Refusal :=
  .next (s.serve r (.desc (idx.toNat * 256 + sub.toNat)))

/-- WRITE (15 R404). -/
def execWrite (r : Req) (idx : BitVec 16) (sub ty : Byte) (off : BitVec 32) (fin_ : Bool) (val : List Byte) (s : State) :
    Host.Outcome State Fault Refusal :=
  .next (s.serve r (.write false (idx.toNat * 256 + sub.toNat) ty.toNat off.toNat fin_ (val.map BitVec.toNat)))

/-- WRITE with B set (15 R417). -/
def execBatchedWrite (r : Req) (idx : BitVec 16) (sub ty : Byte) (val : List Byte) (s : State) :
    Host.Outcome State Fault Refusal :=
  .next (s.serve r (.write true (idx.toNat * 256 + sub.toNat) ty.toNat 0 true (val.map BitVec.toNat)))

/-- READ_BLOCK (15 R409). -/
def execReadBlock (r : Req) (idx : BitVec 16) (sub count : Byte) (off : BitVec 32) (maxLen : BitVec 16) (s : State) :
    Host.Outcome State Fault Refusal :=
  .next (s.serve r (.block (idx.toNat * 256 + sub.toNat) count.toNat off.toNat maxLen.toNat))

/-- BATCH_OPEN (15 R417). -/
def execBatchOpen (r : Req) (s : State) : Host.Outcome State Fault Refusal := .next (s.serve r .batchOpen)

/-- BATCH_COMMIT (15 R418). -/
def execBatchCommit (r : Req) (bseq : BitVec 32) (s : State) : Host.Outcome State Fault Refusal :=
  .next (s.serve r (.batchCommit bseq.toNat))

/-- BATCH_ABORT (15 R418). -/
def execBatchAbort (r : Req) (bseq : BitVec 32) (s : State) : Host.Outcome State Fault Refusal :=
  .next (s.serve r (.batchAbort bseq.toNat))

/-- CLAIM (15 R413). -/
def execClaim (r : Req) (prio : Byte) (s : State) : Host.Outcome State Fault Refusal := .next (s.serve r (.claim prio.toNat))

/-- RENEW (15 R414). -/
def execRenew (r : Req) (s : State) : Host.Outcome State Fault Refusal := .next (s.serve r .renew)

/-- YIELD (15 R415). -/
def execYield (r : Req) (succ : BitVec 64) (s : State) : Host.Outcome State Fault Refusal := .next (s.serve r (.yield succ.toNat))

/-- SUBSCRIBE (15 R420). -/
def execSubscribe (r : Req) (idx : BitVec 16) (sub mode : Byte) (period : BitVec 16) (s : State) :
    Host.Outcome State Fault Refusal :=
  .next (s.serve r (.subscribe (idx.toNat * 256 + sub.toNat) mode.toNat period.toNat))

/-! ### The converter (02 R45) -/

/-- CHARGE: a write of 1 to conv.request. -/
def execCharge (r : Req) (s : State) : Host.Outcome State Fault Refusal := .next (s.hostWrite r K.convRequest 1)

/-- DEBLOCK: a write of 2 to conv.request. -/
def execDeblock (r : Req) (s : State) : Host.Outcome State Fault Refusal := .next (s.hostWrite r K.convRequest 2)

/-- BLOCK: a write of 3 to conv.request. -/
def execBlock (r : Req) (s : State) : Host.Outcome State Fault Refusal := .next (s.hostWrite r K.convRequest 3)

/-- STOP: a write of 4 to conv.request. -/
def execStop (r : Req) (s : State) : Host.Outcome State Fault Refusal := .next (s.hostWrite r K.convRequest 4)

/-- RESET_TRIP: a write of 5 to conv.request. -/
def execResetTrip (r : Req) (s : State) : Host.Outcome State Fault Refusal := .next (s.hostWrite r K.convRequest 5)

/-! ### Harp, loops and injector (03 R73, 04 R88, R90) -/

/-- LOOP_APPLY_KEEP: a write of 1 to loop.apply of an arm (04 R88). -/
def execLoopApplyKeep (r : Req) (a : Arm) (s : State) : Host.Outcome State Fault Refusal := .next (s.hostWrite r (K.loopApply + a.val) 1)

/-- LOOP_APPLY_BQ_RESET: a write of 2 to loop.apply of an arm (04 R88). -/
def execLoopApplyBqReset (r : Req) (a : Arm) (s : State) : Host.Outcome State Fault Refusal := .next (s.hostWrite r (K.loopApply + a.val) 2)

/-- LOOP_APPLY_FULL_RESET: a write of 3 to loop.apply of an arm (04 R88). -/
def execLoopApplyFullReset (r : Req) (a : Arm) (s : State) : Host.Outcome State Fault Refusal := .next (s.hostWrite r (K.loopApply + a.val) 3)

/-- HARP_APPLY: a write of 1 to the apply object of a side (03 R73). -/
def execHarpApply (r : Req) (side : Fin 2) (s : State) : Host.Outcome State Fault Refusal := .next (s.hostWrite r (K.harpApplyA + side.val) 1)

/-- HARP_FLAGS_CLEAR: a write to harp.flags_clear of an arm (03 R75). -/
def execHarpFlagsClear (r : Req) (a : Arm) (m : BitVec 16) (s : State) : Host.Outcome State Fault Refusal :=
  .next (s.hostWrite r (K.harpFlagsClear + a.val) m.toNat)

/-- LOOP_FLAGS_CLEAR: a write to loop.flags_clear of an arm (04 R97). -/
def execLoopFlagsClear (r : Req) (a : Arm) (m : BitVec 16) (s : State) : Host.Outcome State Fault Refusal :=
  .next (s.hostWrite r (K.loopFlagsClear + a.val) m.toNat)

/-- INJ_START: a write of 1 to loop.inj_ctrl (04 R90). -/
def execInjStart (r : Req) (s : State) : Host.Outcome State Fault Refusal := .next (s.hostWrite r K.loopInjCtrl 1)

/-- INJ_STOP: a write of 2 to loop.inj_ctrl (04 R93). -/
def execInjStop (r : Req) (s : State) : Host.Outcome State Fault Refusal := .next (s.hostWrite r K.loopInjCtrl 2)

/-! ### The Vat, packages, the calendar (05 R124, R127, R131, 10 R287, R288) -/

/-- VAT_MOVE: a write to vat.move (05 R124). -/
def execVatMove (r : Req) (v : BitVec 32) (s : State) : Host.Outcome State Fault Refusal := .next (s.hostWrite r K.vatMove v.toNat)

/-- VAT_REARM: a write to vat.rearm (05 R131). -/
def execVatRearm (r : Req) (v : BitVec 16) (s : State) : Host.Outcome State Fault Refusal := .next (s.hostWrite r K.vatRearm v.toNat)

/-- VAT_FLAGS_CLEAR: a write to vat.flags_clear (05 R131). -/
def execVatFlagsClear (r : Req) (v : BitVec 16) (s : State) : Host.Outcome State Fault Refusal := .next (s.hostWrite r K.vatFlagsClear v.toNat)

/-- ENGINE_PACKAGE: a write to eng.package (05 R127). -/
def execEnginePackage (r : Req) (bytes : List Byte) (s : State) : Host.Outcome State Fault Refusal := .next (s.hostBytes r K.engPackage bytes)

/-- CAL_APPLY: a write of 1 to time.cal_apply (10 R288). -/
def execCalApply (r : Req) (s : State) : Host.Outcome State Fault Refusal := .next (s.hostWrite r K.timeCalApply 1)

/-- CAL_S_READ: a read of time.cal_s, which latches time.cal_ns (10 R287). -/
def execCalSRead (r : Req) (s : State) : Host.Outcome State Fault Refusal := .next (s.serve r (.read K.timeCalS 0 0))

/-! ### Lanes and slot tables (08 R203, 09 R251) -/

/-- PRBS_CLEAR: a write of 1 to lane.prbs_clear (08 R203). -/
def execPrbsClear (w : WSrc) (lane : Fin 52) (v : BitVec 8) (s : State) : Host.Outcome State Fault Refusal :=
  .next (s.rowWrite w (laneKey lane.val 0x11) v.toNat)

/-- SLOT_SWITCH_AT: a write to slot.switch_at of a table (09 R251). -/
def execSlotSwitchAt (w : WSrc) (t : Fin 4) (v : BitVec 32) (s : State) : Host.Outcome State Fault Refusal :=
  .next (s.rowWrite w ((0x3A10 + t.val) * 256 + 0x22) v.toNat)

/-! ### Safety images and signatures (11 R316, 16 R439) -/

/-- IMAGE_STAGE: a write to rind.image_stage (11 R316). -/
def execImageStage (r : Req) (bytes : List Byte) (s : State) : Host.Outcome State Fault Refusal := .next (s.hostBytes r K.rindImageStage bytes)

/-- IMAGE_ARM: a write to rind.image_arm (11 R316). -/
def execImageArm (r : Req) (v : BitVec 32) (s : State) : Host.Outcome State Fault Refusal := .next (s.hostWrite r K.rindImageArm v.toNat)

/-- IMAGE_COMMIT: a write to rind.image_commit (11 R316). -/
def execImageCommit (r : Req) (v : BitVec 16) (s : State) : Host.Outcome State Fault Refusal := .next (s.hostWrite r K.rindImageCommit v.toNat)

/-- SIGNATURE_VERIFIED: the verification of a staged image ends (16 R439): 0 firmware, 1 engine package, 2 safety image, 3 dictionary
image (log entry 8). -/
def execSignatureVerified (kind : Fin 4) (q : Part) (ok : Bool) (s : State) : Host.Outcome State Fault Refusal :=
  s.onUp q (fun p =>
    match kind.val with
    | 0 => p.firmwareVerified q ok
    | 1 => if q = .cvc then p.packageVerified ok else p
    | 2 => if q = .cvc then p.safetyVerified ok else p
    | _ => p.dictVerified q ok)

/-! ### Faults and the Cave (12 R338, R342, R351, R352) -/

/-- FAULT_ACK: a write to fault.ack (12 R338, R343). -/
def execFaultAck (w : WSrc) (v : BitVec 16) (s : State) : Host.Outcome State Fault Refusal := .next (s.rowWrite w K.faultAck v.toNat)

/-- EMERG_CLEAR: a write to fault.emerg_clear (12 R342). -/
def execEmergClear (r : Req) (v : BitVec 16) (s : State) : Host.Outcome State Fault Refusal := .next (s.hostWrite r K.faultEmergClear v.toNat)

/-- CAVE_CLEAR: a write to cave.clear (12 R351). -/
def execCaveClear (w : WSrc) (v : BitVec 32) (s : State) : Host.Outcome State Fault Refusal := .next (s.rowWrite w K.caveClear v.toNat)

/-- CAVE_REC_READ: a read of cave.rec, which advances cave.sel (12 R352). -/
def execCaveRecRead (w : WSrc) (s : State) : Host.Outcome State Fault Refusal :=
  match w with
  | .host r => .next (s.serve r (.read K.caveRec 0 0))
  | .service q => s.onUp q (fun p => if q = .cvc then p else (p.caveRead q).2)

/-! ### Acquisition and capture (13 R361, R365, R367, R374) -/

/-- ACQ_ARM: a write of 1 to acq.ctrl. -/
def execAcqArm (r : Req) (s : State) : Host.Outcome State Fault Refusal := .next (s.hostWrite r K.acqCtrl 1)

/-- ACQ_STOP: a write of 2 to acq.ctrl. -/
def execAcqStop (r : Req) (s : State) : Host.Outcome State Fault Refusal := .next (s.hostWrite r K.acqCtrl 2)

/-- ACQ_FORCE: a write of 3 to acq.ctrl. -/
def execAcqForce (r : Req) (s : State) : Host.Outcome State Fault Refusal := .next (s.hostWrite r K.acqCtrl 3)

/-- ACQ_RELEASE: a write of 4 to acq.ctrl. -/
def execAcqRelease (r : Req) (s : State) : Host.Outcome State Fault Refusal := .next (s.hostWrite r K.acqCtrl 4)

/-- The value of a kind 5 channel's object; none when it cannot be read (13 R359, R361). -/
def Plant.acqObject (p : Plant) (w : Nat) : Option Int :=
  let key := w % 2 ^ 24
  if srcObjOk key then some (signed 32 (unsigned 64 (p.view .cvc key))) else none

/-- OBJECT_SAMPLE: at S + acq.obj_at the kind 5 channels read their objects and deliver their samples (13 R361). -/
def execObjectSample (s : State) : Host.Outcome State Fault Refusal :=
  let p := s.plant
  if !p.up .cvc ∨ !p.acqCycleDue p.k then .next s
  else .next (p.acqChans.foldl (fun s ch =>
    let p := s.plant
    let w := p.acqSrc ch
    if srcKind w = 5 then s.acqSample ch (p.acqObject w) ((p.sOf p.k + p.c K.acqObjAt) * 256 - p.acqSkewOf ch) else s) s)

/-- CAP_ARM: a write of 1 to cap.ctrl of a cell (13 R374). -/
def execCapArm (w : WSrc) (s : State) : Host.Outcome State Fault Refusal := .next (s.rowWrite w K.capCtrl 1)

/-- CAP_STOP: a write of 2 to cap.ctrl of a cell (13 R374). -/
def execCapStop (w : WSrc) (s : State) : Host.Outcome State Fault Refusal := .next (s.rowWrite w K.capCtrl 2)

/-- CAP_FORCE: a write of 3 to cap.ctrl of a cell (13 R374). -/
def execCapForce (w : WSrc) (s : State) : Host.Outcome State Fault Refusal := .next (s.rowWrite w K.capCtrl 3)

/-! ### Cells (06 R144, R151, R155, R158, R160, R161, 07 R184) -/

/-- TRIP_CLEAR: a write to trip.clear (06 R155). -/
def execTripClear (w : WSrc) (m : BitVec 8) (s : State) : Host.Outcome State Fault Refusal := .next (s.rowWrite w K.tripClear m.toNat)

/-- BYP_FIRE: a write to byp.fire (06 R158). -/
def execBypFire (w : WSrc) (v : BitVec 16) (s : State) : Host.Outcome State Fault Refusal := .next (s.rowWrite w K.bypFire v.toNat)

/-- BYP_UNFIRE: a write to byp.unfire (06 R160). -/
def execBypUnfire (w : WSrc) (v : BitVec 16) (s : State) : Host.Outcome State Fault Refusal := .next (s.rowWrite w K.bypUnfire v.toNat)

/-- FB_CLEAR: a write to sw.fb_clear (06 R151). -/
def execFbClear (w : WSrc) (m : BitVec 8) (s : State) : Host.Outcome State Fault Refusal := .next (s.rowWrite w K.swFbClear m.toNat)

/-- BENCH: a write to sw.bench (06 R161). -/
def execBench (w : WSrc) (v : BitVec 8) (s : State) : Host.Outcome State Fault Refusal := .next (s.rowWrite w K.swBench v.toNat)

/-- PRD_WR: a write to pwm.prd_wr (06 R144, R161). -/
def execPrdWr (w : WSrc) (v : BitVec 16) (s : State) : Host.Outcome State Fault Refusal := .next (s.rowWrite w K.pwmPrdWr v.toNat)

/-- CMP_WR: a write to pwm.cmp_wr (06 R144, R161). -/
def execCmpWr (w : WSrc) (v : BitVec 32) (s : State) : Host.Outcome State Fault Refusal := .next (s.rowWrite w K.pwmCmpWr v.toNat)

/-- PWR_REQUEST: a write to pwr.request (07 R184). -/
def execPwrRequest (w : WSrc) (v : BitVec 8) (s : State) : Host.Outcome State Fault Refusal := .next (s.rowWrite w K.pwrRequest v.toNat)

/-! ### Reset, stores, firmware, keys (16 R431, R439, R441, R443, R444, R447) -/

/-- SOFT_RESET: a write to rst.soft (16 R431). -/
def execSoftReset (w : WSrc) (v : BitVec 16) (s : State) : Host.Outcome State Fault Refusal := .next (s.rowWrite w K.rstSoft v.toNat)

/-- STORE_SAVE: a write to store.save (16 R441). -/
def execStoreSave (w : WSrc) (v : BitVec 16) (s : State) : Host.Outcome State Fault Refusal := .next (s.rowWrite w K.storeSave v.toNat)

/-- STORE_RESTORE: a write to store.restore (16 R443). -/
def execStoreRestore (w : WSrc) (v : BitVec 16) (s : State) : Host.Outcome State Fault Refusal := .next (s.rowWrite w K.storeRestore v.toNat)

/-- STORE_IMAGE: a write to store.image (16 R444). -/
def execStoreImage (w : WSrc) (bytes : List Byte) (s : State) : Host.Outcome State Fault Refusal := .next (s.rowBytes w K.storeImage bytes)

/-- FW_LOAD: a write to boot.fw_load (16 R447). -/
def execFwLoad (w : WSrc) (bytes : List Byte) (s : State) : Host.Outcome State Fault Refusal := .next (s.rowBytes w K.bootFwLoad bytes)

/-- KEY_PROG: a write to boot.key_prog of slot 2 or 3 (16 R439). -/
def execKeyProg (w : WSrc) (slot : Fin 2) (hash : List Byte) (s : State) : Host.Outcome State Fault Refusal :=
  .next (s.rowBytes w (K.bootKeyProg + slot.val) hash)

/-- KEY_REVOKE: a write to boot.key_revoke (16 R439). -/
def execKeyRevoke (w : WSrc) (v : BitVec 8) (s : State) : Host.Outcome State Fault Refusal := .next (s.rowWrite w K.bootKeyRevoke v.toNat)

/-! ### The boundary -/

/-- What is written between a boundary and the next: a batch whose commit was accepted, and a dictionary image (15 R418, 16 R444). -/
def Plant.afterBoundary (p : Plant) : Plant :=
  let p := if p.cvc.gdp.committing then p.writeBatch else p
  if (p.node .cvc).power.imageDue then
    (p.onPower .cvc (fun w => { w with imageDue := false })).writeImage .cvc
  else p

/-- CYCLE_BOUNDARY: S of a cycle in the CVC (02 R28, R29), and what is written after it. -/
def execCycleBoundary (s : State) : Host.Outcome State Fault Refusal :=
  if s.plant.up .cvc then
    let t := s.cycleBoundary
    .next ({ t with plant := t.plant.afterBoundary }.softAfter .cvc)
  else .next s

end Sys2Proof.Machine
end

