-- ==== Sys2Proof/Machine/Flags.lean ====
section
/-! DEFINITION. The floating-point operations of a control engine and the accrued flags of fcsr (05_control_engines_and_vat.md
R101): single precision of the published ISA the manual names (log entry 40). A value is a sign, a whole number and a power of
2; every operation is exact and rounded once. -/

namespace Sys2Proof.Machine

/-- A single precision value. -/
inductive FVal where
  | nan (signaling : Bool)
  | inf (neg : Bool)
  | fin (neg : Bool) (m : Nat) (e : Int)
  deriving DecidableEq, Repr

/-- The canonical NaN. -/
def fNaN : Nat := 0x7FC00000

/-- Flag NX, inexact. -/
def fNX : Nat := 1
/-- Flag UF, underflow. -/
def fUF : Nat := 2
/-- Flag OF, overflow. -/
def fOF : Nat := 4
/-- Flag DZ, division by zero. -/
def fDZ : Nat := 8
/-- Flag NV, invalid. -/
def fNV : Nat := 16

/-- Bit 31 of a register for a sign. -/
def signBit (neg : Bool) : Nat := if neg then 0x80000000 else 0

/-- The value a register holds. -/
def unpackF (b : Nat) : FVal :=
  let s := bitOf b 31
  let x := bits b 30 23
  let m := bits b 22 0
  if x = 255 then (if m = 0 then .inf s else .nan (!bitOf b 22))
  else if x = 0 then .fin s m (-149)
  else .fin s (m + 0x800000) ((x : Int) - 150)

/-- The opposite sign. -/
def FVal.neg : FVal → FVal
  | .nan q => .nan q
  | .inf s => .inf !s
  | .fin s m e => .fin (!s) m e

/-- A NaN. -/
def FVal.isNaN : FVal → Bool
  | .nan _ => true
  | _ => false

/-- A signaling NaN. -/
def FVal.isSNaN : FVal → Bool
  | .nan q => q
  | _ => false

/-- A NaN operand's outcome: the canonical NaN, invalid for a signaling one. -/
def nanOut (xs : List FVal) : Nat × Nat := (fNaN, if xs.any FVal.isSNaN then fNV else 0)

/-- m ÷ 2^d rounded in mode rm (0 nearest even, 1 to zero, 2 down, 3 up, 4 nearest with halves away), and whether it was
inexact; `sticky` says that the value lies a little above m. -/
def roundBits (rm : Nat) (neg : Bool) (m d : Nat) (sticky : Bool) : Nat × Bool :=
  let q := m >>> d
  let r := m % 2 ^ d
  let one := 2 ^ d
  let inexact := decide (r ≠ 0) || sticky
  let above := decide (one < 2 * r) || (decide (2 * r = one) && sticky)
  let half := decide (2 * r = one) && !sticky
  let up := match rm with
    | 0 => above || (half && decide (q % 2 = 1))
    | 1 => false
    | 2 => neg && inexact
    | 3 => !neg && inexact
    | _ => above || half
  (if up then q + 1 else q, inexact)

/-- The register and flags of ± m × 2^e (a little more in size when sticky) rounded to single precision; tiny is judged after
rounding. -/
def roundF (rm : Nat) (neg : Bool) (m : Nat) (e : Int) (sticky : Bool) : Nat × Nat :=
  if m = 0 then (signBit neg, 0)
  else
    let top := e + Nat.log2 m
    let q := max (top - 23) (-149)
    let (m, e, d) := if e < q then (m, e, (q - e).toNat) else (m * 2 ^ (e - q).toNat, q, 0)
    let (r, nx) := roundBits rm neg m d sticky
    let (r, q) := if r = 0x1000000 then (0x800000, q + 1) else (r, q)
    if 104 < q then
      let toMax := match rm with | 1 => true | 2 => !neg | 3 => neg | _ => false
      (signBit neg + (if toMax then 0x7F7FFFFF else 0x7F800000), fOF + fNX)
    else
      let free := (roundBits rm neg m (top - 23 - e).toNat sticky).1
      let tiny := decide (top < -127) || (decide (top = -127) && decide (free < 0x1000000))
      let b := if r < 0x800000 then r else (q + 150).toNat * 0x800000 + (r - 0x800000)
      (signBit neg + b, (if nx then fNX else 0) + (if nx && tiny then fUF else 0))

/-- The signed whole number of a sign and a size. -/
def signedM (neg : Bool) (m : Nat) : Int := if neg then -(m : Int) else m

/-- A sum of two values that are no NaN. -/
def addV (rm : Nat) (x y : FVal) : Nat × Nat :=
  match x, y with
  | .inf s, .inf t => if s = t then (signBit s + 0x7F800000, 0) else (fNaN, fNV)
  | .inf s, _ => (signBit s + 0x7F800000, 0)
  | _, .inf t => (signBit t + 0x7F800000, 0)
  | .fin s m e, .fin t n f =>
    let g := min e f
    let v := signedM s (m * 2 ^ (e - g).toNat) + signedM t (n * 2 ^ (f - g).toNat)
    if v = 0 then (signBit (if s = t then s else rm = 2), 0) else roundF rm (decide (v < 0)) v.natAbs g false
  | _, _ => (fNaN, 0)

/-- The exact product of two values that are no NaN; none for infinity times zero. -/
def mulV (x y : FVal) : Option FVal :=
  match x, y with
  | .fin s m e, .fin t n f => some (.fin (s != t) (m * n) (e + f))
  | .inf s, .inf t => some (.inf (s != t))
  | .inf s, .fin t n _ => if n = 0 then none else some (.inf (s != t))
  | .fin s m _, .inf t => if m = 0 then none else some (.inf (s != t))
  | _, _ => none

/-- FADD. -/
def fAdd (rm a b : Nat) : Nat × Nat :=
  let x := unpackF a
  let y := unpackF b
  if x.isNaN || y.isNaN then nanOut [x, y] else addV rm x y

/-- FSUB. -/
def fSub (rm a b : Nat) : Nat × Nat :=
  let x := unpackF a
  let y := unpackF b
  if x.isNaN || y.isNaN then nanOut [x, y] else addV rm x y.neg

/-- FMUL. -/
def fMul (rm a b : Nat) : Nat × Nat :=
  let x := unpackF a
  let y := unpackF b
  if x.isNaN || y.isNaN then nanOut [x, y]
  else match mulV x y with
    | some (.fin s m e) => roundF rm s m e false
    | some (.inf s) => (signBit s + 0x7F800000, 0)
    | _ => (fNaN, fNV)

/-- The four fused forms: ± (a × b) ± c, rounded once. -/
def fFma (rm a b c : Nat) (negProd negC : Bool) : Nat × Nat :=
  let x := unpackF a
  let y := unpackF b
  let z := unpackF c
  let prod := mulV x y
  if x.isNaN || y.isNaN then nanOut [x, y, z]
  else match prod with
    | none => (fNaN, fNV)
    | some pr =>
      if z.isNaN then nanOut [z]
      else addV rm (if negProd then pr.neg else pr) (if negC then z.neg else z)

/-- FDIV. -/
def fDiv (rm a b : Nat) : Nat × Nat :=
  match unpackF a, unpackF b with
  | .fin s m e, .fin t n f =>
    if n = 0 then (if m = 0 then (fNaN, fNV) else (signBit (s != t) + 0x7F800000, fDZ))
    else roundF rm (s != t) (m * 2 ^ 64 / n) (e - f - 64) (decide (m * 2 ^ 64 % n ≠ 0))
  | .inf s, .fin t _ _ => (signBit (s != t) + 0x7F800000, 0)
  | .fin s _ _, .inf t => (signBit (s != t), 0)
  | .inf _, .inf _ => (fNaN, fNV)
  | x, y => nanOut [x, y]

/-- The whole square root below r + 2^b, bit by bit. -/
def isqrt (n : Nat) : Nat → Nat → Nat
  | 0, r => r
  | b + 1, r => isqrt n b (if (r + 2 ^ b) * (r + 2 ^ b) ≤ n then r + 2 ^ b else r)

/-- FSQRT. -/
def fSqrt (rm a : Nat) : Nat × Nat :=
  match unpackF a with
  | .fin s m e =>
    if m = 0 then (signBit s, 0)
    else if s then (fNaN, fNV)
    else
      let sh : Nat := if e % 2 = 0 then 64 else 65
      let n := m * 2 ^ sh
      let r := isqrt n 46 0
      roundF rm false r ((e - sh) / 2) (decide (r * r ≠ n))
  | .inf s => if s then (fNaN, fNV) else (0x7F800000, 0)
  | x => nanOut [x]

/-- x < y, of values that are no NaN. -/
def ltV (x y : FVal) : Bool :=
  match x, y with
  | .inf s, .inf t => s && !t
  | .inf s, .fin _ _ _ => s
  | .fin _ _ _, .inf t => !t
  | .fin s m e, .fin t n f =>
    let g := min e f
    decide (signedM s (m * 2 ^ (e - g).toNat) < signedM t (n * 2 ^ (f - g).toNat))
  | _, _ => false

/-- FMIN (`hi` false) and FMAX: −0 lies below +0, a NaN beside a number gives the number. -/
def fMinMax (hi : Bool) (a b : Nat) : Nat × Nat :=
  let x := unpackF a
  let y := unpackF b
  let fl := if x.isSNaN || y.isSNaN then fNV else 0
  if x.isNaN && y.isNaN then (fNaN, fl)
  else if x.isNaN then (b, fl)
  else if y.isNaN then (a, fl)
  else
    let less := ltV x y || (!ltV y x && bitOf a 31)
    (if less != hi then a else b, fl)

/-- FEQ, FLT and FLE (0, 1, 2): FEQ is invalid for a signaling NaN, the others for any. -/
def fCmp (op a b : Nat) : Nat × Nat :=
  let x := unpackF a
  let y := unpackF b
  if x.isNaN || y.isNaN then (0, if op ≠ 0 ∨ x.isSNaN ∨ y.isSNaN then fNV else 0)
  else
    let lt := ltV x y
    let gt := ltV y x
    let yes := match op with | 0 => !lt && !gt | 1 => lt | _ => !gt
    (if yes then 1 else 0, 0)

/-- FCLASS. -/
def fClass (a : Nat) : Nat :=
  match unpackF a with
  | .nan q => if q then 256 else 512
  | .inf s => if s then 1 else 128
  | .fin s m _ =>
    let k := if m = 0 then 0 else if m < 0x800000 then 1 else 2
    2 ^ (if s then 3 - k else 4 + k)

/-- FCVT.W.S and FCVT.WU.S: out of range, infinite and NaN operands saturate and are invalid. -/
def fToInt (rm : Nat) (uns : Bool) (a : Nat) : Nat × Nat :=
  let lo : Int := if uns then 0 else -2147483648
  let hi : Int := if uns then 4294967295 else 2147483647
  match unpackF a with
  | .nan _ => (unsigned 32 hi, fNV)
  | .inf s => (unsigned 32 (if s then lo else hi), fNV)
  | .fin s m e =>
    let (n, nx) := if 0 ≤ e then (m * 2 ^ e.toNat, false) else roundBits rm s m (-e).toNat false
    let v := signedM s n
    if v < lo then (unsigned 32 lo, fNV) else if hi < v then (unsigned 32 hi, fNV)
    else (unsigned 32 v, if nx then fNX else 0)

/-- FCVT.S.W and FCVT.S.WU. -/
def fOfInt (rm : Nat) (uns : Bool) (x : Nat) : Nat × Nat :=
  let v : Int := if uns then (x : Int) else signed 32 x
  roundF rm (decide (v < 0)) v.natAbs 0 false

end Sys2Proof.Machine
end

