-- ==== Sys2Proof/Machine/Operands.lean ====
section
/-! DEFINITION. The operands of an engine instruction: fields and immediates of a word, the expansion of a compressed word, and
the engine's address map (05_control_engines_and_vat.md R101, R105–R107; 11_rind_safety.md R321). The encodings are those of the
published ISA that R101 names (log entry 40). -/

namespace Sys2Proof.Machine

/-! ### Fields and immediates -/

/-- rd of a word. -/
def fRd (w : Nat) : Nat := bits w 11 7
/-- rs1 of a word. -/
def fRs1 (w : Nat) : Nat := bits w 19 15
/-- rs2 of a word. -/
def fRs2 (w : Nat) : Nat := bits w 24 20
/-- funct3 of a word. -/
def fF3 (w : Nat) : Nat := bits w 14 12
/-- funct7 of a word. -/
def fF7 (w : Nat) : Nat := bits w 31 25
/-- The immediate of an I-type word. -/
def immI (w : Nat) : Int := signed 12 (bits w 31 20)
/-- The immediate of an S-type word. -/
def immS (w : Nat) : Int := signed 12 (bits w 31 25 * 32 + bits w 11 7)
/-- The immediate of a B-type word. -/
def immB (w : Nat) : Int := signed 13 (bits w 31 31 * 4096 + bits w 7 7 * 2048 + bits w 30 25 * 32 + bits w 11 8 * 2)
/-- The immediate of a U-type word. -/
def immU (w : Nat) : Nat := bits w 31 12 * 4096
/-- The immediate of a J-type word. -/
def immJ (w : Nat) : Int := signed 21 (bits w 31 31 * 1048576 + bits w 19 12 * 4096 + bits w 20 20 * 2048 + bits w 30 21 * 2)

/-! ### Compressed words -/

/-- An R-type word. -/
def encR (f7 rs2 rs1 f3 rd op : Nat) : Nat := f7 * 2 ^ 25 + rs2 * 2 ^ 20 + rs1 * 2 ^ 15 + f3 * 4096 + rd * 128 + op
/-- An I-type word. -/
def encI (imm : Int) (rs1 f3 rd op : Nat) : Nat := unsigned 12 imm * 2 ^ 20 + rs1 * 2 ^ 15 + f3 * 4096 + rd * 128 + op
/-- An S-type word. -/
def encS (imm rs2 rs1 f3 op : Nat) : Nat :=
  imm / 32 * 2 ^ 25 + rs2 * 2 ^ 20 + rs1 * 2 ^ 15 + f3 * 4096 + imm % 32 * 128 + op
/-- A J-type word: JAL. -/
def encJ (imm : Int) (rd : Nat) : Nat :=
  let x := unsigned 21 imm
  bits x 20 20 * 2 ^ 31 + bits x 10 1 * 2 ^ 21 + bits x 11 11 * 2 ^ 20 + bits x 19 12 * 4096 + rd * 128 + 0x6F
/-- A B-type word: a branch against x0. -/
def encB (imm : Int) (rs1 f3 : Nat) : Nat :=
  let x := unsigned 13 imm
  bits x 12 12 * 2 ^ 31 + bits x 10 5 * 2 ^ 25 + rs1 * 2 ^ 15 + f3 * 4096 + bits x 4 1 * 256 + bits x 11 11 * 128 + 0x63

/-- The signed immediate of C.ADDI and its like. -/
def cImm (h : Nat) : Int := signed 6 (bits h 12 12 * 32 + bits h 6 2)
/-- The offset of C.J and C.JAL. -/
def cJ (h : Nat) : Int :=
  signed 12 (bits h 12 12 * 2048 + bits h 11 11 * 16 + bits h 10 9 * 256 + bits h 8 8 * 1024 + bits h 7 7 * 64 + bits h 6 6 * 128 +
    bits h 5 3 * 2 + bits h 2 2 * 32)
/-- The offset of C.BEQZ and C.BNEZ. -/
def cB (h : Nat) : Int :=
  signed 9 (bits h 12 12 * 256 + bits h 11 10 * 8 + bits h 6 5 * 64 + bits h 4 3 * 2 + bits h 2 2 * 32)
/-- The offset of C.LW and its like. -/
def cLw (h : Nat) : Nat := bits h 12 10 * 8 + bits h 6 6 * 4 + bits h 5 5 * 64
/-- The offset of C.LWSP and C.FLWSP. -/
def cLwsp (h : Nat) : Nat := bits h 12 12 * 32 + bits h 6 4 * 4 + bits h 3 2 * 64
/-- The offset of C.SWSP and C.FSWSP. -/
def cSwsp (h : Nat) : Nat := bits h 12 9 * 4 + bits h 8 7 * 64

/-- Quadrant 0 of the compressed words. -/
def expand0 (h : Nat) : Option Nat :=
  let a := 8 + bits h 9 7
  let d := 8 + bits h 4 2
  match bits h 15 13 with
  | 0 =>
    let imm := bits h 12 11 * 16 + bits h 10 7 * 64 + bits h 6 6 * 4 + bits h 5 5 * 8
    if imm = 0 then none else some (encI imm 2 0 d 0x13)
  | 2 => some (encI (cLw h) a 2 d 0x03)
  | 3 => some (encI (cLw h) a 2 d 0x07)
  | 6 => some (encS (cLw h) d a 2 0x23)
  | 7 => some (encS (cLw h) d a 2 0x27)
  | _ => none

/-- Quadrant 1 of the compressed words. -/
def expand1 (h : Nat) : Option Nat :=
  let r := bits h 11 7
  let a := 8 + bits h 9 7
  let b := 8 + bits h 4 2
  match bits h 15 13 with
  | 0 => some (encI (cImm h) r 0 r 0x13)
  | 1 => some (encJ (cJ h) 1)
  | 2 => some (encI (cImm h) 0 0 r 0x13)
  | 3 =>
    if bits h 12 12 = 0 ∧ bits h 6 2 = 0 then none
    else if r = 2 then
      some (encI (signed 10 (bits h 12 12 * 512 + bits h 6 6 * 16 + bits h 5 5 * 64 + bits h 4 3 * 128 + bits h 2 2 * 32)) 2 0 2 0x13)
    else some (unsigned 20 (cImm h) * 4096 + r * 128 + 0x37)
  | 4 =>
    match bits h 11 10 with
    | 0 => if bitOf h 12 then none else some (encR 0 (bits h 6 2) a 5 a 0x13)
    | 1 => if bitOf h 12 then none else some (encR 0x20 (bits h 6 2) a 5 a 0x13)
    | 2 => some (encI (cImm h) a 7 a 0x13)
    | _ =>
      if bitOf h 12 then none
      else match bits h 6 5 with
        | 0 => some (encR 0x20 b a 0 a 0x33)
        | 1 => some (encR 0 b a 4 a 0x33)
        | 2 => some (encR 0 b a 6 a 0x33)
        | _ => some (encR 0 b a 7 a 0x33)
  | 5 => some (encJ (cJ h) 0)
  | 6 => some (encB (cB h) a 0)
  | _ => some (encB (cB h) a 1)

/-- Quadrant 2 of the compressed words. -/
def expand2 (h : Nat) : Option Nat :=
  let r := bits h 11 7
  let b := bits h 6 2
  match bits h 15 13 with
  | 0 => if bitOf h 12 then none else some (encR 0 b r 1 r 0x13)
  | 2 => if r = 0 then none else some (encI (cLwsp h) 2 2 r 0x03)
  | 3 => some (encI (cLwsp h) 2 2 r 0x07)
  | 4 =>
    if bitOf h 12 then
      if b ≠ 0 then some (encR 0 b r 0 r 0x33)
      else if r = 0 then some 0x00100073
      else some (encI 0 r 0 1 0x67)
    else if b ≠ 0 then some (encR 0 b 0 0 r 0x33)
    else if r = 0 then none
    else some (encI 0 r 0 0 0x67)
  | 6 => some (encS (cSwsp h) b 2 2 0x23)
  | 7 => some (encS (cSwsp h) b 2 2 0x27)
  | _ => none

/-- The word a compressed one stands for; none for an illegal one. -/
def expand (h : Nat) : Option Nat :=
  match h % 4 with
  | 0 => expand0 h
  | 1 => expand1 h
  | _ => expand2 h

/-! ### The address map (R105) -/

/-- The regions of the map. -/
inductive Region where
  | itcm | dtcm | shared | capture | report | context | rindMirror
  deriving DecidableEq, Repr

/-- The region of an address. -/
def regionOf (a : Nat) : Option Region :=
  if a < 0x10000 then some .itcm
  else if a < 0x20000 then some .dtcm
  else if 0x10000000 ≤ a ∧ a < 0x10800000 then some .shared
  else if 0x20000000 ≤ a ∧ a < 0x22000000 then some .capture
  else if 0x30000000 ≤ a ∧ a < 0x30060000 then some .report
  else if 0x31000000 ≤ a ∧ a < 0x31000C00 then some .context
  else if 0x3F000000 ≤ a ∧ a < 0x3F010000 then some .rindMirror
  else none

/-- A region takes stores and AMOs. -/
def Region.writable : Region → Bool
  | .dtcm => true
  | .shared => true
  | _ => false

/-- The key of a byte that an engine sees as memory. -/
def engKey (e a : Nat) : Nat := if a < 0x20000 then tcmKey e a else a

/-- A word of a report record (R106). -/
def RepRec.word (r : RepRec) : Nat → Nat
  | 0 => unsigned 32 r.v
  | 1 => unsigned 32 r.i
  | 2 =>
    r.seq % 256 * 2 ^ 24 + r.state % 256 * 2 ^ 16 + r.status % 256 * 256 + (if r.compact then 4 else 0) +
      (if r.loss then 2 else 0) + (if r.valid then 1 else 0)
  | _ => r.land % 2 ^ 32

/-- A word of the report area (R106). -/
def Plant.reportWord (p : Plant) (off : Nat) : Nat :=
  (Tab.get (fun _ => default) p.cvc.reports (off / 16)).word (off / 4 % 4)

/-- A word of the arm context window (R107). -/
def Plant.contextWord (p : Plant) (off : Nat) : Nat :=
  let a := off / 256
  let l := p.loop a
  match off % 256 / 4 with
  | 0 => unsigned 32 l.ctxI
  | 1 => unsigned 32 l.u
  | 2 => unsigned 32 l.ctxS
  | 3 => unsigned 32 (p.get .cvc (K.harpNIns + a))
  | 4 => unsigned 32 (p.get .cvc (K.harpFrac + a))
  | 5 => l.seq % 256
  | 6 =>
    (if bitOf (p.c K.cycleHeldArms) a then 4 else 0) + (if bitOf (p.c K.convArmsBlocked) a then 2 else 0) +
      (if p.armUsed a then 1 else 0)
  | _ => 0

/-- The word of a computed region at an address. -/
def Plant.windowWord (p : Plant) (r : Region) (a : Nat) : Nat :=
  match r with
  | .report => p.reportWord (a - 0x30000000)
  | .context => p.contextWord (a - 0x31000000)
  | .rindMirror => Tab.get (fun _ => 0) p.cvc.rind.mirror (a / 4 * 4 - 0x3F000000)
  | _ => 0

/-- n bytes of an aligned address, least significant first. -/
def State.engRead (s : State) (e a n : Nat) (r : Region) : Nat :=
  match r with
  | .itcm => memRead s.mem (engKey e a) n
  | .dtcm => memRead s.mem (engKey e a) n
  | .shared => memRead s.mem (engKey e a) n
  | .capture => memRead s.mem (engKey e a) n
  | r => s.plant.windowWord r a / 2 ^ (8 * (a % 4)) % 2 ^ (8 * n)

/-- A load: the value, or the cause of the exception (R105; log entry 12). -/
def State.engLoadAt (s : State) (e a n : Nat) : Except Nat Nat :=
  match regionOf a with
  | none => .error 5
  | some r => if a % n ≠ 0 then .error 4 else .ok (s.engRead e a n r)

/-- A store or AMO may go to an address: none, or the cause of the exception (R105; log entry 12). -/
def storeCause (a n : Nat) : Option Nat :=
  match regionOf a with
  | some r => if !r.writable then some 7 else if a % n ≠ 0 then some 6 else none
  | none => some 7

/-- Every other engine loses its reservation on a word that is stored to. -/
def Plant.dropResv (p : Plant) (e : Eng) (key : Nat) : Plant :=
  allEngines.foldl (fun p x =>
    if x ≠ e ∧ (p.eng x).regs.resv = some (key / 4) then p.onRegs x (fun r => { r with resv := none }) else p) p

/-- Stores n bytes. -/
def State.engStore (s : State) (e : Eng) (a n v : Nat) : State :=
  { s with mem := memWrite s.mem (engKey e.val a) n v, plant := s.plant.dropResv e (engKey e.val a) }

/-- The instruction at an address of the instruction TCM: its word, expanded when it is compressed, and its length; or the cause
of the exception: 1 for no instruction TCM, 2 for an illegal word (R105). -/
def State.engFetch (s : State) (e pc : Nat) : Except Nat (Nat × Nat) :=
  if 0x10000 ≤ pc then .error 1
  else
    let h := memRead s.mem (tcmKey e pc) 2
    if h % 4 ≠ 3 then
      match expand h with
      | some w => .ok (w, 2)
      | none => .error 2
    else if 0x10000 ≤ pc + 2 then .error 1
    else .ok (h + 65536 * memRead s.mem (tcmKey e (pc + 2)) 2, 4)

end Sys2Proof.Machine
end

