-- ==== Sys2Proof/Machine/Riscv.lean ====
section
/-! DEFINITION. A control engine runs one instruction of the base ISA and its extensions (05_control_engines_and_vat.md R101–R105,
R108, R111): what the manual takes from the published ISA is as that ISA has it (log entry 40). -/

namespace Sys2Proof.Machine

/-- What an instruction leaves: the machine after it, or the cause of the exception it takes. -/
inductive RvOut where
  | done (s : State)
  | trap (cause : Nat)

/-- Changes the station. -/
def State.withPlant (s : State) (f : Plant → Plant) : State := { s with plant := f s.plant }

/-- Writes rd and goes on to the next instruction. -/
def State.rvWb (s : State) (e : Eng) (rd v len : Nat) : RvOut := .done (s.withPlant (fun p => (p.setX e rd v).nextPc e len))

/-- Writes rd and goes to an address; its bit 0 is 0. -/
def State.rvJump (s : State) (e : Eng) (rd link : Nat) (target : Int) : RvOut :=
  .done (s.withPlant (fun p => (p.setX e rd link).onRegs e (fun r => { r with pc := unsigned 32 target / 2 * 2 })))

/-- The next instruction and nothing else. -/
def State.rvNop (s : State) (e : Eng) (len : Nat) : RvOut := .done (s.withPlant (fun p => p.nextPc e len))

/-- A floating-point register. -/
def Plant.fReg (p : Plant) (e : Eng) (n : Nat) : Nat := nth (p.eng e).regs.f n

/-- Adds to the accrued flags of fcsr. -/
def Plant.accrue (p : Plant) (e : Eng) (fl : Nat) : Plant := p.onRegs e (fun r => { r with fcsr := r.fcsr ||| fl })

/-- Writes a floating-point register and the flags, and goes on. -/
def State.rvWbF (s : State) (e : Eng) (rd : Nat) (v : Nat × Nat) (len : Nat) : RvOut :=
  .done (s.withPlant (fun p =>
    ((p.onRegs e (fun r => { r with f := r.f.set rd (v.1 % 2 ^ 32) })).accrue e v.2).nextPc e len))

/-- Writes rd from a floating-point operation, and the flags. -/
def State.rvWbX (s : State) (e : Eng) (rd : Nat) (v : Nat × Nat) (len : Nat) : RvOut :=
  .done (s.withPlant (fun p => ((p.setX e rd v.1).accrue e v.2).nextPc e len))

/-! ### Integers -/

/-- 2^32. -/
def two32 : Nat := 4294967296

/-- The base operations by funct3; `alt` picks SUB and SRA. -/
def rvAlu (f3 : Nat) (alt : Bool) (a b : Nat) : Nat :=
  match f3 with
  | 0 => if alt then (a + two32 - b) % two32 else (a + b) % two32
  | 1 => a * 2 ^ (b % 32) % two32
  | 2 => if signed 32 a < signed 32 b then 1 else 0
  | 3 => if a < b then 1 else 0
  | 4 => a ^^^ b
  | 5 => if alt then unsigned 32 (signed 32 a / 2 ^ (b % 32)) else a / 2 ^ (b % 32)
  | 6 => a ||| b
  | _ => a &&& b

/-- The M operations by funct3; a division by zero and the one signed overflow as the ISA gives them. -/
def rvMul (f3 a b : Nat) : Nat :=
  let x := signed 32 a
  let y := signed 32 b
  match f3 with
  | 0 => a * b % two32
  | 1 => unsigned 32 (x * y / (two32 : Int))
  | 2 => unsigned 32 (x * (b : Int) / (two32 : Int))
  | 3 => a * b / two32
  | 4 => if b = 0 then two32 - 1 else unsigned 32 (x.tdiv y)
  | 5 => if b = 0 then two32 - 1 else a / b
  | 6 => if b = 0 then a else unsigned 32 (x.tmod y)
  | _ => if b = 0 then a else a % b

/-- A branch is taken; none for a reserved funct3. -/
def rvBranch (f3 a b : Nat) : Option Bool :=
  match f3 with
  | 0 => some (a == b)
  | 1 => some (a != b)
  | 4 => some (decide (signed 32 a < signed 32 b))
  | 5 => some (!decide (signed 32 a < signed 32 b))
  | 6 => some (decide (a < b))
  | 7 => some (!decide (a < b))
  | _ => none

/-- Size in bytes and sign of a load by funct3. -/
def rvLoadForm (f3 : Nat) : Option (Nat × Bool) :=
  match f3 with
  | 0 => some (1, true)
  | 1 => some (2, true)
  | 2 => some (4, false)
  | 4 => some (1, false)
  | 5 => some (2, false)
  | _ => none

/-- LB, LH, LW, LBU, LHU. -/
def State.rvLoad (s : State) (e : Eng) (w len : Nat) : RvOut :=
  match rvLoadForm (fF3 w) with
  | none => .trap 2
  | some (n, sx) =>
    match s.engLoadAt e.val (unsigned 32 ((s.plant.xReg e (fRs1 w) : Int) + immI w)) n with
    | .error c => .trap c
    | .ok v => s.rvWb e (fRd w) (if sx then unsigned 32 (signed (8 * n) v) else v) len

/-- SB, SH, SW. -/
def State.rvStore (s : State) (e : Eng) (w len : Nat) : RvOut :=
  if 3 ≤ fF3 w then .trap 2
  else
    let a := unsigned 32 ((s.plant.xReg e (fRs1 w) : Int) + immS w)
    let n := 2 ^ fF3 w
    match storeCause a n with
    | some c => .trap c
    | none => (s.engStore e a n (s.plant.xReg e (fRs2 w))).rvNop e len

/-- The value an AMO writes, by funct5. -/
def rvAmoOp (f5 old x : Nat) : Option Nat :=
  match f5 with
  | 1 => some x
  | 0 => some ((old + x) % two32)
  | 4 => some (old ^^^ x)
  | 12 => some (old &&& x)
  | 8 => some (old ||| x)
  | 16 => some (if signed 32 old ≤ signed 32 x then old else x)
  | 20 => some (if signed 32 old ≤ signed 32 x then x else old)
  | 24 => some (min old x)
  | 28 => some (max old x)
  | _ => none

/-- LR, SC and the AMOs. LR needs a region that takes AMOs (R105). -/
def State.rvAmo (s : State) (e : Eng) (w len : Nat) : RvOut :=
  let a := s.plant.xReg e (fRs1 w)
  let x := s.plant.xReg e (fRs2 w)
  let key := engKey e.val a / 4
  let f5 := bits w 31 27
  if fF3 w ≠ 2 then .trap 2
  else if f5 = 2 then
    if fRs2 w ≠ 0 then .trap 2
    else match storeCause a 4 with
      | some c => .trap (if c = 7 then 5 else 4)
      | none =>
        let v := memRead s.mem (engKey e.val a) 4
        (s.withPlant (fun p => p.onRegs e (fun r => { r with resv := some key }))).rvWb e (fRd w) v len
  else if f5 = 3 then
    match storeCause a 4 with
    | some c => .trap c
    | none =>
      let held := decide ((s.plant.eng e).regs.resv = some key)
      let s := if held then s.engStore e a 4 x else s
      (s.withPlant (fun p => p.onRegs e (fun r => { r with resv := none }))).rvWb e (fRd w) (if held then 0 else 1) len
  else match rvAmoOp f5 0 0 with
    | none => .trap 2
    | some _ =>
      match storeCause a 4 with
      | some c => .trap c
      | none =>
        let old := memRead s.mem (engKey e.val a) 4
        (s.engStore e a 4 ((rvAmoOp f5 old x).getD old)).rvWb e (fRd w) old len

/-! ### Control and status registers (R101, R103, R111) -/

/-- The registers whose value the manual leaves to the part: they read a free value. -/
def csrOpen (n : Nat) : Bool :=
  decide (0xF11 ≤ n ∧ n ≤ 0xF15) || decide (0xB00 ≤ n ∧ n ≤ 0xB1F ∧ n ≠ 0xB01) || decide (0xB80 ≤ n ∧ n ≤ 0xB9F ∧ n ≠ 0xB81) ||
    decide (0xC00 ≤ n ∧ n ≤ 0xC1F) || decide (0xC80 ≤ n ∧ n ≤ 0xC9F) || decide (0x320 ≤ n ∧ n ≤ 0x33F ∧ n ≠ 0x321 ∧ n ≠ 0x322)

/-- A read of a control and status register; none where there is none. -/
def Plant.csrRead (p : Plant) (e : Eng) (n : Nat) : Option (Nat × Plant) :=
  let r := (p.eng e).regs
  match n with
  | 0x001 => some (r.fcsr % 32, p)
  | 0x002 => some (bits r.fcsr 7 5, p)
  | 0x003 => some (r.fcsr % 256, p)
  | 0x300 => some (0x80007800, p)
  | 0x301 => some (0x40801125, p)
  | 0x304 => some (0, p)
  | 0x305 => some (0, p)
  | 0x310 => some (0, p)
  | 0x340 => some (Tab.get (fun _ => 0) r.csr 0x340, p)
  | 0x341 => some (Tab.get (fun _ => 0) r.csr 0x341 / 2 * 2, p)
  | 0x342 => some (Tab.get (fun _ => 0) r.csr 0x342, p)
  | 0x343 => some (Tab.get (fun _ => 0) r.csr 0x343, p)
  | 0x344 => some (0, p)
  | 0x7C0 => some (r.hx % 64, p)
  | 0xFC0 => some ((match (p.eng e).item with | some it => hxItem it | none => 0), p)
  | 0xFC1 => some ((match (p.eng e).item with | some it => (p.slot it.slot).arms % 4096 | none => 0), p)
  | 0xFC2 => some (e.val / 4 * 16 + e.val, p)
  | 0xFC3 => some (p.c K.engGen, p)
  | _ =>
    if csrOpen n then
      let (v, p) := p.free
      some (v % two32, p)
    else none

/-- A write of a control and status register that csrRead knows: reserved fields, mie, mip, mtvec and what is fixed ignore it. -/
def Plant.csrWrite (p : Plant) (e : Eng) (n v : Nat) : Plant :=
  match n with
  | 0x001 => p.onRegs e (fun r => { r with fcsr := r.fcsr / 32 * 32 + v % 32 })
  | 0x002 => p.onRegs e (fun r => { r with fcsr := v % 8 * 32 + r.fcsr % 32 })
  | 0x003 => p.onRegs e (fun r => { r with fcsr := v % 256 })
  | 0x7C0 => p.onRegs e (fun r => { r with hx := v % 64 })
  | 0x340 => p.onRegs e (fun r => { r with csr := Tab.set (fun _ => 0) r.csr 0x340 v })
  | 0x341 => p.onRegs e (fun r => { r with csr := Tab.set (fun _ => 0) r.csr 0x341 (v / 2 * 2) })
  | 0x342 => p.onRegs e (fun r => { r with csr := Tab.set (fun _ => 0) r.csr 0x342 v })
  | 0x343 => p.onRegs e (fun r => { r with csr := Tab.set (fun _ => 0) r.csr 0x343 v })
  | _ => p

/-- CSRRW, CSRRS, CSRRC and their immediate forms. -/
def State.rvCsr (s : State) (e : Eng) (w len : Nat) : RvOut :=
  let n := bits w 31 20
  let f3 := fF3 w
  let x := if 4 ≤ f3 then fRs1 w else s.plant.xReg e (fRs1 w)
  let writes := decide (f3 % 4 = 1) || decide (fRs1 w ≠ 0)
  match s.plant.csrRead e n with
  | none => .trap 2
  | some (old, p) =>
    if writes ∧ bits n 11 10 = 3 then .trap 2
    else
      let v := match f3 % 4 with
        | 1 => x
        | 2 => old ||| x
        | _ => old - (old &&& x)
      State.rvWb { s with plant := if writes then p.csrWrite e n v else p } e (fRd w) old len

/-- The words of the system opcode: WFI is a no-op, MRET goes to mepc, ECALL and EBREAK take their exception (R101, R103). -/
def State.rvSystem (s : State) (e : Eng) (w len : Nat) : RvOut :=
  if fF3 w = 4 then .trap 2
  else if fF3 w ≠ 0 then s.rvCsr e w len
  else if w = 0x00000073 then .trap 11
  else if w = 0x00100073 then .trap 3
  else if w = 0x10500073 then s.rvNop e len
  else if w = 0x30200073 then s.rvJump e 0 0 (Tab.get (fun _ => 0) (s.plant.eng e).regs.csr 0x341 : Nat)
  else .trap 2

/-! ### Floating point -/

/-- The rounding mode of a word: its own, or fcsr's; none for a reserved one. -/
def Plant.rvRm (p : Plant) (e : Eng) (w : Nat) : Option Nat :=
  let m := if fF3 w = 7 then bits (p.eng e).regs.fcsr 7 5 else fF3 w
  if m ≤ 4 then some m else none

/-- FLW. -/
def State.rvFlw (s : State) (e : Eng) (w len : Nat) : RvOut :=
  if fF3 w ≠ 2 then .trap 2
  else match s.engLoadAt e.val (unsigned 32 ((s.plant.xReg e (fRs1 w) : Int) + immI w)) 4 with
    | .error c => .trap c
    | .ok v => s.rvWbF e (fRd w) (v, 0) len

/-- FSW. -/
def State.rvFsw (s : State) (e : Eng) (w len : Nat) : RvOut :=
  if fF3 w ≠ 2 then .trap 2
  else
    let a := unsigned 32 ((s.plant.xReg e (fRs1 w) : Int) + immS w)
    match storeCause a 4 with
    | some c => .trap c
    | none => (s.engStore e a 4 (s.plant.fReg e (fRs2 w))).rvNop e len

/-- The fused forms: the product's and the addend's sign by opcode. -/
def State.rvFma (s : State) (e : Eng) (w len : Nat) (negProd negC : Bool) : RvOut :=
  match bits w 26 25, s.plant.rvRm e w with
  | 0, some rm =>
    let f := s.plant.fReg e
    s.rvWbF e (fRd w) (fFma rm (f (fRs1 w)) (f (fRs2 w)) (f (bits w 31 27)) negProd negC) len
  | _, _ => .trap 2

/-- The operations that take a rounding mode: FADD, FSUB, FMUL, FDIV, FSQRT and the conversions. -/
def State.rvFArith (s : State) (e : Eng) (w len rm : Nat) : RvOut :=
  let a := s.plant.fReg e (fRs1 w)
  let b := s.plant.fReg e (fRs2 w)
  match fF7 w with
  | 0x00 => s.rvWbF e (fRd w) (fAdd rm a b) len
  | 0x04 => s.rvWbF e (fRd w) (fSub rm a b) len
  | 0x08 => s.rvWbF e (fRd w) (fMul rm a b) len
  | 0x0C => s.rvWbF e (fRd w) (fDiv rm a b) len
  | 0x2C => if fRs2 w ≠ 0 then .trap 2 else s.rvWbF e (fRd w) (fSqrt rm a) len
  | 0x60 => if 2 ≤ fRs2 w then .trap 2 else s.rvWbX e (fRd w) (fToInt rm (fRs2 w == 1) a) len
  | 0x68 => if 2 ≤ fRs2 w then .trap 2 else s.rvWbF e (fRd w) (fOfInt rm (fRs2 w == 1) (s.plant.xReg e (fRs1 w))) len
  | _ => .trap 2

/-- The words of the floating-point opcode. -/
def State.rvFOp (s : State) (e : Eng) (w len : Nat) : RvOut :=
  let a := s.plant.fReg e (fRs1 w)
  let b := s.plant.fReg e (fRs2 w)
  let f3 := fF3 w
  match fF7 w with
  | 0x10 =>
    let mag := fun (sgn : Bool) => .done (s.withPlant (fun p =>
      (p.onRegs e (fun r => { r with f := r.f.set (fRd w) (a % 0x80000000 + signBit sgn) })).nextPc e len))
    match f3 with
    | 0 => mag (bitOf b 31)
    | 1 => mag (!bitOf b 31)
    | 2 => mag (bitOf a 31 != bitOf b 31)
    | _ => .trap 2
  | 0x14 => if 2 ≤ f3 then .trap 2 else s.rvWbF e (fRd w) (fMinMax (f3 == 1) a b) len
  | 0x50 => if 3 ≤ f3 then .trap 2 else s.rvWbX e (fRd w) (fCmp (2 - f3) a b) len
  | 0x70 =>
    if fRs2 w ≠ 0 ∨ 2 ≤ f3 then .trap 2 else s.rvWb e (fRd w) (if f3 = 0 then a else fClass a) len
  | 0x78 => if fRs2 w ≠ 0 ∨ f3 ≠ 0 then .trap 2 else s.rvWbF e (fRd w) (s.plant.xReg e (fRs1 w), 0) len
  | _ =>
    match s.plant.rvRm e w with
    | some rm => s.rvFArith e w len rm
    | none => .trap 2

/-! ### Xhkx (R108) -/

/-- Custom-0: the PU32 operations. -/
def State.rvCustom0 (s : State) (e : Eng) (w : Nat) : RvOut :=
  let go := fun (f : Plant → Eng → Nat → Nat → Nat → Plant) => .done (s.withPlant (fun p => f p e (fRd w) (fRs1 w) (fRs2 w)))
  if fF3 w ≠ 0 then .trap 2
  else match fF7 w with
    | 0 => go Plant.padd
    | 1 => go Plant.psub
    | 2 => go Plant.pmul
    | 3 => go Plant.pmac
    | _ => .trap 2

/-- Custom-1: the Vat and the time; a register that must be x0 and is not makes the word illegal. -/
def State.rvCustom1 (s : State) (e : Eng) (w : Nat) : RvOut :=
  let rd := fRd w
  let a := fRs1 w
  let b := fRs2 w
  let go := fun (ok : Bool) (f : Plant → Plant) => if ok then .done (s.withPlant f) else .trap 2
  match fF3 w, fF7 w with
  | 0, 0 => go true (fun p => p.vput e rd a b)
  | 0, 1 => go (rd == 0) (fun p => p.vputp e a b)
  | 0, 2 => go (b == 0) (fun p => p.vget e rd a)
  | 0, 3 => go true (fun p => p.vqry e rd a b)
  | 0, 4 => go (b == 0) (fun p => p.vstat e rd a)
  | 0, 5 => go (rd == 0 && b == 0) (fun p => p.vdone e a)
  | 1, 0 => go (a == 0 && b == 0) (fun p => p.tnow e rd)
  | 1, 1 => go (a == 0 && b == 0) (fun p => p.tnowh e rd)
  | 1, 2 => go (a == 0 && b == 0) (fun p => p.tsamp e rd)
  | 1, 3 => go (a == 0 && b == 0) (fun p => p.tleft e rd)
  | 1, 4 => go (a == 0 && b == 0) (fun p => p.tcyc e rd)
  | _, _ => .trap 2

/-! ### One instruction -/

/-- OP-IMM: the shifts have a funct7. -/
def State.rvOpImm (s : State) (e : Eng) (w len : Nat) : RvOut :=
  let f3 := fF3 w
  let a := s.plant.xReg e (fRs1 w)
  if f3 = 1 ∨ f3 = 5 then
    if fF7 w = 0 ∨ (fF7 w = 0x20 ∧ f3 = 5) then s.rvWb e (fRd w) (rvAlu f3 (fF7 w == 0x20) a (fRs2 w)) len else .trap 2
  else s.rvWb e (fRd w) (rvAlu f3 false a (unsigned 32 (immI w))) len

/-- OP: the base operations and M. -/
def State.rvOp (s : State) (e : Eng) (w len : Nat) : RvOut :=
  let f3 := fF3 w
  let a := s.plant.xReg e (fRs1 w)
  let b := s.plant.xReg e (fRs2 w)
  if fF7 w = 1 then s.rvWb e (fRd w) (rvMul f3 a b) len
  else if fF7 w = 0 ∨ (fF7 w = 0x20 ∧ (f3 = 0 ∨ f3 = 5)) then s.rvWb e (fRd w) (rvAlu f3 (fF7 w == 0x20) a b) len
  else .trap 2

/-- A word at a pc; `len` is the length it was fetched with. -/
def State.rvRun (s : State) (e : Eng) (w len : Nat) : RvOut :=
  let pc := (s.plant.eng e).regs.pc
  let link := (pc + len) % two32
  match w % 128 with
  | 0x37 => s.rvWb e (fRd w) (immU w) len
  | 0x17 => s.rvWb e (fRd w) (pc + immU w) len
  | 0x6F => s.rvJump e (fRd w) link ((pc : Int) + immJ w)
  | 0x67 => if fF3 w ≠ 0 then .trap 2 else s.rvJump e (fRd w) link ((s.plant.xReg e (fRs1 w) : Int) + immI w)
  | 0x63 =>
    match rvBranch (fF3 w) (s.plant.xReg e (fRs1 w)) (s.plant.xReg e (fRs2 w)) with
    | none => .trap 2
    | some t => if t then s.rvJump e 0 0 ((pc : Int) + immB w) else s.rvNop e len
  | 0x03 => s.rvLoad e w len
  | 0x23 => s.rvStore e w len
  | 0x13 => s.rvOpImm e w len
  | 0x33 => s.rvOp e w len
  | 0x0F => if 2 ≤ fF3 w then .trap 2 else s.rvNop e len
  | 0x73 => s.rvSystem e w len
  | 0x2F => s.rvAmo e w len
  | 0x07 => s.rvFlw e w len
  | 0x27 => s.rvFsw e w len
  | 0x43 => s.rvFma e w len false false
  | 0x47 => s.rvFma e w len false true
  | 0x4B => s.rvFma e w len true false
  | 0x4F => s.rvFma e w len true true
  | 0x53 => s.rvFOp e w len
  | 0x0B => s.rvCustom0 e w
  | 0x2B => s.rvCustom1 e w
  | _ => .trap 2

/-- A word stores, or is an AMO or SC, to the Rind status mirror (R105). -/
def Plant.rvMirrorStore (p : Plant) (e : Eng) (w : Nat) : Bool :=
  let at_ := fun (a : Nat) => decide (0x3F000000 ≤ a) && decide (a < 0x3F010000)
  match w % 128 with
  | 0x23 => decide (fF3 w < 3) && at_ (unsigned 32 ((p.xReg e (fRs1 w) : Int) + immS w))
  | 0x27 => decide (fF3 w = 2) && at_ (unsigned 32 ((p.xReg e (fRs1 w) : Int) + immS w))
  | 0x2F => decide (fF3 w = 2) && decide (bits w 31 27 ≠ 2) && (decide (bits w 31 27 = 3) || (rvAmoOp (bits w 31 27) 0 0).isSome) &&
      at_ (p.xReg e (fRs1 w))
  | _ => false

/-- One instruction at the engine's pc: it runs, or its exception ends the item (R103), and a store or AMO to the Rind status
mirror raises source 34 as well (R105). -/
def State.rvStep (s : State) (e : Eng) : State :=
  let pc := (s.plant.eng e).regs.pc
  match s.engFetch e.val pc with
  | .error c => s.withPlant (fun p => p.trapItem e pc c 32)
  | .ok (w, len) =>
    match s.rvRun e w len with
    | .done t => t
    | .trap c =>
      s.withPlant (fun p => (if p.rvMirrorStore e w then p.raise .cvc 34 0 else p).trapItem e pc c 32)

/-- RV32IMAFC_INSTRUCTION: an engine runs the instruction at its pc, within an item only (R102). -/
def execRv32imafcInstruction (e : Eng) (s : State) : Host.Outcome State Fault Refusal :=
  .next (if s.plant.up .cvc ∧ s.plant.engRuns e then s.rvStep e else s)

end Sys2Proof.Machine
end

