-- ==== Sys2Proof/Machine/Dispatch.lean ====
section
/-! DEFINITION. One arm for every command of the opcode table. -/

namespace Sys2Proof.Machine

def exec (i : Instr) (s : State) : Host.Outcome State Fault Refusal :=
  match i with
  | .powerOnReset p => Sys2Proof.Machine.execPowerOnReset p s
  | .resetNAssert p => Sys2Proof.Machine.execResetNAssert p s
  | .resetNRelease p b => Sys2Proof.Machine.execResetNRelease p b s
  | .longReset p => Sys2Proof.Machine.execLongReset p s
  | .watchdogExpire p => Sys2Proof.Machine.execWatchdogExpire p s
  | .softReset w v => Sys2Proof.Machine.execSoftReset w v s
  | .rindRequestedReset by_ => Sys2Proof.Machine.execRindRequestedReset by_ s
  | .startupComplete => Sys2Proof.Machine.execStartupComplete s
  | .hubWaitExpire => Sys2Proof.Machine.execHubWaitExpire s
  | .ptpWaitExpire => Sys2Proof.Machine.execPtpWaitExpire s
  | .startWaitExpire => Sys2Proof.Machine.execStartWaitExpire s
  | .cycleBoundary => Sys2Proof.Machine.execCycleBoundary s
  | .chargeTimeout => Sys2Proof.Machine.execChargeTimeout s
  | .charge r => Sys2Proof.Machine.execCharge r s
  | .deblock r => Sys2Proof.Machine.execDeblock r s
  | .block r => Sys2Proof.Machine.execBlock r s
  | .stop r => Sys2Proof.Machine.execStop r s
  | .resetTrip r => Sys2Proof.Machine.execResetTrip r s
  | .harpLaunch => Sys2Proof.Machine.execHarpLaunch s
  | .harpComplete a => Sys2Proof.Machine.execHarpComplete a s
  | .armLoopLaunch a => Sys2Proof.Machine.execArmLoopLaunch a s
  | .armLoopOutput a => Sys2Proof.Machine.execArmLoopOutput a s
  | .loopSkip a => Sys2Proof.Machine.execLoopSkip a s
  | .loopApplyKeep r a => Sys2Proof.Machine.execLoopApplyKeep r a s
  | .loopApplyBqReset r a => Sys2Proof.Machine.execLoopApplyBqReset r a s
  | .loopApplyFullReset r a => Sys2Proof.Machine.execLoopApplyFullReset r a s
  | .harpApply r side => Sys2Proof.Machine.execHarpApply r side s
  | .harpFlagsClear r a m => Sys2Proof.Machine.execHarpFlagsClear r a m s
  | .loopFlagsClear r a m => Sys2Proof.Machine.execLoopFlagsClear r a m s
  | .injStart r => Sys2Proof.Machine.execInjStart r s
  | .injStop r => Sys2Proof.Machine.execInjStop r s
  | .injStep => Sys2Proof.Machine.execInjStep s
  | .injEnd => Sys2Proof.Machine.execInjEnd s
  | .padd e rd rs1 rs2 => Sys2Proof.Machine.execPadd e rd rs1 rs2 s
  | .psub e rd rs1 rs2 => Sys2Proof.Machine.execPsub e rd rs1 rs2 s
  | .pmul e rd rs1 rs2 => Sys2Proof.Machine.execPmul e rd rs1 rs2 s
  | .pmac e rd rs1 rs2 => Sys2Proof.Machine.execPmac e rd rs1 rs2 s
  | .vput e rd rs1 rs2 => Sys2Proof.Machine.execVput e rd rs1 rs2 s
  | .vputp e rs1 rs2 => Sys2Proof.Machine.execVputp e rs1 rs2 s
  | .vget e rd rs1 => Sys2Proof.Machine.execVget e rd rs1 s
  | .vqry e rd rs1 rs2 => Sys2Proof.Machine.execVqry e rd rs1 rs2 s
  | .vstat e rd rs1 => Sys2Proof.Machine.execVstat e rd rs1 s
  | .vdone e rs1 => Sys2Proof.Machine.execVdone e rs1 s
  | .tnow e rd => Sys2Proof.Machine.execTnow e rd s
  | .tnowh e rd => Sys2Proof.Machine.execTnowh e rd s
  | .tsamp e rd => Sys2Proof.Machine.execTsamp e rd s
  | .tleft e rd => Sys2Proof.Machine.execTleft e rd s
  | .tcyc e rd => Sys2Proof.Machine.execTcyc e rd s
  | .itemException e cause => Sys2Proof.Machine.execItemException e cause s
  | .itemLimit e => Sys2Proof.Machine.execItemLimit e s
  | .itemDispatch slot inst e => Sys2Proof.Machine.execItemDispatch slot inst e s
  | .itemResume e => Sys2Proof.Machine.execItemResume e s
  | .reportsCutoff slot tag => Sys2Proof.Machine.execReportsCutoff slot tag s
  | .bitstreamTag ch => Sys2Proof.Machine.execBitstreamTag ch s
  | .timerTag slot tag => Sys2Proof.Machine.execTimerTag slot tag s
  | .vatMove r v => Sys2Proof.Machine.execVatMove r v s
  | .vatRearm r v => Sys2Proof.Machine.execVatRearm r v s
  | .vatFlagsClear r v => Sys2Proof.Machine.execVatFlagsClear r v s
  | .enginePackage r bytes => Sys2Proof.Machine.execEnginePackage r bytes s
  | .cellSample c vcode icode => Sys2Proof.Machine.execCellSample c vcode icode s
  | .adcComplete c => Sys2Proof.Machine.execAdcComplete c s
  | .planLatch p => Sys2Proof.Machine.execPlanLatch p s
  | .collectLaunch c => Sys2Proof.Machine.execCollectLaunch c s
  | .planSend h => Sys2Proof.Machine.execPlanSend h s
  | .applyInstant c => Sys2Proof.Machine.execApplyInstant c s
  | .lossAction c => Sys2Proof.Machine.execLossAction c s
  | .gateTurnOn c n => Sys2Proof.Machine.execGateTurnOn c n s
  | .pwmValley c => Sys2Proof.Machine.execPwmValley c s
  | .trimEdge c up => Sys2Proof.Machine.execTrimEdge c up s
  | .command port f => Sys2Proof.Machine.execCommand port f s
  | .collect port f => Sys2Proof.Machine.execCollect port f s
  | .collectLand lane f => Sys2Proof.Machine.execCollectLand lane f s
  | .emptyFrameEnd h lane => Sys2Proof.Machine.execEmptyFrameEnd h lane s
  | .abortBlock port => Sys2Proof.Machine.execAbortBlock port s
  | .trip port f => Sys2Proof.Machine.execTrip port f s
  | .tripPreempt port => Sys2Proof.Machine.execTripPreempt port s
  | .arbiterGrant port => Sys2Proof.Machine.execArbiterGrant port s
  | .sync port f tap => Sys2Proof.Machine.execSync port f tap s
  | .syncUp port f tap => Sys2Proof.Machine.execSyncUp port f tap s
  | .syncSend p => Sys2Proof.Machine.execSyncSend p s
  | .timeFrameMissed p => Sys2Proof.Machine.execTimeFrameMissed p s
  | .holdoverExpire p => Sys2Proof.Machine.execHoldoverExpire p s
  | .counterWrap p => Sys2Proof.Machine.execCounterWrap p s
  | .delayReqSend port => Sys2Proof.Machine.execDelayReqSend port s
  | .delayReq port f tap => Sys2Proof.Machine.execDelayReq port f tap s
  | .delayResp port f tap => Sys2Proof.Machine.execDelayResp port f tap s
  | .closureRead str => Sys2Proof.Machine.execClosureRead str s
  | .ptpAnnounce port m => Sys2Proof.Machine.execPtpAnnounce port m s
  | .ptpSync port offset twoStep => Sys2Proof.Machine.execPtpSync port offset twoStep s
  | .ptpFollowUp port offset => Sys2Proof.Machine.execPtpFollowUp port offset s
  | .pdelayReq port id seq => Sys2Proof.Machine.execPdelayReq port id seq s
  | .ptpManagement port => Sys2Proof.Machine.execPtpManagement port s
  | .announceTimeout => Sys2Proof.Machine.execAnnounceTimeout s
  | .calApply r => Sys2Proof.Machine.execCalApply r s
  | .calSRead r => Sys2Proof.Machine.execCalSRead r s
  | .laneLost port cause => Sys2Proof.Machine.execLaneLost port cause s
  | .trainTimeout port => Sys2Proof.Machine.execTrainTimeout port s
  | .laneUp port => Sys2Proof.Machine.execLaneUp port s
  | .lstateReq port os => Sys2Proof.Machine.execLstateReq port os s
  | .lstateAck port os => Sys2Proof.Machine.execLstateAck port os s
  | .lstateNak port os => Sys2Proof.Machine.execLstateNak port os s
  | .lstateUp port os => Sys2Proof.Machine.execLstateUp port os s
  | .lstateDown port os => Sys2Proof.Machine.execLstateDown port os s
  | .lstateReqTimeout port => Sys2Proof.Machine.execLstateReqTimeout port s
  | .lstateReqRetry port => Sys2Proof.Machine.execLstateReqRetry port s
  | .laneWake port => Sys2Proof.Machine.execLaneWake port s
  | .eyeEstimate port eye coef => Sys2Proof.Machine.execEyeEstimate port eye coef s
  | .noticeBreak port os => Sys2Proof.Machine.execNoticeBreak port os s
  | .noticeMend port os => Sys2Proof.Machine.execNoticeMend port os s
  | .noticePass port os => Sys2Proof.Machine.execNoticePass port os s
  | .noticeServe port os => Sys2Proof.Machine.execNoticeServe port os s
  | .plan port os => Sys2Proof.Machine.execPlan port os s
  | .mendCountReached port => Sys2Proof.Machine.execMendCountReached port s
  | .passThroughEntry c => Sys2Proof.Machine.execPassThroughEntry c s
  | .prbsSecond port errors => Sys2Proof.Machine.execPrbsSecond port errors s
  | .prbsClear w lane v => Sys2Proof.Machine.execPrbsClear w lane v s
  | .slotSwitchAt w t v => Sys2Proof.Machine.execSlotSwitchAt w t v s
  | .serviceRead port f => Sys2Proof.Machine.execServiceRead port f s
  | .serviceWrite port f => Sys2Proof.Machine.execServiceWrite port f s
  | .serviceReadSeg port f => Sys2Proof.Machine.execServiceReadSeg port f s
  | .serviceWriteSeg port f => Sys2Proof.Machine.execServiceWriteSeg port f s
  | .discover port f => Sys2Proof.Machine.execDiscover port f s
  | .serviceResponse lane f => Sys2Proof.Machine.execServiceResponse lane f s
  | .serviceTimeout tag => Sys2Proof.Machine.execServiceTimeout tag s
  | .discoveryPass => Sys2Proof.Machine.execDiscoveryPass s
  | .discoveryPassEnd str fin_ => Sys2Proof.Machine.execDiscoveryPassEnd str fin_ s
  | .idle port f => Sys2Proof.Machine.execIdle port f s
  | .idleSend => Sys2Proof.Machine.execIdleSend s
  | .relayIdleSend h => Sys2Proof.Machine.execRelayIdleSend h s
  | .pathLost path => Sys2Proof.Machine.execPathLost path s
  | .peerSilence => Sys2Proof.Machine.execPeerSilence s
  | .allegianceChange h => Sys2Proof.Machine.execAllegianceChange h s
  | .overlapEnd h => Sys2Proof.Machine.execOverlapEnd h s
  | .takeover => Sys2Proof.Machine.execTakeover s
  | .rindEvaluation => Sys2Proof.Machine.execRindEvaluation s
  | .safetyFilterOutput input code bad => Sys2Proof.Machine.execSafetyFilterOutput input code bad s
  | .crosslinkTrip ch => Sys2Proof.Machine.execCrosslinkTrip ch s
  | .heartbeatLoss ch => Sys2Proof.Machine.execHeartbeatLoss ch s
  | .clockCompare offBy sOff => Sys2Proof.Machine.execClockCompare offBy sOff s
  | .readbackMismatch ch => Sys2Proof.Machine.execReadbackMismatch ch s
  | .faultClearTimeout ch => Sys2Proof.Machine.execFaultClearTimeout ch s
  | .tripHoldExpire ch => Sys2Proof.Machine.execTripHoldExpire ch s
  | .degradedTimeout => Sys2Proof.Machine.execDegradedTimeout s
  | .imageStage r bytes => Sys2Proof.Machine.execImageStage r bytes s
  | .signatureVerified kind p ok => Sys2Proof.Machine.execSignatureVerified kind p ok s
  | .imageArm r v => Sys2Proof.Machine.execImageArm r v s
  | .imageCommit r v => Sys2Proof.Machine.execImageCommit r v s
  | .commitTimeout => Sys2Proof.Machine.execCommitTimeout s
  | .checkScanDone p u result => Sys2Proof.Machine.execCheckScanDone p u result s
  | .checkStall p u => Sys2Proof.Machine.execCheckStall p u s
  | .graceExpire src => Sys2Proof.Machine.execGraceExpire src s
  | .noteExpire p src => Sys2Proof.Machine.execNoteExpire p src s
  | .faultAck w v => Sys2Proof.Machine.execFaultAck w v s
  | .emergClear r v => Sys2Proof.Machine.execEmergClear r v s
  | .hubPoll => Sys2Proof.Machine.execHubPoll s
  | .caveWrite p ok => Sys2Proof.Machine.execCaveWrite p ok s
  | .caveClear w v => Sys2Proof.Machine.execCaveClear w v s
  | .caveClearDone p => Sys2Proof.Machine.execCaveClearDone p s
  | .caveRecRead w => Sys2Proof.Machine.execCaveRecRead w s
  | .acqArm r => Sys2Proof.Machine.execAcqArm r s
  | .acqStop r => Sys2Proof.Machine.execAcqStop r s
  | .acqForce r => Sys2Proof.Machine.execAcqForce r s
  | .acqRelease r => Sys2Proof.Machine.execAcqRelease r s
  | .sequencerStep => Sys2Proof.Machine.execSequencerStep s
  | .sequencerTimeout => Sys2Proof.Machine.execSequencerTimeout s
  | .acqTrigIn edge => Sys2Proof.Machine.execAcqTrigIn edge s
  | .acqTrigOutEnd => Sys2Proof.Machine.execAcqTrigOutEnd s
  | .controlBitstreamOutput ch code stuck => Sys2Proof.Machine.execControlBitstreamOutput ch code stuck s
  | .captureSample ch val => Sys2Proof.Machine.execCaptureSample ch val s
  | .objectSample => Sys2Proof.Machine.execObjectSample s
  | .recordClose => Sys2Proof.Machine.execRecordClose s
  | .capArm w => Sys2Proof.Machine.execCapArm w s
  | .capStop w => Sys2Proof.Machine.execCapStop w s
  | .capForce w => Sys2Proof.Machine.execCapForce w s
  | .cellCaptureSample c vcode icode fb => Sys2Proof.Machine.execCellCaptureSample c vcode icode fb s
  | .htTrip c n x y => Sys2Proof.Machine.execHtTrip c n x y s
  | .blankExpire c n => Sys2Proof.Machine.execBlankExpire c n s
  | .pathDisagree c n => Sys2Proof.Machine.execPathDisagree c n s
  | .tripClear w m => Sys2Proof.Machine.execTripClear w m s
  | .fireDelayExpire c => Sys2Proof.Machine.execFireDelayExpire c s
  | .bypFire w v => Sys2Proof.Machine.execBypFire w v s
  | .bypStatClosed c => Sys2Proof.Machine.execBypStatClosed c s
  | .firePulseEnd c => Sys2Proof.Machine.execFirePulseEnd c s
  | .bypConfirmTimeout c => Sys2Proof.Machine.execBypConfirmTimeout c s
  | .bypUnfire w v => Sys2Proof.Machine.execBypUnfire w v s
  | .fbWindowExpire c n => Sys2Proof.Machine.execFbWindowExpire c n s
  | .gfMismatch c n => Sys2Proof.Machine.execGfMismatch c n s
  | .fbClear w m => Sys2Proof.Machine.execFbClear w m s
  | .diChange c n level => Sys2Proof.Machine.execDiChange c n level s
  | .bench w v => Sys2Proof.Machine.execBench w v s
  | .prdWr w v => Sys2Proof.Machine.execPrdWr w v s
  | .cmpWr w v => Sys2Proof.Machine.execCmpWr w v s
  | .ledgerSample c vin shunt => Sys2Proof.Machine.execLedgerSample c vin shunt s
  | .rcMeasure c hz => Sys2Proof.Machine.execRcMeasure c hz s
  | .activityRequest c act => Sys2Proof.Machine.execActivityRequest c act s
  | .activityEnd c act => Sys2Proof.Machine.execActivityEnd c act s
  | .bootComplete c => Sys2Proof.Machine.execBootComplete c s
  | .bootLaneTimeout c lane => Sys2Proof.Machine.execBootLaneTimeout c lane s
  | .bypassOnResetExpire c => Sys2Proof.Machine.execBypassOnResetExpire c s
  | .pwrRequest w v => Sys2Proof.Machine.execPwrRequest w v s
  | .powerStateEnter c => Sys2Proof.Machine.execPowerStateEnter c s
  | .storeSave w v => Sys2Proof.Machine.execStoreSave w v s
  | .storeDone p ok => Sys2Proof.Machine.execStoreDone p ok s
  | .storeRestore w v => Sys2Proof.Machine.execStoreRestore w v s
  | .storeImage w bytes => Sys2Proof.Machine.execStoreImage w bytes s
  | .fwLoad w bytes => Sys2Proof.Machine.execFwLoad w bytes s
  | .keyProg w slot hash => Sys2Proof.Machine.execKeyProg w slot hash s
  | .keyRevoke w v => Sys2Proof.Machine.execKeyRevoke w v s
  | .railOutOfRange p rail below => Sys2Proof.Machine.execRailOutOfRange p rail below s
  | .corePgRise c => Sys2Proof.Machine.execCorePgRise c s
  | .corePgTimeout c => Sys2Proof.Machine.execCorePgTimeout c s
  | .corePgFall c => Sys2Proof.Machine.execCorePgFall c s
  | .junctionTemperature p tenths => Sys2Proof.Machine.execJunctionTemperature p tenths s
  | .referenceClockLost p => Sys2Proof.Machine.execReferenceClockLost p s
  | .hostLinkChange port up => Sys2Proof.Machine.execHostLinkChange port up s
  | .noLinkTimeout => Sys2Proof.Machine.execNoLinkTimeout s
  | .hostDatagram port f => Sys2Proof.Machine.execHostDatagram port f s
  | .arpRequest port target vlan => Sys2Proof.Machine.execArpRequest port target vlan s
  | .icmpEcho port target vlan data => Sys2Proof.Machine.execIcmpEcho port target vlan data s
  | .read r idx sub off maxLen => Sys2Proof.Machine.execRead r idx sub off maxLen s
  | .readDescriptor r idx sub => Sys2Proof.Machine.execReadDescriptor r idx sub s
  | .write r idx sub ty off fin_ val => Sys2Proof.Machine.execWrite r idx sub ty off fin_ val s
  | .batchedWrite r idx sub ty val => Sys2Proof.Machine.execBatchedWrite r idx sub ty val s
  | .readBlock r idx sub count off maxLen => Sys2Proof.Machine.execReadBlock r idx sub count off maxLen s
  | .batchOpen r => Sys2Proof.Machine.execBatchOpen r s
  | .batchCommit r bseq => Sys2Proof.Machine.execBatchCommit r bseq s
  | .batchAbort r bseq => Sys2Proof.Machine.execBatchAbort r bseq s
  | .claim r prio => Sys2Proof.Machine.execClaim r prio s
  | .renew r => Sys2Proof.Machine.execRenew r s
  | .yield r succ => Sys2Proof.Machine.execYield r succ s
  | .subscribe r idx sub mode period => Sys2Proof.Machine.execSubscribe r idx sub mode period s
  | .leaseExpire => Sys2Proof.Machine.execLeaseExpire s
  | .subLifeExpire rid => Sys2Proof.Machine.execSubLifeExpire rid s
  | .notify => Sys2Proof.Machine.execNotify s
  | .periodicNotify subid => Sys2Proof.Machine.execPeriodicNotify subid s
  | .domainTimeout => Sys2Proof.Machine.execDomainTimeout s
  | .railInRange p rail => Sys2Proof.Machine.execRailInRange p rail s
  | .blockLock port => Sys2Proof.Machine.execBlockLock port s
  | .prbsSync port => Sys2Proof.Machine.execPrbsSync port s
  | .prbsSyncLoss port => Sys2Proof.Machine.execPrbsSyncLoss port s
  | .firmwareWriteDone p => Sys2Proof.Machine.execFirmwareWriteDone p s
  | .parameterStoreScan ch crc => Sys2Proof.Machine.execParameterStoreScan ch crc s
  | .modulatorClockLost input => Sys2Proof.Machine.execModulatorClockLost input s
  | .rv32imafcInstruction e => Sys2Proof.Machine.execRv32imafcInstruction e s

end Sys2Proof.Machine
end

