-- ==== Sys2Proof/Safety.lean ====
section
/-! DEFINITION. What counts as a sound state, and the conditions under which a command is taken in: a frame on a lane, an
ordered set, a host's request, a write (08 R205, 09 R230, R259, 15 R404, R411). -/

namespace Sys2Proof.Machine

/-- A sound state: the memories are in canonical form (05 R105, log entry 2). -/
def State.sound (s : State) : Bool := Memory.wf s.mem

/-- A lane end in L0 or L1 receives a frame of a type whose length is that type's (08 R200, 09 R230, R259). -/
def Plant.hears (p : Plant) (port : Port) (f : Frame) (ty : Nat) : Bool :=
  p.laneUp port.part port.lane.val && f.ty == ty && lengthOk f

/-- A part whose core runs, or a cell's lane block, receives on a lane that is neither off nor in L2 an ordered set that passes its check,
of a CODE (08 R195, R200, R205, R216). -/
def Plant.hearsOs (p : Plant) (port : Port) (os : Header) (code : Nat) : Bool :=
  (p.up port.part || port.part.kind == 2) && !p.receiverOff port.part port.lane.val && osGood os && bits os.toNat 55 52 == code

/-- The plant once a frame is in at its lane end: the equaliser's snapshot at its last block, unless it is an IDLE frame, and the count
(08 R199, 09 R263). -/
def Plant.heard (p : Plant) (port : Port) (f : Frame) : Plant :=
  (if f.ty = 6 then p else p.snapshot port.part port.lane.val).rxCount port.part port.lane.val f

/-- The plant once a new request has passed steps 1 and 2 of 15 R404: its datagram is taken from the queue, its session is the most
recently used and holds its SEQ, and the port of an owner's request is the owner's port. -/
def Plant.taken (p : Plant) (r : Req) (m : Msg) : Plant :=
  let e := echoOf r m
  let p := p.dequeue e
  (((p.takeSession e.rid e.inc).getD p).begin e).notePort e

/-- A request passes steps 1 to 5 of 15 R404 as a new one: its port serves, RID is not 0, a session is had, its SEQ is new, and port
rights, node and role allow it; no soft reset waits. -/
def Plant.admits (p : Plant) (r : Req) (m : Msg) : Bool :=
  let e := echoOf r m
  let q := p.dequeue e
  p.portServes e.port && e.rid != 0 &&
    (match q.takeSession e.rid e.inc with
      | none => false
      | some x => decide ((x.session e.rid).map (fun (y : Session) => y.seqCase e.seq) = some .fresh)) &&
    (p.taken r m).gateStatus e m == 0 && !((p.taken r m).node .cvc).power.softDue

/-- A WRITE of a value to an object of the CVC by its whole bytes, of the object's own type. -/
def writeReq (key : Nat) (bs : List Nat) : Msg :=
  .write false key (match rowOf 0 key with | some row => row.ty.code | none => 0) 0 true bs

/-- A direct WRITE to the CVC's object of a request that is admitted and comes from the owner, whose value passes steps 6 to 13 of
15 R404. -/
def Plant.accepts (p : Plant) (r : Req) (key : Nat) (bs : List Nat) : Bool :=
  match rowOf 0 key with
  | none => false
  | some row =>
    let m := writeReq key bs
    let x := p.taken r m
    r.node == 0 && p.admits r m && x.owner == r.rid.toNat && row.ty != .domain &&
      x.writeStatus key row.ty.code bs == 0

/-- What an accepted direct WRITE of the CVC's object leaves: the request taken, its effect, and the answer with status 0. -/
def Plant.answered (p : Plant) (r : Req) (key : Nat) (bs : List Nat) (effect : Plant → Plant) : Plant :=
  (effect (p.taken r (writeReq key bs))).answer (echoOf r (writeReq key bs)) 0 false (writeBody key 0)

/-- The plant once a whole DOMAIN value of a request is gathered: no piece of it is held (15 R402). -/
def Plant.gathered (p : Plant) (r : Req) (key : Nat) (bs : List Nat) : Plant :=
  (p.taken r (writeReq key bs)).onGdp (fun g =>
    { g with partials := g.partials.filter (fun x => !(x.node == 0 && x.key == key && x.rid == r.rid.toNat)) })

/-- A direct WRITE of a whole DOMAIN value to the CVC's object, of a request that is admitted and comes from the owner, whose value
passes steps 6 to 13 of 15 R404. -/
def Plant.acceptsWhole (p : Plant) (r : Req) (key : Nat) (bs : List Nat) : Bool :=
  match rowOf 0 key with
  | none => false
  | some row =>
    let m := writeReq key bs
    let x := p.taken r m
    r.node == 0 && p.admits r m && x.owner == r.rid.toNat && row.ty == .domain && x.stateStatus .cvc key row 0 == 0 &&
      x.ownCond .cvc key 0 == 0 && decide (bs.length ≤ row.maxLen) && (p.gathered r key bs).writeStatus key row.ty.code bs == 0

/-- What an accepted WRITE of a whole DOMAIN value leaves: the value gathered, its effect, and the answer with status 0. -/
def Plant.answeredWhole (p : Plant) (r : Req) (key : Nat) (bs : List Nat) (effect : Plant → Plant) : Plant :=
  (effect (p.gathered r key bs)).answer (echoOf r (writeReq key bs)) 0 false (writeBody key 0)

/-- The request that a GDP command is, with its message (15 R408). -/
def requestOf : Instr → Option (Req × Msg)
  | .read r idx sub off maxLen => some (r, .read (idx.toNat * 256 + sub.toNat) off.toNat maxLen.toNat)
  | .readDescriptor r idx sub => some (r, .desc (idx.toNat * 256 + sub.toNat))
  | .write r idx sub ty off fin_ val =>
    some (r, .write false (idx.toNat * 256 + sub.toNat) ty.toNat off.toNat fin_ (val.map BitVec.toNat))
  | .batchedWrite r idx sub ty val => some (r, .write true (idx.toNat * 256 + sub.toNat) ty.toNat 0 true (val.map BitVec.toNat))
  | .readBlock r idx sub count off maxLen => some (r, .block (idx.toNat * 256 + sub.toNat) count.toNat off.toNat maxLen.toNat)
  | .batchOpen r => some (r, .batchOpen)
  | .batchCommit r bseq => some (r, .batchCommit bseq.toNat)
  | .batchAbort r bseq => some (r, .batchAbort bseq.toNat)
  | .claim r prio => some (r, .claim prio.toNat)
  | .renew r => some (r, .renew)
  | .yield r succ => some (r, .yield succ.toNat)
  | .subscribe r idx sub mode period => some (r, .subscribe (idx.toNat * 256 + sub.toNat) mode.toNat period.toNat)
  | _ => none

/-- Nothing of the station but one cell controller, and the count of free values used, differs. -/
structure Plant.OnlyCell (c : CellId) (p p' : Plant) : Prop where
  /-- time stands -/
  tick : p'.tick = p.tick
  /-- the CVC's record stands -/
  cvc : p'.cvc = p.cvc
  /-- the hubs stand -/
  hubs : p'.hubs = p.hubs
  /-- the dictionary, lanes, Cave and clock of every other part stand -/
  node : ∀ q, q ≠ .cell c → p'.node q = p.node q
  /-- every other cell controller stands -/
  cell : ∀ d, d ≠ c → p'.cell d = p.cell d

/-- The commands of a cell controller's own switching, measurement, protection and firing. -/
def ownCell : Instr → Option CellId
  | .applyInstant c => some c
  | .lossAction c => some c
  | .gateTurnOn c _ => some c
  | .pwmValley c => some c
  | .trimEdge c _ => some c
  | .cellSample c _ _ => some c
  | .adcComplete c => some c
  | .cellCaptureSample c _ _ _ => some c
  | .htTrip c _ _ _ => some c
  | .blankExpire c _ => some c
  | .pathDisagree c _ => some c
  | .fireDelayExpire c => some c
  | .bypStatClosed c => some c
  | .firePulseEnd c => some c
  | .bypConfirmTimeout c => some c
  | .fbWindowExpire c _ => some c
  | .gfMismatch c _ => some c
  | .diChange c _ _ => some c
  | .rcMeasure c _ => some c
  | .activityEnd c _ => some c
  | _ => none

/-- A service WRITE of a value that a hub or cell accepts: its core runs, no check fails, no soft reset waits (15 R404). -/
def Plant.acceptsAt (p : Plant) (q : Part) (key : Nat) (bs : List Nat) : Bool :=
  decide (q ≠ .cvc) && p.up q && p.nodeStatus q key bs == 0 && !(p.node q).power.softDue

end Sys2Proof.Machine
end

