-- ==== Sys2Proof/Certificates/Slice0/Obligations.lean ====
section
/-! DEFINITION. The statements for the provers. -/

open Sys2Proof Sys2Proof.Machine

/-- For every command c and state s, a step of s with c at the front of its queue is exec of c on s with the rest. -/
def Obligations.StepRunsFront : Prop :=
  ∀ (c : Instr) (s : State) (rest : List Instr), step { s with pending := c :: rest } = exec c { s with pending := rest }

/-- The cycle and the converter (02 R28, R29, R43, R45, R47): CYCLE_BOUNDARY of a running cycle, whose S is Tc after the one before;
CHARGE_TIMEOUT in CHARGING; CHARGE, DEBLOCK, BLOCK, STOP and RESET_TRIP that the owner's request passes, which wait for the
boundary.
The model's choices in it: log entries 25, 29. -/
def Obligations.ConverterCompletes : Prop :=
  (∀ (s : State), s.plant.up .cvc = true → (s.plant.node .cvc).sched.valid = true → ∃ p t,
    p = s.plant.nextCycle ∧ (p.node .cvc).sched.s = ((s.plant.node .cvc).sched.s + (s.plant.node .cvc).sched.tc) % 2 ^ 64 ∧
    (p.node .cvc).sched.k = ((s.plant.node .cvc).sched.k + 1) % 2 ^ 64 ∧
    p.c K.cycleSeq = (s.plant.node .cvc).sched.k.succ % 256 ∧
    t = State.packageBoundary { s with plant := p } ∧
    exec .cycleBoundary s =
      .next (State.softAfter { t with plant := (t.plant.boundary.sendMirror t.mem).afterBoundary } .cvc)) ∧
  (∀ (s : State), s.plant.up .cvc = true → s.plant.conv = 3 →
    exec .chargeTimeout s = .next { s with plant := (s.plant.convEvent 6 0).raise .cvc 18 0 }) ∧
  (∀ (r : Req) (s : State), s.plant.accepts r K.convRequest (beBytes 1 1) = true →
    exec (.charge r) s = .next { s with
    plant := s.plant.answered r K.convRequest (beBytes 1 1) (fun p =>
      p.onCvc (fun c => { c with conv := { c.conv with requests := c.conv.requests ++ [1] } })) }) ∧
  (∀ (r : Req) (s : State), s.plant.accepts r K.convRequest (beBytes 1 2) = true →
    exec (.deblock r) s = .next { s with
    plant := s.plant.answered r K.convRequest (beBytes 1 2) (fun p =>
      p.onCvc (fun c => { c with conv := { c.conv with requests := c.conv.requests ++ [2] } })) }) ∧
  (∀ (r : Req) (s : State), s.plant.accepts r K.convRequest (beBytes 1 3) = true →
    exec (.block r) s = .next { s with
    plant := s.plant.answered r K.convRequest (beBytes 1 3) (fun p =>
      p.onCvc (fun c => { c with conv := { c.conv with requests := c.conv.requests ++ [3] } })) }) ∧
  (∀ (r : Req) (s : State), s.plant.accepts r K.convRequest (beBytes 1 4) = true →
    exec (.stop r) s = .next { s with
    plant := s.plant.answered r K.convRequest (beBytes 1 4) (fun p =>
      p.onCvc (fun c => { c with conv := { c.conv with requests := c.conv.requests ++ [4] } })) }) ∧
  (∀ (r : Req) (s : State), s.plant.accepts r K.convRequest (beBytes 1 5) = true →
    exec (.resetTrip r) s = .next { s with
    plant := s.plant.answered r K.convRequest (beBytes 1 5) (fun p =>
      p.onCvc (fun c => { c with conv := { c.conv with requests := c.conv.requests ++ [5] } })) })

/-- The Harp and the arm loops (03 R54, R71, R74; 04 R79–R81, R88, R89, R97, R98): HARP_LAUNCH; HARP_COMPLETE of an arm whose run is ready,
and of one whose commands are formed without a run; ARM_LOOP_LAUNCH with its inputs; ARM_LOOP_OUTPUT of a run that waits; LOOP_SKIP
without inputs, and where the alternate measurement takes the place of a report that has not landed.
The model's choices in it: log entries 30, 31, 69. -/
def Obligations.LoopRunsComplete : Prop :=
  (∀ (s : State), s.plant.up .cvc = true → (s.plant.node .cvc).sched.valid = true → s.plant.cvc.hLast ≤ s.plant.harpCycle →
    exec .harpLaunch s = .next (State.acqCycle { s with plant := s.plant.harpLaunch } s.plant.harpCycle)) ∧
  (∀ (a : Arm) (s : State) (o : HarpOut), s.plant.up .cvc = true → (s.plant.harpArm a.val).ready = true →
    (s.plant.harpArm a.val).out = some o →
    exec (.harpComplete a) s = .next { s with
    plant :=
      let p := (s.plant.harpPublish a.val o).onHarpArm a.val (fun x => { x with ready := false, out := none })
      (p.stringsOf a.val).foldl (fun x str => x.sendCommands str (x.cvc.hLast - 1)) p }) ∧
  (∀ (a : Arm) (s : State), s.plant.up .cvc = true → (s.plant.harpArm a.val).ready = true → (s.plant.harpArm a.val).out = none →
    exec (.harpComplete a) s = .next { s with
    plant :=
      let p := s.plant.onHarpArm a.val (fun x => { x with ready := false, out := none })
      (p.stringsOf a.val).foldl (fun x str => x.sendCommands str (x.cvc.hLast - 1)) p }) ∧
  (∀ (a : Arm) (s : State) (i : LoopIn × Bool), s.plant.up .cvc = true → s.plant.loopRuns a.val = true →
    (s.plant.loop a.val).lastK ≤ s.plant.loopCycle a.val → s.plant.loopInputs a.val (s.plant.loopCycle a.val) false = some i →
    exec (.armLoopLaunch a) s = .next { s with plant := s.plant.loopRun a.val (s.plant.loopCycle a.val) i.1 i.2 }) ∧
  (∀ (a : Arm) (s : State), s.plant.up .cvc = true → (s.plant.loop a.val).waiting = true →
    exec (.armLoopOutput a) s = .next { s with
    plant :=
      (s.plant.onLoop a.val (fun x => { x with
        waiting := false, u := x.uNext, ctxI := x.m, ctxS := x.sPrev, seq := (x.lastK - 1) % 256 })).hwDeposit 4 a.val ((s.plant.loop a.val).lastK - 1)
          (unsigned 32 (s.plant.loop a.val).uNext) }) ∧
  (∀ (a : Arm) (s : State), s.plant.up .cvc = true → s.plant.loopRuns a.val = true →
    (s.plant.loop a.val).lastK ≤ s.plant.loopCycle a.val → s.plant.loopInputs a.val (s.plant.loopCycle a.val) false = none →
    s.plant.loopInputs a.val (s.plant.loopCycle a.val) true = none →
    exec (.loopSkip a) s = .next { s with
    plant :=
      let k := s.plant.loopCycle a.val
      let f := 0x8000 ||| flagBit (s.plant.loop a.val).injAbort 14
      let p := s.plant.onLoop a.val (fun x => { x with lastK := k + 1, skippedK := k + 1, skipNew := true, injAbort := false })
      ((p.cPut (K.loopFlagsLive + a.val) (f : Nat)).cPut (K.loopFlags + a.val) (p.c (K.loopFlags + a.val) ||| f : Nat)).bump .cvc
        (K.loopSkipped + a.val) 1 }) ∧
  (∀ (a : Arm) (s : State) (i : LoopIn × Bool), s.plant.up .cvc = true → s.plant.loopRuns a.val = true →
    (s.plant.loop a.val).lastK ≤ s.plant.loopCycle a.val → s.plant.loopInputs a.val (s.plant.loopCycle a.val) false = none →
    s.plant.loopInputs a.val (s.plant.loopCycle a.val) true = some i →
    exec (.loopSkip a) s = .next { s with plant := s.plant.loopRun a.val (s.plant.loopCycle a.val) i.1 i.2 })

/-- Applies and flags of the Harp and the loops (03 R73, R74; 04 R88, R98), as the owner's request writes them: LOOP_APPLY_KEEP,
LOOP_APPLY_BQ_RESET, LOOP_APPLY_FULL_RESET, HARP_APPLY, HARP_FLAGS_CLEAR and LOOP_FLAGS_CLEAR.
The model's choices in it: log entries 31, 54. -/
def Obligations.LoopWritesComplete : Prop :=
  (∀ (r : Req) (a : Arm) (s : State), s.plant.accepts r (K.loopApply + a.val) (beBytes 1 1) = true →
    exec (.loopApplyKeep r a) s = .next { s with
    plant :=
      s.plant.answered r (K.loopApply + a.val) (beBytes 1 1) (fun p => p.acceptApply (0x2500 + a.val) 1) }) ∧
  (∀ (r : Req) (a : Arm) (s : State), s.plant.accepts r (K.loopApply + a.val) (beBytes 1 2) = true →
    exec (.loopApplyBqReset r a) s = .next { s with
    plant :=
      s.plant.answered r (K.loopApply + a.val) (beBytes 1 2) (fun p => p.acceptApply (0x2500 + a.val) 2) }) ∧
  (∀ (r : Req) (a : Arm) (s : State), s.plant.accepts r (K.loopApply + a.val) (beBytes 1 3) = true →
    exec (.loopApplyFullReset r a) s = .next { s with
    plant :=
      s.plant.answered r (K.loopApply + a.val) (beBytes 1 3) (fun p => p.acceptApply (0x2500 + a.val) 3) }) ∧
  (∀ (r : Req) (side : Fin 2) (s : State), s.plant.accepts r (K.harpApplyA + side.val) (beBytes 1 1) = true →
    exec (.harpApply r side) s = .next { s with
    plant :=
      s.plant.answered r (K.harpApplyA + side.val) (beBytes 1 1) (fun p => p.acceptApply (0x2410 + side.val) 1) }) ∧
  (∀ (r : Req) (a : Arm) (m : BitVec 16) (s : State), s.plant.accepts r (K.harpFlagsClear + a.val) (beBytes 2 m.toNat) = true →
    exec (.harpFlagsClear r a m) s = .next { s with
    plant :=
      s.plant.answered r (K.harpFlagsClear + a.val) (beBytes 2 m.toNat) (fun p =>
        p.cPut (K.harpFlags + a.val) ((p.c (K.harpFlags + a.val) &&& (0xFFFF ^^^ m.toNat) : Nat) : Int)) }) ∧
  (∀ (r : Req) (a : Arm) (m : BitVec 16) (s : State), s.plant.accepts r (K.loopFlagsClear + a.val) (beBytes 2 m.toNat) = true →
    exec (.loopFlagsClear r a m) s = .next { s with
    plant :=
      s.plant.answered r (K.loopFlagsClear + a.val) (beBytes 2 m.toNat) (fun p =>
        p.cPut (K.loopFlags + a.val) ((p.c (K.loopFlags + a.val) &&& (0xFFFF ^^^ m.toNat) : Nat) : Int)) })

/-- Injections (04 R90–R94, R99): INJ_START and INJ_STOP that the owner's request passes; INJ_STEP of a sweep; INJ_END of an injection
that runs.
The model's choices in it: log entry 31. -/
def Obligations.InjectionCompletes : Prop :=
  (∀ (r : Req) (s : State), s.plant.accepts r K.loopInjCtrl (beBytes 1 1) = true →
    exec (.injStart r) s = .next { s with
    plant := s.plant.answered r K.loopInjCtrl (beBytes 1 1) (fun p =>
      (p.cPut K.loopInjState 1).onCvc (fun c => { c with inj := { c.inj with stopDue := false } })) }) ∧
  (∀ (r : Req) (s : State), s.plant.accepts r K.loopInjCtrl (beBytes 1 2) = true →
    exec (.injStop r) s = .next { s with
    plant := s.plant.answered r K.loopInjCtrl (beBytes 1 2) (fun p =>
      if p.c K.loopInjState = 1 ∨ p.c K.loopInjState = 2 then
        p.onCvc (fun c => { c with inj := { c.inj with stopDue := true } })
      else p) }) ∧
  (∀ (s : State) (j : Nat), s.plant.up .cvc = true → s.plant.c K.loopInjState = 2 → s.plant.c K.loopInjKind = 1 →
    s.plant.injStepLen ≤ s.plant.cvc.inj.inStep → j = s.plant.c K.loopInjStep + 1 → j < s.plant.c K.loopInjSteps →
    exec .injStep s = .next { s with
    plant :=
      let p := s.plant.cPut K.loopInjStep (j : Nat)
      ((p.onCvc (fun c => { c with inj := { c.inj with phase := 0, step := p.injPhaseStep j, inStep := 0 } })).injStepEvent
        j).injValue }) ∧
  (∀ (s : State), s.plant.up .cvc = true → s.plant.c K.loopInjState = 2 → s.plant.injLength ≠ 0 →
    s.plant.injLength ≤ s.plant.cvc.inj.cyc →
    exec .injEnd s = .next { s with plant := (s.plant.injOver 3).injEvent 4 })

/-- The PU32 instructions of an engine with an item (05 R108, R109): PADD, PSUB, PMUL and PMAC write the saturated
result and set their bit of hxflags exactly where it saturated. -/
def Obligations.EngineArithmeticCompletes : Prop :=
  (∀ (e : Eng) (rd rs1 rs2 : RegNo) (s : State), s.plant.up .cvc = true → s.plant.engRuns e = true →
    exec (.padd e rd rs1 rs2) s = .next { s with
    plant :=
      let x := s.plant.puReg e rs1.val + s.plant.puReg e rs2.val
      let p := s.plant.setX e rd.val (unsigned 32 (satPU x))
      (if satHit x then p.setHx e 1 else p).nextPc e 4 }) ∧
  (∀ (e : Eng) (rd rs1 rs2 : RegNo) (s : State), s.plant.up .cvc = true → s.plant.engRuns e = true →
    exec (.psub e rd rs1 rs2) s = .next { s with
    plant :=
      let x := s.plant.puReg e rs1.val - s.plant.puReg e rs2.val
      let p := s.plant.setX e rd.val (unsigned 32 (satPU x))
      (if satHit x then p.setHx e 2 else p).nextPc e 4 }) ∧
  (∀ (e : Eng) (rd rs1 rs2 : RegNo) (s : State), s.plant.up .cvc = true → s.plant.engRuns e = true →
    exec (.pmul e rd rs1 rs2) s = .next { s with
    plant :=
      let x := rdiv (s.plant.puReg e rs1.val * s.plant.puReg e rs2.val) 16777216
      let p := s.plant.setX e rd.val (unsigned 32 (satPU x))
      (if satHit x then p.setHx e 4 else p).nextPc e 4 }) ∧
  (∀ (e : Eng) (rd rs1 rs2 : RegNo) (s : State), s.plant.up .cvc = true → s.plant.engRuns e = true →
    exec (.pmac e rd rs1 rs2) s = .next { s with
    plant :=
      let x := rdiv (s.plant.puReg e rd.val * 16777216 + s.plant.puReg e rs1.val * s.plant.puReg e rs2.val) 16777216
      let p := s.plant.setX e rd.val (unsigned 32 (satPU x))
      (if satHit x then p.setHx e 8 else p).nextPc e 4 })

/-- The Vat and time instructions of an engine with an item (05 R108, R110, R114, R117, R118, R122): VPUT, VPUTP, VGET
of a tag the slot has, VQRY, VSTAT and VDONE of an item of the present epoch of a cyclic slot; TNOW, TNOWH, TSAMP,
TLEFT of a cycle-critical and of a background item, and TCYC. The model's choices in it: log entries 32, 35. -/
def Obligations.EngineVatCompletes : Prop :=
  (∀ (e : Eng) (rd rs1 rs2 : RegNo) (s : State) (it : Item) (d : Nat × Plant), s.plant.up .cvc = true →
    (s.plant.eng e).item = some it →
    d = s.plant.deposit (some it) 0 (bits (s.plant.xReg e rs1.val) 15 4) (bits (s.plant.xReg e rs1.val) 2 0)
      (bits (s.plant.xReg e rs1.val) 31 16) (s.plant.xReg e rs2.val) →
    exec (.vput e rd rs1 rs2) s = .next { s with
    plant :=
      ((if d.1 = 0 then d.2 else d.2.setHx e (if d.1 = 1 then 32 else 16)).setX e rd.val d.1).nextPc e 4 }) ∧
  (∀ (e : Eng) (rs1 rs2 : RegNo) (s : State) (it : Item) (d : Nat × Plant), s.plant.up .cvc = true →
    (s.plant.eng e).item = some it →
    d = s.plant.deposit (some it) 0 (bits (s.plant.xReg e rs1.val) 15 4) (bits (s.plant.xReg e rs1.val) 2 0)
      (bits (s.plant.xReg e rs1.val) 31 16) (s.plant.xReg e rs2.val) →
    exec (.vputp e rs1 rs2) s = .next { s with
    plant :=
      (if d.1 = 0 then d.2 else d.2.setHx e (if d.1 = 1 then 32 else 16)).nextPc e 4 }) ∧
  (∀ (e : Eng) (rd rs1 : RegNo) (s : State) (it : Item), s.plant.up .cvc = true → (s.plant.eng e).item = some it →
    s.plant.xReg e rs1.val % 8 < ctrlTags (s.plant.ctrlOf it.slot) →
    exec (.vget e rd rs1) s = .next { s with
    plant :=
      (s.plant.setX e rd.val (nth it.ops (s.plant.xReg e rs1.val % 8))).nextPc e 4 }) ∧
  (∀ (e : Eng) (rd rs1 rs2 : RegNo) (s : State), s.plant.up .cvc = true → s.plant.engRuns e = true →
    exec (.vqry e rd rs1 rs2) s = .next { s with
    plant :=
      (s.plant.setX e rd.val (s.plant.epochOf (s.plant.xReg e rs1.val % 4096) * 2 ^ 16 + s.plant.xReg e rs1.val % 4096 * 16 +
        s.plant.xReg e rs2.val % 8)).nextPc e 4 }) ∧
  (∀ (e : Eng) (rd rs1 : RegNo) (s : State), s.plant.up .cvc = true → s.plant.engRuns e = true →
    exec (.vstat e rd rs1) s = .next { s with
    plant :=
      (s.plant.setX e rd.val (s.plant.slotState (s.plant.xReg e rs1.val % 4096))).nextPc e 4 }) ∧
  (∀ (e : Eng) (rs1 : RegNo) (s : State) (it : Item) (p : Plant), s.plant.up .cvc = true → (s.plant.eng e).item = some it →
    p = (s.plant.noteLate it).engIdle e → p.epochOf it.slot = it.epoch →
    ctrlCyclic (p.ctrlOf it.slot) = true →
    exec (.vdone e rs1) s = .next { s with
    plant :=
      let p := p.onSlot it.slot (fun x => { x with
        flags := x.flags ||| (s.plant.eng e).regs.hx, code := s.plant.xReg e rs1.val % 256, runs := min (x.runs + 1) (2 ^ 32 - 1) })
      (p.bump .cvc (K.engItems + e.val) 1).onInst it.slot it.inst (fun x => { x with st := .done }) }) ∧
  (∀ (e : Eng) (rd : RegNo) (s : State), s.plant.up .cvc = true → s.plant.engRuns e = true →
    exec (.tnow e rd) s = .next { s with
    plant :=
      ((s.plant.onEng e (fun g => { g with tnowHi := s.plant.now .cvc / 2 ^ 32 })).setX e rd.val (s.plant.now .cvc)).nextPc e 4 }) ∧
  (∀ (e : Eng) (rd : RegNo) (s : State), s.plant.up .cvc = true → s.plant.engRuns e = true →
    exec (.tnowh e rd) s = .next { s with plant := (s.plant.setX e rd.val (s.plant.eng e).tnowHi).nextPc e 4 }) ∧
  (∀ (e : Eng) (rd : RegNo) (s : State) (it : Item), s.plant.up .cvc = true → (s.plant.eng e).item = some it →
    exec (.tsamp e rd) s = .next { s with plant := (s.plant.setX e rd.val (unsigned 32 it.sAt)).nextPc e 4 }) ∧
  (∀ (e : Eng) (rd : RegNo) (s : State) (it : Item), s.plant.up .cvc = true → (s.plant.eng e).item = some it →
    exec (.tleft e rd) s = .next { s with
    plant :=
      (s.plant.setX e rd.val (if it.critical then
        unsigned 32 (clampI (-2147483648) 2147483647 ((it.hAt - s.plant.nowPs) / 1000)) else 0x7FFFFFFF)).nextPc e 4 }) ∧
  (∀ (e : Eng) (rd : RegNo) (s : State) (it : Item), s.plant.up .cvc = true → (s.plant.eng e).item = some it →
    exec (.tcyc e rd) s = .next { s with plant := (s.plant.setX e rd.val it.k).nextPc e 4 })

/-- Instructions of the RV32IMAFC set on an engine with an item (05 R102, R103, R105; log entry 40): an instruction that its word
lets run, with ADDI shown in full; one that takes an exception, which ends the item; one that is not fetched. -/
def Obligations.RiscvCompletes : Prop :=
  (∀ (e : Eng) (s : State) (w len : Nat) (t : State), s.plant.up .cvc = true → s.plant.engRuns e = true →
    s.engFetch e.val (s.plant.eng e).regs.pc = .ok (w, len) → s.rvRun e w len = .done t →
    exec (.rv32imafcInstruction e) s = .next t) ∧
  (∀ (e : Eng) (s : State) (w len : Nat), s.plant.up .cvc = true → s.plant.engRuns e = true →
    s.engFetch e.val (s.plant.eng e).regs.pc = .ok (w, len) → w % 128 = 0x13 → fF3 w = 0 →
    exec (.rv32imafcInstruction e) s = .next { s with
    plant :=
      (s.plant.setX e (fRd w) ((s.plant.xReg e (fRs1 w) + unsigned 32 (immI w)) % 2 ^ 32)).nextPc e len }) ∧
  (∀ (e : Eng) (s : State) (w len c : Nat), s.plant.up .cvc = true → s.plant.engRuns e = true →
    s.engFetch e.val (s.plant.eng e).regs.pc = .ok (w, len) → s.rvRun e w len = .trap c → s.plant.rvMirrorStore e w = false →
    exec (.rv32imafcInstruction e) s = .next { s with plant := s.plant.trapItem e (s.plant.eng e).regs.pc c 32 }) ∧
  (∀ (e : Eng) (s : State) (c : Nat), s.plant.up .cvc = true → s.plant.engRuns e = true →
    s.engFetch e.val (s.plant.eng e).regs.pc = .error c →
    exec (.rv32imafcInstruction e) s = .next { s with plant := s.plant.trapItem e (s.plant.eng e).regs.pc c 32 })

/-- Items of the Vat (05 R103–R105, R114, R118–R120): ITEM_EXCEPTION of an exception, of an error that the ECC
corrects and of one in the Vat's storage that it cannot correct; ITEM_LIMIT of an item; ITEM_DISPATCH of a ready
cycle-critical item on an idle engine; ITEM_RESUME; TIMER_TAG; REPORTS_CUTOFF of a tag not yet present in the cycle,
and of one that is; BITSTREAM_TAG. The model's choices in it: log entries 33, 74, 76. -/
def Obligations.ItemsComplete : Prop :=
  (∀ (e : Eng) (cause : BitVec 8) (s : State), s.plant.up .cvc = true →
    exec (.itemException e (.trap cause)) s = .next { s with
    plant := s.plant.trapItem e (s.plant.eng e).regs.pc cause.toNat 32 }) ∧
  (∀ (e : Eng) (s : State), s.plant.up .cvc = true →
    exec (.itemException e .corrected) s = .next { s with plant := s.plant.bump .cvc K.vatEccCorrected 1 }) ∧
  (∀ (e : Eng) (s : State), s.plant.up .cvc = true →
    exec (.itemException e .vatStorage) s = .next { s with plant := s.plant.raise .cvc 39 0 }) ∧
  (∀ (e : Eng) (s : State), s.plant.up .cvc = true →
    exec (.itemLimit e) s = .next { s with plant := s.plant.trapItem e (s.plant.eng e).regs.pc 24 33 }) ∧
  (∀ (slot : Sys2Proof.Slot) (inst : Fin 2) (e : Eng) (s : State) (c : Nat) (x : Inst) (it : Item) (r : Regs × Plant), s.plant.up .cvc = true →
    slot.toNat < 4032 → c = s.plant.ctrlOf slot.toNat → ctrlEn c = true → ctrlCritical c = true → ctrlCyclic c = true →
    (s.plant.slot slot.toNat).fault = false → s.plant.vatOn = true → x = (s.plant.slot slot.toNat).inst inst.val →
    x.st = .ready → (s.plant.eng e).item = none → bitOf (ctrlGroups c) (e.val / 4) = true →
    it = {
      slot := slot.toNat, inst := inst.val, critical := true, k := x.k, sAt := s.plant.sOf x.k, hAt := s.plant.hPs x.k,
      epoch := s.plant.epochOf slot.toNat, ops := x.ops, startTick := s.plant.tick, usedTicks := 0 } →
    r = s.plant.startRegs it (s.plant.slot slot.toNat).entry →
    exec (.itemDispatch slot inst e) s = .next { s with
    plant :=
      let p := (r.2.engTake e it r.1).onInst slot.toNat inst.val (fun y => { y with st := .running })
      p.raiseMax .cvc K.vatDispatchMax ((p.tick - x.readyTick) * 2500 : Nat) }) ∧
  (∀ (e : Eng) (s : State) (it : Item) (m : List Nat × Plant), s.plant.up .cvc = true → (s.plant.eng e).item = none →
    (s.plant.eng e).saved = some it → s.plant.criticalReady e = false → m = Plant.freeWords 4 s.plant →
    exec (.itemResume e) s = .next { s with
    plant :=
      let p := (m.2.engTake e it { (s.plant.eng e).savedRegs with
        resv := none,
        csr := [(0x340, nth m.1 0), (0x341, nth m.1 1), (0x342, nth m.1 2), (0x343, nth m.1 3)] }).onEng e (fun g =>
          { g with saved := none, savedRegs := regsDflt })
      if ctrlCyclic (p.ctrlOf it.slot) then p.onInst it.slot it.inst (fun y => { y with st := .running }) else p }) ∧
  (∀ (slot : Sys2Proof.Slot) (tag : Pin8) (s : State) (w : Nat), s.plant.up .cvc = true → w = s.plant.tagOf slot.toNat tag.val →
    tagKind w = 6 → ctrlEn (s.plant.ctrlOf slot.toNat) = true → tag.val < ctrlTags (s.plant.ctrlOf slot.toNat) →
    exec (.timerTag slot tag) s = .next { s with
    plant :=
      (s.plant.deposit none (s.plant.paramCycle w) slot.toNat tag.val 0 (s.plant.paramCycle w % 2 ^ 32)).2 }) ∧
  (∀ (slot : Sys2Proof.Slot) (tag : Pin8) (s : State) (w : Nat), s.plant.up .cvc = true → w = s.plant.tagOf slot.toNat tag.val →
    (tagKind w = 2 ∨ tagKind w = 3) → tagParam w ≠ 0 → ctrlEn (s.plant.ctrlOf slot.toNat) = true →
    tag.val < ctrlTags (s.plant.ctrlOf slot.toNat) →
    Tab.get (fun _ => 0) (s.plant.slot slot.toNat).tagDone tag.val ≤ s.plant.paramCycle w →
    exec (.reportsCutoff slot tag) s = .next { s with
    plant :=
      ((s.plant.onSlot slot.toNat (fun x => { x with
        tagDone := Tab.set (fun _ => 0) x.tagDone tag.val (s.plant.paramCycle w + 1) })).deposit none (s.plant.paramCycle w)
          slot.toNat tag.val 0 (s.plant.validReports (s.plant.reportScope w).2 (s.plant.paramCycle w))).2 }) ∧
  (∀ (slot : Sys2Proof.Slot) (tag : Pin8) (s : State), s.plant.up .cvc = true →
    s.plant.paramCycle (s.plant.tagOf slot.toNat tag.val) < Tab.get (fun _ => 0) (s.plant.slot slot.toNat).tagDone tag.val →
    exec (.reportsCutoff slot tag) s = .next s) ∧
  (∀ (ch : Fin 16) (s : State), s.plant.up .cvc = true →
    exec (.bitstreamTag ch) s = .next { s with
    plant :=
      s.plant.hwDeposit 5 ch.val s.plant.k (unsigned 32 (Tab.get (fun _ => 0) s.plant.cvc.bsAtS ch.val)) })

/-- Writes of the Vat and of packages by the owner (05 R103, R124, R127, R131): VAT_MOVE, VAT_REARM, VAT_FLAGS_CLEAR and ENGINE_PACKAGE.
The model's choices in it: log entries 24, 54. -/
def Obligations.VatWritesComplete : Prop :=
  (∀ (r : Req) (v : BitVec 32) (s : State), s.plant.accepts r K.vatMove (beBytes 4 v.toNat) = true →
    exec (.vatMove r v) s = .next { s with
    plant := s.plant.answered r K.vatMove (beBytes 4 v.toNat) (fun p =>
      p.onSlot (bits v.toNat 11 0) (fun x => { x with moveDue := some (bits v.toNat 19 16) })) }) ∧
  (∀ (r : Req) (v : BitVec 16) (s : State), s.plant.accepts r K.vatRearm (beBytes 2 v.toNat) = true →
    exec (.vatRearm r v) s = .next { s with
    plant := s.plant.answered r K.vatRearm (beBytes 2 v.toNat) (fun p =>
      p.onSlot v.toNat (fun x => { x with rearm := x.fault })) }) ∧
  (∀ (r : Req) (v : BitVec 16) (s : State), s.plant.accepts r K.vatFlagsClear (beBytes 2 v.toNat) = true →
    exec (.vatFlagsClear r v) s = .next { s with
    plant := s.plant.answered r K.vatFlagsClear (beBytes 2 v.toNat) (fun p =>
      p.onSlot v.toNat (fun x => { x with flags := 0 })) }) ∧
  (∀ (r : Req) (bytes : List Byte) (s : State), s.plant.acceptsWhole r K.engPackage (bytes.map BitVec.toNat) = true →
    exec (.enginePackage r bytes) s = .next { s with
    plant :=
      s.plant.answeredWhole r K.engPackage (bytes.map BitVec.toNat) (fun p => p.onCvc (fun c =>
        { c with package := { c.package with staged := bytes.map BitVec.toNat, verified := false } })) })

/-- The switching of a cell at its apply instants and its trim carrier (06 R133, R137–R150, 02 R39–R41): APPLY_INSTANT with a valid command
for the instant, without one, and in a cell that has never been locked; LOSS_ACTION, also of a cell whose outputs stay low;
GATE_TURN_ON, with the parallel output; PWM_VALLEY with an armed load; TRIM_EDGE at t1 and at t2.
The model's choices in it: log entries 17, 27, 28. -/
def Obligations.CellSwitchingCompletes : Prop :=
  (∀ (c : CellId) (f : Filed) (s : State), s.plant.up (.cell c) = true → (s.plant.cell c).everLocked = true →
    s.plant.getN (.cell c) K.pwrState = 0 → s.plant.fired c = false → s.plant.htHeld c = false →
    ((s.plant.cell c).tripHold = false ∨ f.stale = false) → s.plant.getN (.cell c) K.swBench = 0 →
    (s.plant.cell c).filed.find? (fun x => x.k == (s.plant.cell c).applied + 1) = some f →
    exec (.applyInstant c) s = .next { s with
    plant :=
      let k := (s.plant.cell c).applied + 1
      let p := s.plant.onCell c (fun e => { e with applied := k, filed := e.filed.filter (fun x => decide (k < x.k)) })
      let p := (p.put (.cell c) K.cycleInLoss 0).onCell c (fun e => { e with missRun := 0, hold := false, tripHold := false })
      (p.takeUp c f.cmd).onCell c (fun e => { e with cmd := f.cmd, cseq := k % 256, hasCmd := true }) }) ∧
  (∀ (c : CellId) (s : State), s.plant.up (.cell c) = true → (s.plant.cell c).everLocked = true →
    s.plant.getN (.cell c) K.pwrState = 0 → s.plant.getN (.cell c) K.swBench = 0 →
    (s.plant.cell c).filed.find? (fun x => x.k == (s.plant.cell c).applied + 1) = none →
    exec (.applyInstant c) s = .next { s with
    plant :=
      let k := (s.plant.cell c).applied + 1
      let p := s.plant.onCell c (fun e => { e with applied := k, filed := e.filed.filter (fun x => decide (k < x.k)) })
      (p.bump (.cell c) K.cycleMissed 1).onCell c (fun e => { e with missRun := e.missRun + 1, hold := true }) }) ∧
  (∀ (c : CellId) (s : State), s.plant.up (.cell c) = true → (s.plant.cell c).everLocked = false →
    s.plant.getN (.cell c) K.pwrState = 0 → s.plant.getN (.cell c) K.swBench = 0 →
    exec (.applyInstant c) s = .next { s with
    plant :=
      (s.plant.bump (.cell c) K.cycleMissed 1).onCell c (fun e => { e with missRun := e.missRun + 1, hold := true }) }) ∧
  (∀ (c : CellId) (s : State), s.plant.up (.cell c) = true →
    s.plant.getN (.cell c) K.cycleCmdLossCycles ≤ (s.plant.cell c).missRun → s.plant.getN (.cell c) K.pwrState = 0 →
    (s.plant.fired c = true ∨ s.plant.htHeld c = true ∨ (s.plant.cell c).tripHold = true) → s.plant.getN (.cell c) K.swBench = 0 →
    exec (.lossAction c) s = .next { s with plant := s.plant.put (.cell c) K.cycleInLoss 1 }) ∧
  (∀ (c : CellId) (s : State), s.plant.up (.cell c) = true →
    s.plant.getN (.cell c) K.cycleCmdLossCycles ≤ (s.plant.cell c).missRun → s.plant.getN (.cell c) K.pwrState = 0 →
    s.plant.fired c = false → s.plant.htHeld c = false → (s.plant.cell c).tripHold = false →
    s.plant.getN (.cell c) K.swBench = 0 →
    exec (.lossAction c) s = .next { s with
    plant :=
      (s.plant.put (.cell c) K.cycleInLoss 1).setPlain c (if s.plant.getN (.cell c) K.cycleLossAction = 0 then 1 else 0) }) ∧
  (∀ (c : CellId) (n : Pin8) (s : State), bitOf (s.plant.cell c).waiting n.val = true →
    exec (.gateTurnOn c n) s = .next { s with
    plant :=
      let on := (s.plant.cell c).waiting &&& gatesWith (s.plant.getN (.cell c) K.swType) n.val
      (s.plant.setGates c ((s.plant.cell c).gates ||| on)).onCell c (fun e => { e with waiting := e.waiting ^^^ on }) }) ∧
  (∀ (c : CellId) (s : State), s.plant.up (.cell c) = true → s.plant.getN (.cell c) K.swState = 4 →
    (s.plant.cell c).car.armed = true → (s.plant.cell c).car.prdPend = true → (s.plant.cell c).car.inserted = false →
    ((s.plant.cell c).car.j + 1) % s.plant.getN (.cell c) K.pwmLoadEvery = 0 →
    exec (.pwmValley c) s = .next { s with
    plant :=
      let e := (s.plant.cell c).car
      let p := s.plant.onCell c (fun x => { x with car := { x.car with j := e.j + 1, pointTick := s.plant.tick + 1 } })
      let p := (p.put (.cell c) K.pwmPrd e.prdSh).put (.cell c) K.pwmCmp e.cmpSh
      (p.onCell c (fun x => { x with
        car := { x.car with armed := false, prdPend := false, loadTick := s.plant.tick + 1 } })).showPending c }) ∧
  (∀ (c : CellId) (s : State), s.plant.up (.cell c) = true → s.plant.getN (.cell c) K.swState = 4 →
    (s.plant.cell c).car.inserted = false → s.plant.getN (.cell c) K.pwmCmp ≠ 0 →
    (s.plant.pwmSet c).minTaps ≤ s.plant.pulseOn c (s.plant.pwmSet c).cbp (halfTaps (s.plant.pwmSet c).cbp (s.plant.pwmSet c).dither
      (s.plant.getN (.cell c) K.pwmPrd) (s.plant.getN (.cell c) K.pwmCmp) (s.plant.cell c).car.j) (s.plant.pwmSet c).dtIn →
    exec (.trimEdge c true) s = .next { s with
    plant :=
      let d := s.plant.cellDevices c 4 (s.plant.carrierNeg c)
      (s.plant.aimGates c (gatesFor (s.plant.getN (.cell c) K.swType) (d.1 + d.2.1))).onCell c (fun x => { x with
        car := { x.car with inserted := true } }) }) ∧
  (∀ (c : CellId) (s : State), s.plant.up (.cell c) = true → s.plant.getN (.cell c) K.swState = 4 →
    (s.plant.cell c).car.inserted = true → s.plant.getN (.cell c) K.pwmExtreme ≠ 1 → (s.plant.nextRegs c).2 = 0 →
    exec (.trimEdge c false) s = .next { s with
    plant :=
      let d := s.plant.cellDevices c 4 (s.plant.carrierNeg c)
      (s.plant.aimGates c (gatesFor (s.plant.getN (.cell c) K.swType) (d.1 + d.2.2))).onCell c (fun x => { x with
        car := { x.car with inserted := false } }) })

/-- Samples, inputs and feedback of a cell (06 R151, R152, R162): CELL_SAMPLE in ACTIVE or STANDBY; ADC_COMPLETE of codes inside their
range; DI_CHANGE of an input without a function; FB_WINDOW_EXPIRE and GF_MISMATCH of an output in use; FB_CLEAR by service frame.
The model's choices in it: log entry 73. -/
def Obligations.CellSamplesComplete : Prop :=
  (∀ (c : CellId) (v i : BitVec 16) (s : State), s.plant.up (.cell c) = true → s.plant.getN (.cell c) K.pwrState ≤ 1 →
    exec (.cellSample c v i) s = .next { s with
    plant := s.plant.onCell c (fun e => { e with
      pendV := v.toNat, pendI := i.toInt,
      sample := {
                  k := s.plant.sampleK c, v := e.sample.v, i := e.sample.i, state := s.plant.stateByte c,
                  cseq := if e.hasCmd then e.cseq else 0 } }) }) ∧
  (∀ (c : CellId) (s : State), s.plant.up (.cell c) = true → (s.plant.cell c).pendV ≠ 0 → (s.plant.cell c).pendV ≠ 65535 →
    (s.plant.cell c).pendI ≠ -32768 → (s.plant.cell c).pendI ≠ 32767 →
    (((s.plant.cell c).pendV : Int) - s.plant.get (.cell c) K.adcVOffset) * s.plant.get (.cell c) K.adcVGain < 50000000 →
    exec (.adcComplete c) s = .next { s with
    plant :=
      ((s.plant.put (.cell c) K.adcVCode (s.plant.cell c).pendV).put (.cell c) K.adcICode (s.plant.cell c).pendI).onCell c
        (fun e => { e with sample := { e.sample with v := e.pendV, i := e.pendI } }) }) ∧
  (∀ (c : CellId) (n : Pin8) (level : Bool) (s : State), s.plant.up (.cell c) = true →
    bitOf (s.plant.getN (.cell c) K.diFunc) n.val = false →
    exec (.diChange c n level) s = .next { s with
    plant := s.plant.put (.cell c) K.diState
      ((setBit (s.plant.getN (.cell c) K.diState) n.val (level != bitOf (s.plant.getN (.cell c) K.diPol) n.val) : Nat) : Int) }) ∧
  (∀ (c : CellId) (n : Pin8) (s : State), s.plant.up (.cell c) = true →
    bitOf (gatesUsed (s.plant.getN (.cell c) K.swType)) n.val = true →
    exec (.fbWindowExpire c n) s = .next { s with
    plant :=
      s.plant.onCell c (fun e => { e with compared := e.compared ||| 2 ^ n.val }) }) ∧
  (∀ (c : CellId) (n : Pin8) (s : State), s.plant.up (.cell c) = true → bitOf (s.plant.cell c).compared n.val = true →
    exec (.gfMismatch c n) s = .next { s with
    plant :=
      (s.plant.put (.cell c) K.swFbFault ((s.plant.getN (.cell c) K.swFbFault ||| 2 ^ n.val : Nat) : Int)).raise (.cell c) 19 n.val }) ∧
  (∀ (c : CellId) (m : BitVec 8) (s : State), s.plant.acceptsAt (.cell c) K.swFbClear (beBytes 1 m.toNat) = true →
    exec (.fbClear (.service (.cell c)) m) s = .next { s with
    plant :=
      (s.plant.put (.cell c) K.swFbFault ((s.plant.getN (.cell c) K.swFbFault &&& (0xFF ^^^ m.toNat) : Nat) : Int)).endAcked (.cell c) })

/-- Hard trips and the bypass (06 R153–R160): HT_TRIP of an enabled input that fires nothing, and of one that fires at once; PATH_DISAGREE;
BLANK_EXPIRE; TRIP_CLEAR; FIRE_DELAY_EXPIRE; BYP_FIRE; BYP_STAT_CLOSED in a FIRED cell; FIRE_PULSE_END; BYP_CONFIRM_TIMEOUT with and
without a retry left; BYP_UNFIRE.
The model's choices in it: log entries 16, 72, 73. -/
def Obligations.CellProtectionCompletes : Prop :=
  (∀ (c : CellId) (n : Pin4) (s : State), s.plant.up (.cell c) = true → bitOf (s.plant.getN (.cell c) K.tripEn) n.val = true →
    bitOf (s.plant.cell c).blanked n.val = false → bitOf (s.plant.getN (.cell c) K.tripLatch) n.val = false →
    bitOf (s.plant.getN (.cell c) K.tripFire) n.val = false → bitOf (s.plant.cell c).counted n.val = false →
    s.plant.fired c = false → s.plant.getN (.cell c) K.capTrig ≠ 3 →
    exec (.htTrip c n true false) s = .next { s with
    plant :=
      let p := s.plant.put (.cell c) K.tripLatch ((s.plant.getN (.cell c) K.tripLatch ||| 2 ^ n.val : Nat) : Int)
      let p := ((p.holdLow c 0).bump (.cell c) K.tripCount 1).onCell c (fun e => { e with counted := e.counted ||| 2 ^ n.val })
      p.raise (.cell c) 16 n.val }) ∧
  (∀ (c : CellId) (n : Pin4) (s : State), s.plant.up (.cell c) = true → bitOf (s.plant.getN (.cell c) K.tripEn) n.val = true →
    bitOf (s.plant.cell c).blanked n.val = false → bitOf (s.plant.getN (.cell c) K.tripLatch) n.val = false →
    bitOf (s.plant.getN (.cell c) K.tripFire) n.val = true → bitOf (s.plant.cell c).counted n.val = true →
    (s.plant.cell c).fireWait = false → s.plant.getN (.cell c) K.tripFireDelay = 0 →
    s.plant.fired c = false → s.plant.getN (.cell c) K.capTrig ≠ 3 →
    exec (.htTrip c n true false) s = .next { s with
    plant :=
      let p := s.plant.put (.cell c) K.tripLatch ((s.plant.getN (.cell c) K.tripLatch ||| 2 ^ n.val : Nat) : Int)
      ((p.holdLow c 0).raise (.cell c) 16 n.val).fire c 1 }) ∧
  (∀ (c : CellId) (n : Pin4) (s : State), s.plant.up (.cell c) = true →
    bitOf (s.plant.getN (.cell c) K.tripLatch) n.val ≠ bitOf (s.plant.getN (.cell c) K.tripLatch) (n.val + 4) →
    exec (.pathDisagree c n) s = .next { s with plant := s.plant.raise (.cell c) 18 n.val }) ∧
  (∀ (c : CellId) (n : Pin4) (s : State),
    exec (.blankExpire c n) s = .next { s with
    plant :=
      s.plant.onCell c (fun e => { e with blanked := setBit e.blanked n.val false }) }) ∧
  (∀ (c : CellId) (m : BitVec 8) (s : State), s.plant.acceptsAt (.cell c) K.tripClear (beBytes 1 m.toNat) = true →
    exec (.tripClear (.service (.cell c)) m) s = .next { s with
    plant :=
      let n := m.toNat % 16
      ((s.plant.put (.cell c) K.tripLatch ((s.plant.getN (.cell c) K.tripLatch &&& (0xFF ^^^ (n + 16 * n)) : Nat) : Int)).onCell c
        (fun e => { e with counted := e.counted &&& (15 ^^^ n) })).endAcked (.cell c) }) ∧
  (∀ (c : CellId) (s : State), (s.plant.cell c).fireWait = true →
    exec (.fireDelayExpire c) s = .next { s with plant := (s.plant.onCell c (fun e => { e with fireWait := false })).fire c 1 }) ∧
  (∀ (c : CellId) (v : BitVec 16) (s : State), s.plant.acceptsAt (.cell c) K.bypFire (beBytes 2 v.toNat) = true →
    exec (.bypFire (.service (.cell c)) v) s = .next { s with plant := s.plant.fire c 2 }) ∧
  (∀ (c : CellId) (s : State), s.plant.fired c = true →
    exec (.bypStatClosed c) s = .next { s with
    plant :=
      let p := s.plant.onCell c (fun e => { e with bypPin := some (s.plant.getN (.cell c) K.bypStatPol != 1) })
      (p.put (.cell c) K.bypStatus ((setBit (s.plant.getN (.cell c) K.bypStatus) 0 true : Nat) : Int)).onCell c
        (fun e => { e with confirmed := true }) }) ∧
  (∀ (c : CellId) (s : State), s.plant.fired c = false →
    exec (.bypStatClosed c) s = .next { s with
    plant :=
      let p := s.plant.onCell c (fun e => { e with bypPin := some (s.plant.getN (.cell c) K.bypStatPol != 1) })
      (p.put (.cell c) K.bypStatus ((setBit (s.plant.getN (.cell c) K.bypStatus) 0 true : Nat) : Int)).fire c 4 }) ∧
  (∀ (c : CellId) (s : State),
    exec (.firePulseEnd c) s = .next { s with plant := s.plant.onCell c (fun e => { e with firing := false }) }) ∧
  (∀ (c : CellId) (s : State), s.plant.fired c = true → (s.plant.cell c).confirmed = false → 0 < (s.plant.cell c).retries →
    exec (.bypConfirmTimeout c) s = .next { s with
    plant :=
      s.plant.onCell c (fun e => { e with firing := true, retries := e.retries - 1 }) }) ∧
  (∀ (c : CellId) (s : State), s.plant.fired c = true → (s.plant.cell c).confirmed = false → (s.plant.cell c).retries = 0 →
    exec (.bypConfirmTimeout c) s = .next { s with
    plant :=
      (s.plant.put (.cell c) K.bypStatus ((s.plant.getN (.cell c) K.bypStatus ||| 4 : Nat) : Int)).raise (.cell c) 21 0 }) ∧
  (∀ (c : CellId) (v : BitVec 16) (s : State), s.plant.acceptsAt (.cell c) K.bypUnfire (beBytes 2 v.toNat) = true →
    exec (.bypUnfire (.service (.cell c)) v) s = .next { s with
    plant :=
      ((s.plant.put (.cell c) K.bypStatus ((s.plant.getN (.cell c) K.bypStatus &&& 1 : Nat) : Int)).setPlain c 0).endAcked
        (.cell c) })

/-- Bench mode of a cell and its carrier registers by service frame (06 R144, R145, R161): BENCH entered and left;
PRD_WR outside the tick of a load and in it; CMP_WR outside the tick of a load point and in it. The model's choices in
it: log entry 28. -/
def Obligations.BenchCompletes : Prop :=
  (∀ (c : CellId) (s : State), s.plant.acceptsAt (.cell c) K.swBench (beBytes 1 1) = true →
    exec (.bench (.service (.cell c)) 1) s = .next { s with plant := s.plant.put (.cell c) K.swBench 1 }) ∧
  (∀ (c : CellId) (s : State), s.plant.acceptsAt (.cell c) K.swBench (beBytes 1 0) = true → s.plant.getN (.cell c) K.swBench = 1 →
    s.plant.fired c = false →
    exec (.bench (.service (.cell c)) 0) s = .next { s with plant := (s.plant.put (.cell c) K.swBench 0).setPlain c 0 }) ∧
  (∀ (c : CellId) (v : BitVec 16) (s : State), s.plant.acceptsAt (.cell c) K.pwmPrdWr (beBytes 2 v.toNat) = true →
    (s.plant.cell c).car.loadTick = s.plant.tick + 1 →
    exec (.prdWr (.service (.cell c)) v) s = .next { s with
    plant :=
      ((s.plant.onCell c (fun e => { e with car := { e.car with prdSh := v.toNat, prdPend := false } })).showPending c).put (.cell c)
        K.pwmPrd v.toNat }) ∧
  (∀ (c : CellId) (v : BitVec 16) (s : State), s.plant.acceptsAt (.cell c) K.pwmPrdWr (beBytes 2 v.toNat) = true →
    (s.plant.cell c).car.loadTick ≠ s.plant.tick + 1 →
    exec (.prdWr (.service (.cell c)) v) s = .next { s with
    plant :=
      (s.plant.onCell c (fun e => { e with car := { e.car with prdSh := v.toNat, prdPend := true } })).showPending c }) ∧
  (∀ (c : CellId) (v : BitVec 32) (s : State), s.plant.acceptsAt (.cell c) K.pwmCmpWr (beBytes 4 v.toNat) = true →
    (s.plant.cell c).car.pointTick = s.plant.tick + 1 →
    exec (.cmpWr (.service (.cell c)) v) s = .next { s with
    plant :=
      ((s.plant.onCell c (fun e => { e with car := { e.car with cmpSh := v.toNat, armed := true } })).showPending c).loadRegs c }) ∧
  (∀ (c : CellId) (v : BitVec 32) (s : State), s.plant.acceptsAt (.cell c) K.pwmCmpWr (beBytes 4 v.toNat) = true →
    (s.plant.cell c).car.pointTick ≠ s.plant.tick + 1 →
    exec (.cmpWr (.service (.cell c)) v) s = .next { s with
    plant :=
      (s.plant.onCell c (fun e => { e with car := { e.car with cmpSh := v.toNat, armed := true } })).showPending c })

/-- The ledger of a cell and its activities (07 R169–R177, R187): LEDGER_SAMPLE in READY with E_avail at or above the deferral level;
RC_MEASURE inside and outside its range; ACTIVITY_REQUEST of a deferrable activity granted and refused, of a lane granted;
ACTIVITY_END; BYPASS_ON_RESET_EXPIRE.
The model's choices in it: log entry 65. -/
def Obligations.EnergyLedgerCompletes : Prop :=
  (∀ (c : CellId) (vin : BitVec 16) (shunt : BitVec 32) (s : State) (store ua draw : Nat),
    (s.plant.node (.cell c)).power.rails = true → (s.plant.node (.cell c)).power.held = false → vin.toNat < 4095 →
    shunt.toNat < 4095 → ua = 25 * shunt.toNat * 1000 / s.plant.getN (.cell c) K.nrgShuntMohm →
    store = storeUnits (s.plant.getN (.cell c) K.nrgCHold) (8 * vin.toNat) (s.plant.getN (.cell c) K.nrgVMin) →
    draw = drawUnits (8 * vin.toNat) ua → s.plant.getN (.cell c) K.nrgState = 2 →
    0 < (store : Int) - s.plant.getN (.cell c) K.nrgReserve →
    s.plant.get (.cell c) K.nrgDeferLevel ≤ (store : Int) - s.plant.getN (.cell c) K.nrgReserve →
    (s.plant.cell c).led.laneWant = [] → (s.plant.cell c).led.bootWant = false →
    exec (.ledgerSample c vin shunt) s = .next { s with
    plant :=
      let p := (((s.plant.put (.cell c) K.nrgVin ((8 * vin.toNat : Nat) : Int)).put (.cell c) K.nrgIin ua).put (.cell c) K.nrgStore store).put
        (.cell c) K.nrgAvail ((store : Int) - s.plant.getN (.cell c) K.nrgReserve)
      ((p.bump (.cell c) K.nrgUsed draw).addMeans c draw ((store : Int) - (s.plant.cell c).led.lastStore + draw)).onCell c
        (fun e => { e with led := { e.led with lastStore := store } }) }) ∧
  (∀ (c : CellId) (hz : BitVec 32) (s : State), s.plant.up (.cell c) = true → 972800 ≤ hz.toNat → hz.toNat ≤ 1075200 →
    exec (.rcMeasure c hz) s = .next { s with plant := s.plant.put (.cell c) K.aonRcFreq hz.toNat }) ∧
  (∀ (c : CellId) (hz : BitVec 32) (s : State), s.plant.up (.cell c) = true → 1075200 < hz.toNat →
    exec (.rcMeasure c hz) s = .next { s with plant := s.plant.raise (.cell c) 36 0 }) ∧
  (∀ (c : CellId) (act : Fin 8) (s : State), act.val = 5 ∨ act.val = 6 → s.plant.getN (.cell c) K.nrgState = 2 →
    (s.plant.getN (.cell c) K.nrgDeferLevel : Int) ≤ s.plant.freeEnergy c - s.plant.cost c act.val →
    exec (.activityRequest c act) s = .next { s with
    plant :=
      s.plant.onCell c (fun e => { e with led := { e.led with holds := act.val :: e.led.holds } }) }) ∧
  (∀ (c : CellId) (act : Fin 8) (s : State), act.val = 5 ∨ act.val = 6 → s.plant.getN (.cell c) K.nrgState = 3 →
    exec (.activityRequest c act) s = .next { s with plant := s.plant.bump (.cell c) K.nrgRefused 1 }) ∧
  (∀ (c : CellId) (act : Fin 8) (s : State), 1 ≤ act.val → act.val ≤ 4 → s.plant.getN (.cell c) K.nrgState = 2 →
    (s.plant.cost c act.val + s.plant.getN (.cell c) K.nrgMargin : Int) ≤ s.plant.freeEnergy c →
    exec (.activityRequest c act) s = .next { s with
    plant :=
      let p := s.plant.onCell c (fun e => { e with led := { e.led with holds := act.val :: e.led.holds } })
      (p.laneDown (.cell c) ((act.val - 1) % 2) 1).onCell c (fun e =>
        { e with led := { e.led with laneWant := e.led.laneWant.filter (· != act.val) } }) }) ∧
  (∀ (c : CellId) (act : Fin 8) (s : State),
    exec (.activityEnd c act) s = .next { s with
    plant :=
      s.plant.onCell c (fun e => { e with led := { e.led with holds := e.led.holds.erase act.val } }) }) ∧
  (∀ (c : CellId) (s : State), (s.plant.node (.cell c)).power.held = true → (s.plant.cell c).led.timing = true →
    exec (.bypassOnResetExpire c) s = .next { s with plant := s.plant.fire c 3 })

/-- A cell's boot, power good and power states (07 R174, R179–R186, 17 R462): BOOT_COMPLETE in BOOT with both lanes
up, and in a core reset; BOOT_LANE_TIMEOUT; CORE_PG_RISE in BOOT; CORE_PG_TIMEOUT; CORE_PG_FALL; PWR_REQUEST outside
DEEP; POWER_STATE_ENTER into STANDBY or DEEP, back into ACTIVE, and into AON. The model's choices in it: log entry 65.
-/
def Obligations.CellPowerCompletes : Prop :=
  (∀ (c : CellId) (s : State), s.plant.up (.cell c) = true → s.plant.getN (.cell c) K.nrgState = 1 →
    s.plant.laneUp (.cell c) 0 = true → s.plant.laneUp (.cell c) 1 = true →
    s.plant.getN (.cell c) K.nrgDeferLevel + s.plant.getN (.cell c) K.nrgMargin ≤ s.plant.get (.cell c) K.nrgAvail →
    exec (.bootComplete c) s = .next { s with
    plant :=
      let p := s.plant.onCell c (fun e => { e with led := { e.led with holds := e.led.holds.erase 0 } })
      (p.put (.cell c) K.nrgState 2).onCell c (fun e => { e with led := { e.led with armed := true } }) }) ∧
  (∀ (c : CellId) (s : State), s.plant.up (.cell c) = true → s.plant.getN (.cell c) K.nrgState = 2 →
    exec (.bootComplete c) s = .next { s with
    plant :=
      s.plant.onCell c (fun e => { e with led := { e.led with holds := e.led.holds.erase 0 } }) }) ∧
  (∀ (c : CellId) (lane : Fin 2) (s : State), s.plant.up (.cell c) = true → s.plant.getN (.cell c) K.nrgState = 1 →
    s.plant.laneUp (.cell c) lane.val = false →
    s.plant.getN (.cell c) K.nrgDeferLevel + s.plant.getN (.cell c) K.nrgMargin ≤ s.plant.get (.cell c) K.nrgAvail →
    exec (.bootLaneTimeout c lane) s = .next { s with
    plant :=
      let p := s.plant.onCell c (fun e => { e with led := { e.led with laneGaveUp := addTo e.led.laneGaveUp lane.val } })
      let p := p.onCell c (fun e => { e with led := { e.led with holds := e.led.holds.erase 0 } })
      (p.put (.cell c) K.nrgState 2).onCell c (fun e => { e with led := { e.led with armed := true } }) }) ∧
  (∀ (c : CellId) (s : State), (s.plant.node (.cell c)).power.rails = true → s.plant.getN (.cell c) K.nrgState = 1 →
    exec (.corePgRise c) s = .next { s with
    plant :=
      (s.plant.onCell c (fun e => { e with led := { e.led with pg := true } })).bootIfReady c }) ∧
  (∀ (c : CellId) (s : State), s.plant.getN (.cell c) K.nrgState = 1 → (s.plant.cell c).led.pg = false →
    exec (.corePgTimeout c) s = .next { s with plant := s.plant.abortBoot c }) ∧
  (∀ (c : CellId) (s : State), s.plant.up (.cell c) = true →
    exec (.corePgFall c) s = .next { s with
    plant :=
      ((s.plant.onCell c (fun e => { e with led := { e.led with pg := false } })).raise (.cell c) 0 0).cellDown c .pin 1 }) ∧
  (∀ (c : CellId) (v : BitVec 8) (s : State), s.plant.acceptsAt (.cell c) K.pwrRequest (beBytes 1 v.toNat) = true → 1 ≤ v.toNat →
    s.plant.laneUp (.cell c) 0 = true → s.plant.laneUp (.cell c) 1 = true → s.plant.getN (.cell c) K.pwrState ≠ 2 →
    exec (.pwrRequest (.service (.cell c)) v) s = .next { s with
    plant :=
      let p := s.plant.onCell c (fun e => { e with led := { e.led with pwrWant := some v.toNat } })
      (p.askLane (.cell c) 0 (min v.toNat 2)).askLane (.cell c) 1 (min v.toNat 2) }) ∧
  (∀ (c : CellId) (v : Nat) (s : State), s.plant.up (.cell c) = true → (s.plant.cell c).led.pwrWant = some v → v = 1 ∨ v = 2 →
    s.plant.laneState (.cell c) 0 = v + 2 → s.plant.laneState (.cell c) 1 = v + 2 →
    exec (.powerStateEnter c) s = .next { s with
    plant := (s.plant.put (.cell c) K.pwrState v).onCell c (fun e =>
      { e with missRun := 0, led := { e.led with pwrWant := none } }) }) ∧
  (∀ (c : CellId) (s : State), s.plant.up (.cell c) = true → (s.plant.cell c).led.pwrWant = some 0 →
    s.plant.laneState (.cell c) 0 = 2 → s.plant.laneState (.cell c) 1 = 2 →
    (s.plant.getN (.cell c) K.pwrState ≠ 2 ∨ s.plant.locked (.cell c) = true) →
    exec (.powerStateEnter c) s = .next { s with
    plant := (s.plant.put (.cell c) K.pwrState 0).onCell c (fun e =>
      { e with missRun := 0, led := { e.led with pwrWant := none } }) }) ∧
  (∀ (c : CellId) (s : State), s.plant.up (.cell c) = true → (s.plant.cell c).led.pwrWant = some 3 →
    s.plant.laneState (.cell c) 0 = 4 → s.plant.laneState (.cell c) 1 = 4 →
    exec (.powerStateEnter c) s = .next { s with plant := s.plant.enterAon c })

/-- The capture of a cell (13 R366, R373, R374): CAP_ARM, CAP_STOP and CAP_FORCE of an armed capture, by service
frame, and CELL_CAPTURE_SAMPLE before the trigger with trigger 0, and at the last sample after it. The model's choices
in it: log entry 42. -/
def Obligations.CellCaptureCompletes : Prop :=
  (∀ (c : CellId) (s : State), s.plant.acceptsAt (.cell c) K.capCtrl (beBytes 1 1) = true →
    exec (.capArm (.service (.cell c))) s = .next { s with
    plant :=
      let p := ((s.plant.onCell c (fun e => { e with cap := default })).put (.cell c) K.capState 1).put (.cell c) K.capTrigTime 0
      ((p.put (.cell c) K.capFirstTime 0).put (.cell c) K.capPreValid 0).put (.cell c) K.capFlags 0 }) ∧
  (∀ (c : CellId) (s : State), s.plant.acceptsAt (.cell c) K.capCtrl (beBytes 1 2) = true →
    exec (.capStop (.service (.cell c))) s = .next { s with plant := s.plant.capClose c 0 }) ∧
  (∀ (c : CellId) (s : State), s.plant.acceptsAt (.cell c) K.capCtrl (beBytes 1 3) = true →
    s.plant.getN (.cell c) K.capState = 1 → s.plant.getN (.cell c) K.capPre ≤ (s.plant.cell c).cap.total →
    exec (.capForce (.service (.cell c))) s = .next { s with
    plant :=
      let e := (s.plant.cell c).cap
      let p := (s.plant.put (.cell c) K.capState 2).put (.cell c) K.capTrigTime ((e.recs.head?.bind List.head?).getD 0)
      (p.put (.cell c) K.capPreValid (min e.total 8192 : Nat)).onCell c (fun x =>
        { x with cap := { x.cap with trigger := some e.total, after := 8192 - s.plant.getN (.cell c) K.capPre } }) }) ∧
  (∀ (c : CellId) (vc ic : BitVec 16) (fb : BitVec 8) (s : State), s.plant.up (.cell c) = true →
    s.plant.getN (.cell c) K.capState = 1 → s.plant.getN (.cell c) K.capTrig = 0 →
    exec (.cellCaptureSample c vc ic fb) s = .next { s with
    plant :=
      let v := fun n => s.plant.capValue c (s.plant.getN (.cell c) (K.capSrc + n)) vc.toNat ic.toNat fb.toNat
      s.plant.onCell c (fun e => { e with cap := { e.cap with
        recs := ([s.plant.capTime c, v 0, v 1, v 2, v 3] :: e.cap.recs).take 8192, total := e.cap.total + 1,
        after := e.cap.after - 1 } }) }) ∧
  (∀ (c : CellId) (vc ic : BitVec 16) (fb : BitVec 8) (s : State), s.plant.up (.cell c) = true →
    s.plant.getN (.cell c) K.capState = 2 → (s.plant.cell c).cap.after ≤ 1 →
    exec (.cellCaptureSample c vc ic fb) s = .next { s with
    plant :=
      let v := fun n => s.plant.capValue c (s.plant.getN (.cell c) (K.capSrc + n)) vc.toNat ic.toNat fb.toNat
      (s.plant.onCell c (fun e => { e with cap := { e.cap with
        recs := ([s.plant.capTime c, v 0, v 1, v 2, v 3] :: e.cap.recs).take 8192, total := e.cap.total + 1,
        after := e.cap.after - 1 } })).capClose c 0 })

/-- Training and loss of a lane (08 R194, R196, R197, R200, R210, R219, 07 R186): LANE_LOST of a lane that carries
frames, at a part whose core runs; TRAIN_TIMEOUT at a CVC or hub, and at a cell; LANE_UP of a lane whose ends are up,
at a CVC or hub and at a cell; BLOCK_LOCK; LSTATE_UP in training; LSTATE_DOWN; LANE_WAKE of a lane in L2 at a CVC or
hub, and at a cell in AON. The model's choices in it: log entries 66, 84. -/
def Obligations.LaneTrainingCompletes : Prop :=
  (∀ (port : Port) (cause : Fin 7) (s : State), s.plant.up port.part = true → s.plant.laneUp port.part port.lane.val = true →
    cause.val ≠ 5 → (cause.val = 4 → stringLaneOf port.part port.lane.val = true) →
    exec (.laneLost port cause) s = .next { s with
    plant :=
      let q := port.part
      let l := port.lane.val
      let p := (s.plant.bump q (laneKey l 4) 1).put q (laneKey l 6) cause.val
      let p := (p.laneDown q l 1).respread q l (s.plant.lane q l).movable
      ((p.sendOs q l true (osLstate 0 4 (partCode q))).breakOwn q l true).lossSources q l }) ∧
  (∀ (port : Port) (s : State), port.part.kind ≠ 2 → s.plant.laneState port.part port.lane.val = 1 →
    exec (.trainTimeout port) s = .next { s with
    plant :=
      (s.plant.laneDown port.part port.lane.val 1).bump port.part (laneKey port.lane.val 5) 1 }) ∧
  (∀ (port : Port) (s : State), port.part.kind = 2 → s.plant.laneState port.part port.lane.val = 1 →
    exec (.trainTimeout port) s = .next { s with
    plant :=
      ((s.plant.laneDown port.part port.lane.val 1).bump port.part (laneKey port.lane.val 5) 1).raise port.part 44 port.lane.val }) ∧
  (∀ (port : Port) (s : State), port.part.kind ≠ 2 → s.plant.laneState port.part port.lane.val = 1 →
    s.plant.endUp port.part port.lane.val = true →
    exec (.laneUp port) s = .next { s with
    plant :=
      (s.plant.setLaneState port.part port.lane.val 2).onLane port.part port.lane.val (fun e => { e with
        exch := { out := false, t1 := 0, results := [], since := 0 } }) }) ∧
  (∀ (port : Port) (c : CellId) (s : State), port.part = .cell c → s.plant.laneState (.cell c) port.lane.val = 1 →
    s.plant.endUp (.cell c) port.lane.val = true →
    exec (.laneUp port) s = .next { s with
    plant :=
      ((s.plant.put (.cell c) (laneKey port.lane.val 2) 2).onLane (.cell c) port.lane.val (fun e => { e with
        exch := { out := false, t1 := 0, results := [], since := 0 } })).onCell c (fun e => { e with
          led := { e.led with holds := (e.led.holds.erase (1 + port.lane.val)).erase (3 + port.lane.val) } }) }) ∧
  (∀ (port : Port) (s : State), s.plant.laneState port.part port.lane.val = 1 →
    exec (.blockLock port) s = .next { s with
    plant :=
      (s.plant.put port.part (laneKey port.lane.val 3) 1).onLane port.part port.lane.val (fun e =>
        { e with upRecv := 0, upSent := 0 }) }) ∧
  (∀ (port : Port) (os : Header) (s : State), s.plant.hearsOs port os 3 = true → bits os.toNat 49 47 = 3 →
    s.plant.laneState port.part port.lane.val = 1 → s.plant.getN port.part (laneKey port.lane.val 3) = 1 →
    exec (.lstateUp port os) s = .next { s with
    plant :=
      (s.plant.sendOs port.part port.lane.val true (osLstate 0 3 (partCode port.part))).onLane port.part port.lane.val (fun e =>
        { e with upRecv := min 4 (e.upRecv + 1), upSent := min 4 (e.upSent + 1) }) }) ∧
  (∀ (port : Port) (os : Header) (s : State), s.plant.hearsOs port os 3 = true → bits os.toNat 49 47 = 4 →
    exec (.lstateDown port os) s = .next { s with plant := s.plant.declareLost port.part port.lane.val 6 }) ∧
  (∀ (port : Port) (s : State), port.part.kind ≠ 2 → s.plant.laneState port.part port.lane.val = 4 →
    exec (.laneWake port) s = .next { s with plant := s.plant.laneDown port.part port.lane.val 1 }) ∧
  (∀ (port : Port) (c : CellId) (s : State), port.part = .cell c → (s.plant.cell c).led.aon = true →
    exec (.laneWake port) s = .next { s with
    plant :=
      s.plant.onCell c (fun e => { e with led := { e.led with wake := true } }) })

/-- Power states, adaptation and pattern tests of a lane (08 R199–R203): LSTATE_REQ of L0 or L1, and on a lane in a
test; LSTATE_ACK of L0 or L1, LSTATE_NAK, LSTATE_REQ_TIMEOUT and LSTATE_REQ_RETRY of a request; EYE_ESTIMATE that
keeps the new coefficients; PRBS_SYNC; PRBS_SYNC_LOSS of a synchronised checker, whose count of errors in the second
it ends is a free value above 31; PRBS_SECOND without and with errors; PRBS_CLEAR by service frame and by the owner.
The model's choices in it: log entries 66, 84. -/
def Obligations.LanePowerCompletes : Prop :=
  (∀ (port : Port) (os : Header) (s : State), s.plant.hearsOs port os 3 = true → bits os.toNat 49 47 = 0 →
    bits os.toNat 51 50 < 2 → s.plant.laneUp port.part port.lane.val = true →
    exec (.lstateReq port os) s = .next { s with
    plant :=
      let st := bits os.toNat 51 50
      (s.plant.sendOs port.part port.lane.val false (osLstate st 1 (partCode port.part))).setLaneState port.part port.lane.val
        (powerCode st) }) ∧
  (∀ (port : Port) (os : Header) (s : State), s.plant.hearsOs port os 3 = true → bits os.toNat 49 47 = 0 →
    bits os.toNat 51 50 < 3 → s.plant.laneState port.part port.lane.val = 5 →
    exec (.lstateReq port os) s = .next { s with
    plant :=
      s.plant.sendOs port.part port.lane.val true (osLstate (bits os.toNat 51 50) 2 (partCode port.part)) }) ∧
  (∀ (port : Port) (os : Header) (s : State) (st : Nat), s.plant.hearsOs port os 3 = true → bits os.toNat 49 47 = 1 →
    (s.plant.lane port.part port.lane.val).asked = true → s.plant.laneUp port.part port.lane.val = true →
    (s.plant.lane port.part port.lane.val).want = some st → st ≠ 2 →
    exec (.lstateAck port os) s = .next { s with
    plant :=
      (s.plant.onLane port.part port.lane.val (fun e => { e with asked := false, want := none })).setLaneState port.part
        port.lane.val (powerCode st) }) ∧
  (∀ (port : Port) (os : Header) (s : State), s.plant.hearsOs port os 3 = true → bits os.toNat 49 47 = 2 →
    exec (.lstateNak port os) s = .next { s with
    plant := s.plant.onLane port.part port.lane.val (fun e =>
      if e.asked then { e with asked := false, want := none } else e) }) ∧
  (∀ (port : Port) (s : State),
    exec (.lstateReqTimeout port) s = .next { s with
    plant :=
      s.plant.onLane port.part port.lane.val (fun e => { e with asked := false }) }) ∧
  (∀ (port : Port) (s : State) (st : Nat), (s.plant.lane port.part port.lane.val).want = some st →
    (s.plant.lane port.part port.lane.val).asked = false → s.plant.laneUp port.part port.lane.val = true →
    exec (.lstateReqRetry port) s = .next { s with
    plant :=
      (s.plant.onLane port.part port.lane.val (fun e => { e with want := some st, asked := true })).sendOs port.part port.lane.val false
        (osLstate st 0 (partCode port.part)) }) ∧
  (∀ (port : Port) (eye coef : BitVec 16) (s : State), s.plant.getN port.part (laneKey port.lane.val 0x16) ≠ 1 →
    s.plant.receiverOff port.part port.lane.val = false → s.plant.laneState port.part port.lane.val ≠ 3 →
    s.plant.getN port.part (laneKey port.lane.val 0x0C) = 0 →
    s.plant.getN port.part (laneKey port.lane.val 8) ≤ eye.toNat + s.plant.getN port.part K.laneAdaptGuard →
    exec (.eyeEstimate port eye coef) s = .next { s with
    plant :=
      (s.plant.put port.part (laneKey port.lane.val 7) (eye.toNat : Nat)).onLane port.part port.lane.val (fun e =>
        { e with coef := coef.toNat }) }) ∧
  (∀ (port : Port) (s : State), s.plant.getN port.part (laneKey port.lane.val 0x0C) ≠ 0 →
    exec (.prbsSync port) s = .next { s with plant := s.plant.put port.part (laneKey port.lane.val 0x0D) 1 }) ∧
  (∀ (port : Port) (s : State), s.plant.getN port.part (laneKey port.lane.val 0x0D) = 1 →
    exec (.prbsSyncLoss port) s = .next { s with
    plant :=
      (s.plant.free.2.put port.part (laneKey port.lane.val 0x0D) 0).bump port.part (laneKey port.lane.val 0x0E)
        (32 + s.plant.free.1) }) ∧
  (∀ (port : Port) (errors : BitVec 32) (s : State), s.plant.getN port.part (laneKey port.lane.val 0x0D) = 1 → errors ≠ 0 →
    exec (.prbsSecond port errors) s = .next { s with
    plant :=
      (s.plant.bump port.part (laneKey port.lane.val 0x10) 1).bump port.part (laneKey port.lane.val 0x0E) errors.toNat }) ∧
  (∀ (port : Port) (s : State), s.plant.getN port.part (laneKey port.lane.val 0x0D) = 1 →
    exec (.prbsSecond port 0) s = .next { s with
    plant :=
      ((s.plant.bump port.part (laneKey port.lane.val 0x10) 1).bump port.part (laneKey port.lane.val 0x0E) 0).bump port.part
        (laneKey port.lane.val 0x0F) 1 }) ∧
  (∀ (q : Part) (lane : Fin 52) (v : BitVec 8) (s : State), lane.val < laneCount q.kind →
    s.plant.acceptsAt q (laneKey lane.val 0x11) (beBytes 1 v.toNat) = true →
    exec (.prbsClear (.service q) lane v) s = .next { s with
    plant :=
      (((s.plant.put q (laneKey lane.val 0x0D) 0).put q (laneKey lane.val 0x0E) 0).put q (laneKey lane.val 0x0F) 0).put q
        (laneKey lane.val 0x10) 0 }) ∧
  (∀ (r : Req) (lane : Fin 52) (v : BitVec 8) (s : State), s.plant.accepts r (laneKey lane.val 0x11) (beBytes 1 v.toNat) = true →
    exec (.prbsClear (.host r) lane v) s = .next { s with
    plant :=
      s.plant.answered r (laneKey lane.val 0x11) (beBytes 1 v.toNat) (fun p =>
        (((p.cPut (laneKey lane.val 0x0D) 0).cPut (laneKey lane.val 0x0E) 0).cPut (laneKey lane.val 0x0F) 0).cPut
          (laneKey lane.val 0x10) 0) })

/-- Notices along a string (08 R205, R206, R210, R211, R214, R216): a new NOTICE_BREAK at a cell, at a hub's string lane and at the CVC,
which shows the lost sets of the hub it comes from; a new NOTICE_MEND at the CVC; a new NOTICE_PASS and NOTICE_SERVE at a hub;
MEND_COUNT_REACHED at a cell; PASS_THROUGH_ENTRY of a core in reset, and of one that stops.
The model's choices in it: log entries 13, 14, 66, 77. -/
def Obligations.NoticesComplete : Prop :=
  (∀ (port : Port) (c : CellId) (os : Header) (s : State), port.part = .cell c → s.plant.hearsOs port os 1 = true →
    bits os.toNat 51 50 = 0 → s.plant.noticeNew (.cell c) port.lane.val os = true → s.plant.serving (.cell c) = true →
    exec (.noticeBreak port os) s = .next { s with
    plant :=
      let j := bits os.toNat 49 44
      ((s.plant.noticeSeen (.cell c) port.lane.val os).sendNotice (.cell c) (otherLane port.lane.val) false os).onCell c (fun e =>
        { e with plan := { e.plan with
          learned := addTo e.plan.learned j,
          rx := e.plan.rx.map (fun r => { r with clears := r.clears.filter (fun x => x != j) }) } }) }) ∧
  (∀ (port : Port) (h : Fin 8) (os : Header) (s : State), port.part = .hub h → port.lane.val < 48 →
    s.plant.hearsOs port os 1 = true → bits os.toNat 51 50 = 0 → s.plant.noticeNew (.hub h) port.lane.val os = true →
    exec (.noticeBreak port os) s = .next { s with
    plant :=
      let j := bits os.toNat 49 44
      let k := port.lane.val / 2
      let p := (s.plant.noticeSeen (.hub h) port.lane.val os).onPort h k (fun e =>
        { e with plan := { e.plan with learned := addTo e.plan.learned j } })
      (p.showLost h k).osUp h (osNotice 0 j (bits os.toNat 43 36)) }) ∧
  (∀ (port : Port) (h : Fin 8) (os : Header) (s : State), port.part = .cvc → port.lane.val / 2 = h.val →
    s.plant.hearsOs port os 1 = true → bits os.toNat 51 50 = 0 → s.plant.noticeNew .cvc port.lane.val os = true →
    exec (.noticeBreak port os) s = .next { s with plant := (s.plant.noticeSeen .cvc port.lane.val os).takeLost h }) ∧
  (∀ (port : Port) (h : Fin 8) (os : Header) (s : State), port.part = .cvc → port.lane.val / 2 = h.val →
    s.plant.hearsOs port os 1 = true → bits os.toNat 51 50 = 1 → s.plant.noticeNew .cvc port.lane.val os = true →
    exec (.noticeMend port os) s = .next { s with plant := (s.plant.noticeSeen .cvc port.lane.val os).takeLost h }) ∧
  (∀ (port : Port) (h : Fin 8) (os : Header) (s : State), port.part = .hub h → port.lane.val < 48 →
    s.plant.hearsOs port os 1 = true → bits os.toNat 51 50 = 2 → s.plant.noticeNew (.hub h) port.lane.val os = true →
    exec (.noticePass port os) s = .next { s with
    plant :=
      (s.plant.noticeSeen (.hub h) port.lane.val os).onPort h (port.lane.val / 2) (fun e =>
        { e with passed := addTo e.passed (bits os.toNat 49 44) }) }) ∧
  (∀ (port : Port) (h : Fin 8) (os : Header) (s : State), port.part = .hub h → port.lane.val < 48 →
    s.plant.hearsOs port os 1 = true → bits os.toNat 51 50 = 3 → s.plant.noticeNew (.hub h) port.lane.val os = true →
    exec (.noticeServe port os) s = .next { s with
    plant :=
      (s.plant.noticeSeen (.hub h) port.lane.val os).onPort h (port.lane.val / 2) (fun e =>
        { e with passed := e.passed.filter (fun x => x != bits os.toNat 49 44) }) }) ∧
  (∀ (port : Port) (c : CellId) (s : State), port.part = .cell c → s.plant.laneUp (.cell c) port.lane.val = true →
    (s.plant.cell c).plan.own.contains (s.plant.stringLane (.cell c) port.lane.val) = true →
    exec (.mendCountReached port) s = .next { s with
    plant :=
      let j := s.plant.stringLane (.cell c) port.lane.val
      let n := ((s.plant.lane (.cell c) 0).nseq + 1) % 256
      let p := s.plant.onCell c (fun e => { e with plan := { e.plan with mends := addTo e.plan.mends j } })
      (p.onLane (.cell c) 0 (fun e => { e with nseq := n })).sendNotice (.cell c) (otherLane port.lane.val) false
        (osNotice 1 j n) }) ∧
  (∀ (c : CellId) (s : State), (s.plant.up (.cell c) = false ∨ (s.plant.cell c).halted = true) →
    exec (.passThroughEntry c) s = .next { s with
    plant :=
      let n := ((s.plant.lane (.cell c) 0).nseq + 1) % 256
      let os := osNotice 2 (s.plant.cell c).lanePos n
      ((s.plant.onLane (.cell c) 0 (fun e => { e with nseq := n })).sendNotice (.cell c) 0 false os).sendNotice (.cell c) 1 false os }) ∧
  (∀ (c : CellId) (s : State), s.plant.up (.cell c) = true → (s.plant.cell c).halted = false →
    exec (.passThroughEntry c) s = .next { s with
    plant := ((s.plant.maskOwn c).onCell c (fun e => { e with halted := true })).passNotice c 2 })

/-- Plans of a string (08 R205, R209, R211, R212): PLAN at a cell that serves; PLAN_LATCH in a locked hub, port by port, and in a locked
cell that holds its position and no PLAN, which falls back to the normal split, or a PLAN without a lost lane; PLAN_SEND, port by port.
The model's choices in it: log entries 26, 77. -/
def Obligations.PlansComplete : Prop :=
  (∀ (port : Port) (c : CellId) (os : Header) (s : State), port.part = .cell c → s.plant.hearsOs port os 2 = true →
    s.plant.serving (.cell c) = true →
    exec (.plan port os) s = .next { s with
    plant :=
      let st := (s.plant.cell c).plan
      let r := planRx os (if bitOf os.toNat 38 then st.learned ++ st.own else [])
      (s.plant.sendOs (.cell c) (otherLane port.lane.val) false os).onCell c (fun e =>
        { e with plan := { e.plan with rx := (r :: e.plan.rx).take 3 } }) }) ∧
  (∀ (h : Fin 8) (s : State), s.plant.up (.hub h) = true →
    s.plant.getN (.hub h) K.timeState = 2 ∨ s.plant.getN (.hub h) K.timeState = 3 →
    exec (.planLatch (.hub h)) s = .next { s with plant := (rangeFrom 0 24).foldl (fun p k => p.latchPort h k) s.plant }) ∧
  (∀ (c : CellId) (s : State) (n pos : Nat), s.plant.up (.cell c) = true →
    s.plant.getN (.cell c) K.timeState = 2 ∨ s.plant.getN (.cell c) K.timeState = 3 → (s.plant.cell c).posKnown = true →
    (s.plant.cell c).plan.rx = [] → (s.plant.cell c).plan.own = [] → (s.plant.cell c).plan.learned = [] →
    n = s.plant.c (K.stringCells + c.str.val) → pos = s.plant.getN (.cell c) K.stringPos → pos < n →
    exec (.planLatch (.cell c)) s = .next { s with
    plant :=
      let half := (n + 1) / 2
      let p := s.plant.onCell c (fun e => { e with plan := { e.plan with
        latched := some ⟨half, half, false, half - 1, if half = n then 63 else half, 1⟩ } })
      let p := (p.put (.cell c) K.stringA half).put (.cell c) K.stringB half
      (p.put (.cell c) K.stringSeg (if pos < half then 0 else 1)).put (.cell c) K.stringLaunch
        (if pos + 1 = half then 1 else if pos = half then 2 else 0) }) ∧
  (∀ (c : CellId) (s : State) (r : PlanRx) (pos : Nat), s.plant.up (.cell c) = true →
    s.plant.getN (.cell c) K.timeState = 2 ∨ s.plant.getN (.cell c) K.timeState = 3 → (s.plant.cell c).posKnown = true →
    ((s.plant.cell c).plan.rx.filter (fun x => decide (((s.plant.schedNow (.cell c)).k % 256 + 256 - x.seq) % 256 < 128))).head? =
      some r → r.brk = false → (s.plant.cell c).plan.own = [] → (s.plant.cell c).plan.learned = [] →
    pos = s.plant.getN (.cell c) K.stringPos →
    exec (.planLatch (.cell c)) s = .next { s with
    plant :=
      let p := s.plant.onCell c (fun e => { e with plan := { e.plan with
        rx := e.plan.rx.map (fun x => { x with fresh := false }), latched := some ⟨r.a, r.b, false, r.lh, r.lt, r.form⟩ } })
      let p := (p.put (.cell c) K.stringA r.a).put (.cell c) K.stringB r.b
      (p.put (.cell c) K.stringSeg (if pos < r.a then 0 else if r.b ≤ pos then 1 else 2)).put (.cell c) K.stringLaunch
        (if r.lh = pos ∧ pos < r.a then 1 else if r.lt = pos ∧ r.a ≤ pos ∧ r.b ≤ pos then 2 else 0) }) ∧
  (∀ (h : Fin 8) (s : State), s.plant.up (.hub h) = true →
    exec (.planSend h) s = .next { s with plant := (rangeFrom 0 24).foldl (fun p k => p.sendPlan h k) s.plant }) ∧
  (∀ (p : Plant) (h : Fin 8) (k : Nat) (v : PlanV), p.getN (.hub h) (K.stringCells + k) ≠ 0 →
    v = hubPlan (p.hubPort h k).plan (p.hubPort h k).passed (p.getN (.hub h) (K.stringCells + k)) (stringForm (p.hub h).form) →
    (p.hubPort h k).last = v →
    p.sendPlan h k =
      let e := p.hubPort h k
      let os := osPlan v (decide (0 < e.rstLeft)) (((p.schedNow (.hub h)).k + 1) % 256) e.pseq
      ((p.onPort h k (fun x => { x with
        pseq := e.pseq, last := v, rstLeft := x.rstLeft - 1,
        plan := { x.plan with rx := (planRx os [] :: x.plan.rx).take 3 } })).sendOs (.hub h) (2 * k) false os).sendOs (.hub h)
        (2 * k + 1) false os)

/-- Frames at cells (09 R230, R233, R234, R239, R241; 08 R208): COMMAND whose slot is valid, of the generation and epoch latched, for
an apply instant that has no command yet; COLLECT that the cell fills; TRIP not seen before, at a cell that has not fired;
COLLECT_LAUNCH of a head and of a tail segment, in either form; ABORT_BLOCK.
The model's choices in it: log entries 22, 78, 85. -/
def Obligations.CellFramesComplete : Prop :=
  (∀ (port : Port) (c : CellId) (f : Frame) (s : State) (x : Plant) (i k : Nat) (b : Block), port.part = .cell c →
    s.plant.hears port f 1 = true → chkState f = .good → x = s.plant.heard port f → x.serving (.cell c) = true →
    x.locked (.cell c) = true → (x.cell c).hasTgen = true → (x.cell c).posKnown = true →
    slotIndex (bitOf f.hdr.toNat 50) (bits f.hdr.toNat 15 10) (bits f.hdr.toNat 9 4) (x.getN (.cell c) K.stringPos) = some i →
    f.data[i]? = some b → slotValid b.toNat (bits f.hdr.toNat 47 40) = true →
    lastPos (bitOf f.hdr.toNat 50) (bits f.hdr.toNat 15 10) (bits f.hdr.toNat 9 4) ≠ (x.getN (.cell c) K.stringPos : Int) →
    bits f.hdr.toNat 3 0 = x.getN (.cell c) K.tamTgenLatched % 16 →
    x.getN (.cell c) K.redAepochLatched = bits f.hdr.toNat 39 24 → bits f.hdr.toNat 39 24 ≠ 0 →
    x.seqCycle c (bits f.hdr.toNat 47 40) = some k → 60 * 256 ≤ x.margin c k → (x.cell c).filed.find? (fun g => g.k == k) = none →
    exec (.command port f) s = .next { s with
    plant :=
      ((x.noteMargin c k).onCell c (fun e => { e with filed := e.filed ++
        [{ k := k, cmd := slotCmd b.toNat k, epoch := bits f.hdr.toNat 39 24, stale := false }] })).cellForward c port.lane.val f }) ∧
  (∀ (port : Port) (c : CellId) (f : Frame) (s : State) (x : Plant) (i : Nat), port.part = .cell c →
    s.plant.hears port f 2 = true → x = s.plant.heard port f → x.serving (.cell c) = true → (x.cell c).posKnown = true →
    (x.knowsCycle (.cell c) = true → bits f.hdr.toNat 47 40 = (x.schedNow (.cell c)).k % 256) →
    slotIndex (!bitOf f.hdr.toNat 50) (bits f.hdr.toNat 31 26) (bits f.hdr.toNat 25 20) (x.getN (.cell c) K.stringPos) = some i →
    exec (.collect port f) s = .next { s with
    plant :=
      (x.send (.cell c) (otherLane port.lane.val) (forwardFrame (x.hopCode (.cell c) port.lane.val) f f.hdr
        (fillSlot f.data i (x.reportSlot c (bitOf f.hdr.toNat 51))))).reported c }) ∧
  (∀ (port : Port) (c : CellId) (f : Frame) (s : State) (x y : Plant), port.part = .cell c → s.plant.hears port f 3 = true →
    chkState f = .good → x = (s.plant.heard port f).cellForward c port.lane.val f → x.serving (.cell c) = true →
    y = ((x.put (.cell c) K.tamTgenLatched (bits f.hdr.toNat 23 20)).onCell c (fun e => { e with tripRx := true })).capEvent c 5 →
    (y.cell c).tripSeen ≠ some (bits f.hdr.toNat 23 20) → y.fired c = false →
    exec (.trip port f) s = .next { s with
    plant :=
      ((y.put (.cell c) K.swBench 0).onCell c (fun e => { e with
        tripSeen := some (bits f.hdr.toNat 23 20), tripHold := true,
        filed := e.filed.map (fun g => { g with stale := true }) })).holdLow c 0 }) ∧
  (∀ (c : CellId) (s : State) (pos : Nat), s.plant.serving (.cell c) = true → s.plant.getN (.cell c) K.stringLaunch = 1 →
    pos = s.plant.getN (.cell c) K.stringPos → (s.plant.cell c).plan.latched = none →
    exec (.collectLaunch c) s = .next { s with
    plant :=
      (s.plant.send (.cell c) 0 (mkFrame (2 * 2 ^ 52 + ((s.plant.cell c).sample.k % 256) * 2 ^ 40 + c.str.val * 2 ^ 32 +
          pos * 2 ^ 26 + (pos + 1) * 2 ^ 20)
        (s.plant.reportSlot c false ++ (List.replicate pos (emptySlot false)).flatten))).reported c }) ∧
  (∀ (c : CellId) (s : State) (pos : Nat) (v : PlanV) (b : Bool), s.plant.serving (.cell c) = true →
    s.plant.getN (.cell c) K.stringLaunch = 1 → pos = s.plant.getN (.cell c) K.stringPos →
    (s.plant.cell c).plan.latched = some v → b = decide (2 ≤ v.form) →
    exec (.collectLaunch c) s = .next { s with
    plant :=
      (s.plant.send (.cell c) 0 (mkFrame (2 * 2 ^ 52 + (if b then 2 ^ 51 else 0) + ((s.plant.cell c).sample.k % 256) * 2 ^ 40 +
          c.str.val * 2 ^ 32 + pos * 2 ^ 26 + (pos + 1) * 2 ^ 20)
        (s.plant.reportSlot c b ++ (List.replicate pos (emptySlot b)).flatten))).reported c }) ∧
  (∀ (c : CellId) (s : State) (pos n : Nat) (v : PlanV) (b : Bool), s.plant.serving (.cell c) = true →
    s.plant.getN (.cell c) K.stringLaunch = 2 → pos = s.plant.getN (.cell c) K.stringPos →
    n = s.plant.c (K.stringCells + c.str.val) - pos → (s.plant.cell c).plan.latched = some v → b = decide (2 ≤ v.form) →
    exec (.collectLaunch c) s = .next { s with
    plant :=
      (s.plant.send (.cell c) 1 (mkFrame (2 * 2 ^ 52 + (if b then 2 ^ 51 else 0) + 2 ^ 50 +
          ((s.plant.cell c).sample.k % 256) * 2 ^ 40 + c.str.val * 2 ^ 32 + pos * 2 ^ 26 + n * 2 ^ 20)
        (s.plant.reportSlot c b ++ (List.replicate (n - 1) (emptySlot b)).flatten))).reported c }) ∧
  (∀ (port : Port) (c : CellId) (s : State), port.part = .cell c → s.plant.laneUp (.cell c) port.lane.val = true →
    s.plant.up (.cell c) = true →
    exec (.abortBlock port) s = .next { s with
    plant := (s.plant.bump (.cell c) (tamKey port.lane.val 7) 1).sendAbort (.cell c) (otherLane port.lane.val) })

/-- Frames at hubs (08 R213, R217, R218; 09 R230, R234, R235, R241): COMMAND of a string with a latched plan that cuts it once, into a part
for each end; COLLECT in its cycle in the full form; TRIP of the CVC it takes frames from; EMPTY_FRAME_END of a head and of a tail end
where no frame began; ABORT_BLOCK of a head end's frame that had not begun to be forwarded.
The model's choices in it: log entries 22, 85. -/
def Obligations.HubFramesComplete : Prop :=
  (∀ (port : Port) (h : Fin 8) (f : Frame) (s : State) (x : Plant) (v : PlanV), port.part = .hub h → 48 ≤ port.lane.val →
    s.plant.hears port f 1 = true → x = s.plant.heard port f → x.hubTakes h port.lane.val = true →
    x.hubCommandWindow h (bits f.hdr.toNat 47 40) = true → bits f.hdr.toNat 23 16 / 24 = h.val → bits f.hdr.toNat 23 16 < 192 →
    (x.hubPort h (bits f.hdr.toNat 23 16 % 24)).plan.latched = some v → v.a = v.b → 0 < v.a → v.a < f.data.length →
    exec (.command port f) s = .next { s with
    plant :=
      let k := bits f.hdr.toNat 23 16 % 24
      let hop := x.hopCode (.hub h) port.lane.val
      (x.send (.hub h) (2 * k) (splitCommand hop f 0 false (f.data.take v.a))).send (.hub h) (2 * k + 1)
        (splitCommand hop f (f.data.length - 1) true (f.data.drop v.a).reverse) }) ∧
  (∀ (port : Port) (h : Fin 8) (f : Frame) (s : State) (x : Plant), port.part = .hub h → port.lane.val < 48 →
    s.plant.hears port f 2 = true → x = s.plant.heard port f →
    (x.knowsCycle (.hub h) = true → bits f.hdr.toNat 47 40 = (x.schedNow (.hub h)).k % 256) → (x.hub h).form < 2 →
    exec (.collect port f) s = .next { s with
    plant :=
      let y := x.onPort h (port.lane.val / 2) (fun e =>
        if port.lane.val % 2 = 0 then { e with begunHead := true } else { e with begunTail := true })
      y.hubUp h (forwardFrame (y.hopCode (.hub h) port.lane.val) f f.hdr f.data) }) ∧
  (∀ (port : Port) (h : Fin 8) (f : Frame) (s : State) (x : Plant), port.part = .hub h → 48 ≤ port.lane.val →
    s.plant.hears port f 3 = true → chkState f = .good →
    x = (s.plant.heard port f).sendPair (.hub h) (hubPair (!decide (50 ≤ port.lane.val))).1 (hubPair (!decide (50 ≤ port.lane.val))).2 f →
    x.hubTakes h port.lane.val = true →
    exec (.trip port f) s = .next { s with
    plant := (rangeFrom 0 48).foldl (fun p l =>
      p.send (.hub h) l (forwardFrame (x.hopCode (.hub h) port.lane.val) f f.hdr f.data)) x }) ∧
  (∀ (h : Fin 8) (lane : Fin 48) (s : State), s.plant.up (.hub h) = true → lane.val % 2 = 0 → (s.plant.hub h).form < 2 →
    (s.plant.hubPort h (lane.val / 2)).begunHead = false →
    exec (.emptyFrameEnd h lane) s = .next { s with
    plant :=
      (s.plant.onPort h (lane.val / 2) (fun e => { e with begunHead := true })).hubUp h
        (mkFrame (2 * 2 ^ 52 + 2 ^ 49 + ((s.plant.schedNow (.hub h)).k % 256) * 2 ^ 40 + (24 * h.val + lane.val / 2) * 2 ^ 32) []) }) ∧
  (∀ (h : Fin 8) (lane : Fin 48) (s : State), s.plant.up (.hub h) = true → lane.val % 2 = 1 → (s.plant.hub h).form < 2 →
    (s.plant.hubPort h (lane.val / 2)).begunTail = false →
    exec (.emptyFrameEnd h lane) s = .next { s with
    plant :=
      (s.plant.onPort h (lane.val / 2) (fun e => { e with begunTail := true })).hubUp h
        (mkFrame (2 * 2 ^ 52 + 2 ^ 50 + 2 ^ 49 + ((s.plant.schedNow (.hub h)).k % 256) * 2 ^ 40 +
          (24 * h.val + lane.val / 2) * 2 ^ 32) []) }) ∧
  (∀ (port : Port) (h : Fin 8) (s : State), port.part = .hub h → port.lane.val < 48 → port.lane.val % 2 = 0 →
    s.plant.laneUp (.hub h) port.lane.val = true → s.plant.up (.hub h) = true →
    (s.plant.hubPort h (port.lane.val / 2)).begunHead = false →
    exec (.abortBlock port) s = .next { s with
    plant :=
      ((s.plant.bump (.hub h) (tamKey port.lane.val 7) 1).onPort h (port.lane.val / 2) (fun e =>
        { e with begunHead := true, cutHead := true })).abortOnward (.hub h) port.lane.val })

/-- Landing and the arbiter (09 R240, R251, R254, R255): COLLECT_LAND of a good frame with slots, of a cycle that lands; ARBITER_GRANT of a
waiting frame, with nothing interrupted before; TRIP_PREEMPT in the middle of a frame; slot.switch_at written at a hub or cell by
service frame and at the CVC by its owner.
The model's choices in it: log entries 43, 44. -/
def Obligations.LaneTrafficCompletes : Prop :=
  (∀ (lane : Fin 16) (f : Frame) (s : State) (port : Port) (x : Plant) (k : Nat), port.part = .cvc → port.lane.val = lane.val →
    s.plant.up .cvc = true → s.plant.hears port f 2 = true → chkState f = .good → x = s.plant.heard port f →
    x.landCycle (bits f.hdr.toNat 47 40) = some k → bits f.hdr.toNat 39 32 < 192 → bitOf f.hdr.toNat 49 = false →
    exec (.collectLand lane f) s = .next { s with
    plant :=
      (x.landSlots f k true).endDelivered (bits f.hdr.toNat 39 32) k (bitOf f.hdr.toNat 50) }) ∧
  (∀ (port : Port) (f : Frame) (s : State) (x : Plant), s.plant.laneUp port.part port.lane.val = true →
    x = ((s.plant.onLane port.part port.lane.val (fun e => { e with tx := none, wire := none })).switchBanks port.part).dropLate
      port.part port.lane.val →
    x.granted port.part port.lane.val = some f → (x.lane port.part port.lane.val).txq.contains f = true →
    (x.lane port.part port.lane.val).again = none →
    exec (.arbiterGrant port) s = .next { s with
    plant :=
      x.transmit port.part port.lane.val f (fun e => { e with txq := dropFirst f e.txq }) }) ∧
  (∀ (port : Port) (t f : Frame) (s : State),
    (s.plant.lane port.part port.lane.val).txq.find? (fun g => g.ty == 3) = some t →
    (s.plant.lane port.part port.lane.val).tx = some f → f.ty ≠ 3 →
    exec (.tripPreempt port) s = .next { s with
    plant :=
      ((s.plant.sendAbort port.part port.lane.val).transmit port.part port.lane.val t (fun e =>
        { e with again := some f, txq := dropFirst t e.txq })).bump port.part
        (tamKey port.lane.val 8) 1 }) ∧
  (∀ (q : Part) (t : Fin 4) (v : BitVec 32) (s : State), (tablesOf q.kind).contains t.val = true →
    s.plant.acceptsAt q ((0x3A10 + t.val) * 256 + 0x22) (beBytes 4 v.toNat) = true →
    exec (.slotSwitchAt (.service q) t v) s = .next { s with
    plant :=
      (s.plant.put q ((0x3A10 + t.val) * 256 + 0x23) 1).onNode q (fun n =>
        { n with slotSwitch := Tab.set (fun _ => 0) n.slotSwitch t.val v.toNat }) }) ∧
  (∀ (r : Req) (v : BitVec 32) (s : State), s.plant.accepts r K.slotSwitchAt (beBytes 4 v.toNat) = true →
    exec (.slotSwitchAt (.host r) 0 v) s = .next { s with
    plant :=
      s.plant.answered r K.slotSwitchAt (beBytes 4 v.toNat) (fun p =>
        (p.put .cvc (0x3A10 * 256 + 0x23) 1).onNode .cvc (fun n =>
          { n with slotSwitch := Tab.set (fun _ => 0) n.slotSwitch 0 v.toNat })) })

/-- Service frames at a cell and at a hub (09 R243, R244; 14 R392; 16 R448): SERVICE_READ of a scalar object; SERVICE_WRITE that is
accepted; SERVICE_READ_SEG of a plain DOMAIN; SERVICE_WRITE_SEG of the first 240 bytes of a value, and of the mirror at a STANDBY;
DISCOVER at a cell; SERVICE_READ at a cell it is not for, and at one whose core has stopped.
The model's choices in it: log entries 22, 60, 61. -/
def Obligations.ServiceFramesComplete : Prop :=
  (∀ (port : Port) (c : CellId) (f : Frame) (s : State) (x : Plant) (row : ObjRow), port.part = .cell c →
    s.plant.hears port f 5 = true → chkState f = .good → x = s.plant.heard port f → x.up (.cell c) = true → x.halted (.cell c) = false →
    (x.node (.cell c)).power.softDue = false → svcIsResponse f = false → svcOp f = 0 → (x.cell c).posKnown = true →
    svcNode f = (Part.cell c).node → rowOf 2 (svcKey f) = some row → row.isBlob = false → readStatus 2 (svcKey f) = 0 →
    exec (.serviceRead port f) s = .next { s with
    plant :=
      x.send (.cell c) port.lane.val (svcResponse 0 (svcTag f) (svcNode f) (svcKey f) 0
        (encodeVal row.ty (x.view (.cell c) (svcKey f)))) }) ∧
  (∀ (port : Port) (c : CellId) (f : Frame) (s : State) (x y : Plant), port.part = .cell c → s.plant.hears port f 5 = true →
    chkState f = .good → x = s.plant.heard port f → x.halted (.cell c) = false → svcIsResponse f = false → svcOp f = 1 → (x.cell c).posKnown = true →
    svcNode f = (Part.cell c).node → x.acceptsAt (.cell c) (svcKey f) (svcValue f) = true →
    x.applyWrite (.cell c) 0 (svcKey f) (svcValue f) = (0, y) → (y.node (.cell c)).power.softDue = false →
    exec (.serviceWrite port f) s = .next { s with
    plant :=
      y.send (.cell c) port.lane.val (svcResponse 1 (svcTag f) (svcNode f) (svcKey f) 0 []) }) ∧
  (∀ (port : Port) (c : CellId) (f : Frame) (s : State) (x : Plant), port.part = .cell c → s.plant.hears port f 5 = true →
    chkState f = .good → x = s.plant.heard port f → x.up (.cell c) = true → x.halted (.cell c) = false → (x.node (.cell c)).power.softDue = false →
    svcIsResponse f = false → svcOp f = 2 → (x.cell c).posKnown = true → svcNode f = (Part.cell c).node →
    readStatus 2 (svcKey f) = 0 → svcKey f ≠ K.caveRec → svcKey f ≠ K.capData →
    exec (.serviceReadSeg port f) s = .next { s with
    plant :=
      x.send (.cell c) port.lane.val (svcResponse 2 (svcTag f) (svcNode f) (svcKey f) 0
        (((x.blob (.cell c) (svcKey f)).drop (svcOffset f)).take 240)) }) ∧
  (∀ (port : Port) (c : CellId) (f : Frame) (s : State) (x : Plant) (row : ObjRow), port.part = .cell c →
    s.plant.hears port f 5 = true → chkState f = .good → x = s.plant.heard port f → x.up (.cell c) = true → x.halted (.cell c) = false →
    (x.node (.cell c)).power.softDue = false → svcIsResponse f = false → svcOp f = 3 → (x.cell c).posKnown = true →
    svcNode f = (Part.cell c).node → svcOffset f = 0 → (svcValue f).length = 240 → rowOf 2 (svcKey f) = some row → 240 ≤ row.maxLen →
    exec (.serviceWriteSeg port f) s = .next { s with
    plant :=
      (x.onNode (.cell c) (fun n => { n with seg := some (svcKey f, svcValue f) })).send (.cell c) port.lane.val
        (svcResponse 3 (svcTag f) (svcNode f) (svcKey f) 0 []) }) ∧
  (∀ (port : Port) (f : Frame) (s : State), port.part = .cvc → 16 ≤ port.lane.val → s.plant.hears port f 5 = true →
    chkState f = .good → s.plant.up .cvc = true → s.plant.c K.redRole = 2 → svcOp f = 3 → svcIsResponse f = false → svcNode f = 0 →
    svcKey f = K.redMirror →
    exec (.serviceWriteSeg port f) s = .next { s with
      plant := (s.plant.heard port f).takeMirror (svcOffset f) (svcValue f),
      mem := mirrorMem s.mem (svcOffset f) (svcValue f) }) ∧
  (∀ (port : Port) (c : CellId) (f : Frame) (s : State) (x : Plant), port.part = .cell c → s.plant.hears port f 5 = true →
    chkState f = .good → x = s.plant.heard port f → x.up (.cell c) = true → x.halted (.cell c) = false → (x.node (.cell c)).power.softDue = false →
    svcIsResponse f = false → svcOp f = 4 → nth (svcValue f) 0 < 48 →
    exec (.discover port f) s = .next { s with
    plant :=
      let v := svcValue f
      let y := x.send (.cell c) port.lane.val (svcResponse 4 (svcTag f) (if (x.cell c).posKnown then (Part.cell c).node else 0xFFFF)
        (svcKey f) 0 (x.discValue c (nth v 0) (nth v 1)))
      y.send (.cell c) (otherLane port.lane.val) (forwardFrame (y.hopCode (.cell c) port.lane.val) f f.hdr
        (svcRequest 4 (svcTag f) 0xFFFF (svcKey f) 0 [nth v 0 + 1, nth v 1]).data) }) ∧
  (∀ (port : Port) (c : CellId) (f : Frame) (s : State) (x : Plant), port.part = .cell c → s.plant.hears port f 5 = true →
    x = s.plant.heard port f → (x.node (.cell c)).power.softDue = false → svcNode f ≠ (Part.cell c).node → svcOp f = 0 →
    exec (.serviceRead port f) s = .next { s with plant := x.cellForward c port.lane.val f }) ∧
  (∀ (port : Port) (c : CellId) (f : Frame) (s : State) (x : Plant), port.part = .cell c → s.plant.hears port f 5 = true →
    x = s.plant.heard port f → (x.node (.cell c)).power.softDue = false → x.halted (.cell c) = true → svcOp f = 0 →
    exec (.serviceRead port f) s = .next { s with plant := x.cellForward c port.lane.val f })

/-- The CVC's side of service frames and discovery (09 R244; 16 R448, R449): SERVICE_RESPONSE to discovery, for a head
pass, and to a request that is out; SERVICE_TIMEOUT of a host's request; DISCOVERY_PASS; DISCOVERY_PASS_END of either
end of a string that is discovered, and of one that is not. The model's choices in it: log entries 15, 62, 83. -/
def Obligations.CvcServiceCompletes : Prop :=
  (∀ (lane : Fin 18) (f : Frame) (s : State) (port : Port), port.part = .cvc → port.lane.val = lane.val → s.plant.up .cvc = true →
    s.plant.hears port f 5 = true → chkState f = .good → (s.plant.heard port f).up .cvc = true → svcIsResponse f = true → svcOp f = 4 →
    svcKey f % 256 < 192 → (svcValue f).length = 20 → nth (svcValue f) 13 = 0 →
    exec (.serviceResponse lane f) s = .next { s with
    plant :=
      (s.plant.heard port f).onStr (svcKey f % 256) (fun i =>
        { i with
          head := if i.head.any (fun y => y.ctr == nth (svcValue f) 12) then i.head else i.head ++ [answerOf (svcValue f)] }) }) ∧
  (∀ (lane : Fin 18) (f : Frame) (s : State) (port : Port) (x : Plant) (r : SvcReq), port.part = .cvc → port.lane.val = lane.val →
    s.plant.up .cvc = true → s.plant.hears port f 5 = true → chkState f = .good → x = s.plant.heard port f → x.up .cvc = true →
    svcIsResponse f = true → svcOp f ≠ 4 →
    x.cvc.proxy.out.find? (fun r => r.tag == svcTag f && r.node == svcNode f && r.op == svcOp f) = some r → r.sent ≠ 1 →
    exec (.serviceResponse lane f) s = .next { s with
    plant :=
      ((x.onProxy (fun y => { y with out := y.out.erase r })).svcNext r (afterAnswer r (svcStatus f) (svcValue f))).svcPump 64 }) ∧
  (∀ (tag : Byte) (s : State) (r : SvcReq) (port rid seq inc msg : Nat), s.plant.up .cvc = true →
    s.plant.cvc.proxy.out.find? (fun r => r.tag == tag.toNat) = some r → r.what = .host port rid seq inc msg →
    exec (.serviceTimeout tag) s = .next { s with
    plant :=
      (((((s.plant.onProxy (fun x => { x with out := x.out.erase r })).bump .cvc K.svcTimeouts 1).raise .cvc 62 0).answer
        { port := port, seq := seq, rid := rid, inc := inc, node := r.node, msg := msg } 0x0501 false []).svcPump 64) }) ∧
  (∀ (s : State), s.plant.up .cvc = true → s.plant.misstrapped = false → s.plant.c K.bootStatus ≠ 2 →
    exec .discoveryPass s = .next { s with
    plant := (rangeFrom 0 8).foldl (fun p h =>
      if !p.hubServes h then p
      else (rangeFrom (24 * h) 24).foldl (fun p str =>
        ((p.onStr str (fun i => { i with head := [], tail := [] })).sendPair .cvc (2 * h) (2 * h + 1) (discoverFrame str 0 0)).sendPair
          .cvc (2 * h) (2 * h + 1) (discoverFrame str 1 0)) p) s.plant }) ∧
  (∀ (str : StringNo) (s : State), s.plant.up .cvc = true → (s.plant.strInfo str.val).found = true →
    exec (.discoveryPassEnd str 0) s = .next { s with
    plant :=
      ((s.plant.onStr str.val (fun i => { i with headPasses := min (i.headPasses + 1) 0xFFFF })).matchPass str.val 0).noteSilent
        str.val 0 }) ∧
  (∀ (str : StringNo) (s : State), s.plant.up .cvc = true → (s.plant.strInfo str.val).found = true →
    exec (.discoveryPassEnd str 1) s = .next { s with
    plant :=
      ((s.plant.onStr str.val (fun i => { i with tailPasses := min (i.tailPasses + 1) 0xFFFF })).matchPass str.val 1).noteSilent
        str.val 1 }) ∧
  (∀ (str : StringNo) (s : State), s.plant.up .cvc = true → (s.plant.strInfo str.val).found = false →
    exec (.discoveryPassEnd str 0) s = .next { s with
    plant :=
      (s.plant.onStr str.val (fun i => { i with headPasses := min (i.headPasses + 1) 0xFFFF })).matchWhole str.val }) ∧
  (∀ (str : StringNo) (s : State), s.plant.up .cvc = true → (s.plant.strInfo str.val).found = false →
    exec (.discoveryPassEnd str 1) s = .next { s with
    plant :=
      (s.plant.onStr str.val (fun i => { i with tailPasses := min (i.tailPasses + 1) 0xFFFF })).matchWhole str.val })

/-- Time frames (10 R268, R272, R273, R275, R279): a good SYNC on the lane that a calibrated, serving cell takes its time from; a good
SYNC_UP at a hub on the first lane of the pair, which is used, and on the second, which is held while the first may still bring it;
SYNC_SEND of the CVC and of a locked hub; TIME_FRAME_MISSED of a part that still holds a frame, and of a locked one that holds none;
HOLDOVER_EXPIRE; COUNTER_WRAP.
The model's choices in it: log entry 45. -/
def Obligations.TimeFramesComplete : Prop :=
  (∀ (port : Port) (c : CellId) (f : Frame) (tap : Fin 64) (s : State) (x y : Plant) (rx : Int), port.part = .cell c →
    s.plant.hears port f 4 = true → chkState f = .good → timeKind f = 0 → x = s.plant.heard port f → x.serving (.cell c) = true →
    (x.locked (.cell c) = true → x.timeInWindow (.cell c) (bits f.hdr.toNat 47 40) = true) →
    x.calibrated (.cell c) port.lane.val = true →
    x.forwardsSync c port.lane.val = true → rx = x.arrival (.cell c) tap →
    y = (x.put (.cell c) K.tamTgenLatched (bits f.hdr.toNat 39 36)).onCell c (fun e => { e with hasTgen := true }) →
    y.primaryLane c port.lane.val = true → y.hadPrimary (.cell c) (bits f.hdr.toNat 47 40) = false →
    exec (.sync port f tap) s = .next { s with
    plant :=
      (((y.primaryFrame (.cell c) port.lane.val f rx).takeWraps (.cell c) f).closureNote c port.lane.val (bits f.hdr.toNat 47 40)
        (y.timeError (.cell c) port.lane.val f rx)).passSync c port.lane.val f rx }) ∧
  (∀ (port : Port) (h : Fin 8) (f : Frame) (tap : Fin 64) (s : State) (x : Plant), port.part = .hub h → 48 ≤ port.lane.val →
    port.lane.val % 2 = 0 → s.plant.hears port f 4 = true → chkState f = .good → timeKind f = 1 → x = s.plant.heard port f →
    x.getN (.hub h) K.hubAllegiance = (port.lane.val - 48) / 2 → (x.locked (.hub h) = true → x.timeInWindow (.hub h) (bits f.hdr.toNat 47 40) = true) →
    x.calibrated (.hub h) port.lane.val = true → x.hadPrimary (.hub h) (bits f.hdr.toNat 47 40) = false →
    exec (.syncUp port f tap) s = .next { s with
    plant :=
      ((x.onHub h (fun u => { u with
        tgen := bits f.hdr.toNat 39 36, form := bits (blockAt f 2) 57 56, omitted := bits (blockAt f 2) 23 0,
        heldUp := none })).primaryFrame (.hub h) port.lane.val f (x.arrival (.hub h) tap)).takeWraps (.hub h) f }) ∧
  (∀ (port : Port) (h : Fin 8) (f : Frame) (tap : Fin 64) (s : State) (x : Plant), port.part = .hub h → 48 ≤ port.lane.val →
    port.lane.val % 2 = 1 → s.plant.hears port f 4 = true → chkState f = .good → timeKind f = 1 → x = s.plant.heard port f →
    x.getN (.hub h) K.hubAllegiance = (port.lane.val - 48) / 2 → (x.locked (.hub h) = true → x.timeInWindow (.hub h) (bits f.hdr.toNat 47 40) = true) →
    x.calibrated (.hub h) port.lane.val = true → x.hadPrimary (.hub h) (bits f.hdr.toNat 47 40) = false →
    x.laneUp (.hub h) (port.lane.val - 1) = true → x.calibrated (.hub h) (port.lane.val - 1) = true →
    (x.hub h).upBad ≠ bits f.hdr.toNat 47 40 + 1 →
    exec (.syncUp port f tap) s = .next { s with
    plant :=
      (x.takeWraps (.hub h) f).onHub h (fun u => { u with heldUp := some (port.lane.val, f, x.arrival (.hub h) tap) }) }) ∧
  (∀ (s : State) (sc : Sched), s.plant.up .cvc = true → sc = s.plant.schedAtS .cvc → sc.valid = true →
    exec (.syncSend .cvc) s = .next { s with
    plant := (rangeFrom 0 16).foldl (fun p l =>
      let i := Tab.get (fun _ => default) p.cvc.hubs (l / 2)
      p.sendTimed l (timeFrame 1 sc.k (p.c K.tamTgen) 0xFF sc.s sc.s [max 1 i.form * 2 ^ 56 + i.leftOut])) s.plant }) ∧
  (∀ (h : Fin 8) (s : State) (sc : Sched) (own : Int), s.plant.up (.hub h) = true → sc = s.plant.schedAtS (.hub h) →
    sc.valid = true → s.plant.locked (.hub h) = true → own = s.plant.ownNs (.hub h) sc.s →
    exec (.syncSend (.hub h)) s = .next { s with
    plant := (rangeFrom 0 48).foldl (fun p l =>
      p.send (.hub h) l (timeFrame 0 sc.k (p.hub h).tgen (24 * h.val + l / 2)
        (unsigned 64 ((s.plant.nowLong (.hub h) : Int) + own - s.plant.nowU (.hub h) / 2 ^ 41)) own [])) s.plant }) ∧
  (∀ (q : Part) (s : State) (h : Fin 8) (l : Nat) (f : Frame) (rx : Int), s.plant.up q = true →
    s.plant.lateHeld q = some (h, l, f, rx) →
    exec (.timeFrameMissed q) s = .next { s with plant := s.plant.useSyncUp h l f rx }) ∧
  (∀ (q : Part) (s : State), q ≠ .cvc → s.plant.up q = true → s.plant.getN q K.timeState = 2 → s.plant.lateHeld q = none →
    exec (.timeFrameMissed q) s = .next { s with
    plant :=
      (((((s.plant.bump q K.timeMissed 1).partCycles q 1).onNode q (fun n => { n with sched := { advance 1 n.sched with
        count := 0, missRun := n.sched.missRun + 1 } })).put q K.timeState 3).switchBanks q).noteApplies q false false }) ∧
  (∀ (q : Part) (s : State), q ≠ .cvc → s.plant.up q = true → s.plant.getN q K.timeState = 3 →
    s.plant.getN q K.timeHoldover ≤ (s.plant.node q).sched.missRun →
    exec (.holdoverExpire q) s = .next { s with plant := s.plant.unlock q }) ∧
  (∀ (q : Part) (s : State), q ≠ .cvc → s.plant.up q = true →
    exec (.counterWrap q) s = .next { s with
    plant :=
      s.plant.put q K.timeWraps (((s.plant.getN q K.timeWraps + 1) % 2 ^ 32 : Nat) : Int) })

/-- Link delays and ring closure (10 R277, R280, R281): DELAY_REQ_SEND on a lane that carries frames; a good DELAY_REQ; a good
DELAY_RESP to the request sent; CLOSURE_READ of a string whose two middle cells have a value, and of one that is broken.
The model's choices in it: log entry 46. -/
def Obligations.LinkTimingCompletes : Prop :=
  (∀ (port : Port) (s : State), s.plant.up port.part = true → s.plant.laneUp port.part port.lane.val = true →
    (port.part = .cvc → s.plant.serviceOnly port.lane.val = false) →
    exec (.delayReqSend port) s = .next { s with
    plant :=
      (s.plant.onLane port.part port.lane.val (fun e =>
        { e with exch := { e.exch with out := true, since := e.exch.since + 1 } })).send port.part port.lane.val
          (mkFrame (s.plant.delayHdr port.part port.lane.val 2 (s.plant.schedNow port.part).k) [0, 0]) }) ∧
  (∀ (port : Port) (f : Frame) (tap : Fin 64) (s : State) (x : Plant) (t2 : Int), s.plant.up port.part = true →
    s.plant.hears port f 4 = true → chkState f = .good → timeKind f = 2 → x = s.plant.heard port f →
    t2 = x.arrival port.part tap →
    exec (.delayReq port f tap) s = .next { s with
    plant :=
      x.send port.part port.lane.val (mkFrame (x.delayHdr port.part port.lane.val 3 (bits f.hdr.toNat 47 40))
        [unsigned 64 (t2 / 256), (t2 % 256).toNat * 2 ^ 56 + unsigned 48 (-t2) * 256]) }) ∧
  (∀ (port : Port) (f : Frame) (tap : Fin 64) (s : State) (x y : Plant), s.plant.up port.part = true →
    s.plant.hears port f 4 = true → chkState f = .good → timeKind f = 3 → x = s.plant.heard port f →
    (x.lane port.part port.lane.val).exch.out = true →
    y = ((x.onLane port.part port.lane.val (fun e => { e with exch := { e.exch with
        out := false,
        results := ((x.arrival port.part tap - (x.lane port.part port.lane.val).exch.t1 - corrOf f) :: e.exch.results).take 16 } })).bump
          port.part (timeKey port.lane.val 4) 1).showDelay port.part port.lane.val
            (x.lane port.part port.lane.val).exch.results.length →
    exec (.delayResp port f tap) s = .next { s with plant := if y.up .cvc then y.showPaths else y }) ∧
  (∀ (str : StringNo) (s : State) (n : Nat) (a b : CellId), s.plant.up .cvc = true → n = s.plant.c (K.stringCells + str.val) →
    2 ≤ n → s.plant.c (K.stringLost + str.val) = 0 → cellAt str.val ((n + 1) / 2 - 1) = some a → cellAt str.val ((n + 1) / 2) = some b →
    s.plant.up (.cell a) = true → s.plant.up (.cell b) = true →
    s.plant.get (.cell a) K.timeClosureOwn ≠ 0x7FFFFFFF → s.plant.get (.cell b) K.timeClosureOwn ≠ 0x7FFFFFFF →
    exec (.closureRead str) s = .next { s with
    plant :=
      let v := rdiv (s.plant.get (.cell a) K.timeClosureOwn + s.plant.get (.cell b) K.timeClosureOwn) 2
      let p := s.plant.cPut (K.timeClosure + str.val) v
      let p := if p.c K.timeClosureMax < v.natAbs then p.raise .cvc 83 str.val else p
      if p.c K.timeClosureMode = 1 then p.shareClosure str n v else p }) ∧
  (∀ (str : StringNo) (s : State), s.plant.up .cvc = true → s.plant.c (K.stringLost + str.val) ≠ 0 →
    exec (.closureRead str) s = .next { s with plant := s.plant.cPut (K.timeClosure + str.val) 0x7FFFFFFF })

/-- The precision time protocol and the calendar (10 R284–R288): PTP_ANNOUNCE of the first master heard on the first port; a one-step and
a two-step PTP_SYNC and PTP_FOLLOW_UP of the master, where PTP is not the time source, and a one-step PTP_SYNC that disciplines the clock of
a CVC past STARTING, or sets the calendar at the next boundary; PDELAY_REQ; PTP_MANAGEMENT;
ANNOUNCE_TIMEOUT with a backup port; CAL_APPLY that the owner has accepted.
The model's choices in it: log entry 47. -/
def Obligations.PtpCompletes : Prop :=
  (∀ (port : HostPort) (m : Announce) (s : State), s.plant.up .cvc = true → m.domain.toNat = s.plant.c K.timePtpDomain →
    s.plant.c K.timePtpPort = port.val → s.plant.c K.timePtpActive = 0xFF → s.plant.cvc.ptp.best = none → m.utcValid = false →
    s.plant.c K.timeSource ≠ 1 →
    exec (.ptpAnnounce port m) s = .next { s with
    plant :=
      (((s.plant.onCvc (fun v => { v with ptp := { v.ptp with best := some m, waitFup := false, utcLocked := false } })).cPut
        K.timePtpActive port.val).cPut K.timePtpGm m.gm.toNat).cPut K.timePtpState 8 }) ∧
  (∀ (port : HostPort) (offset : BitVec 64) (s : State), s.plant.up .cvc = true → s.plant.ptpHears port = true →
    s.plant.c K.timeSource ≠ 1 →
    exec (.ptpSync port offset false) s = .next { s with
    plant :=
      ((s.plant.cPut K.timePtpOffset (clampI (-2147483648) 2147483647 offset.toInt)).cPut K.timePtpState 9).onCvc (fun v =>
        { v with ptp := { v.ptp with waitFup := false, offsetSeen := true } }) }) ∧
  (∀ (port : HostPort) (offset : BitVec 64) (s : State) (x : Plant), s.plant.up .cvc = true → s.plant.ptpHears port = true →
    s.plant.c K.timeSource = 1 → s.plant.c K.redRole ≠ 2 → 2 ≤ s.plant.conv →
    offset.toInt.natAbs ≤ s.plant.c K.timePtpStepThr →
    (servoClock (s.plant.node .cvc).clock s.plant.tick (-offset.toInt * 256) (s.plant.c K.timeCvcSlew * 256 / 1000) s.plant.tc).2 = false →
    x = (((s.plant.cPut K.timePtpOffset (clampI (-2147483648) 2147483647 offset.toInt)).cPut K.timePtpState 9).onCvc (fun v =>
        { v with ptp := { v.ptp with waitFup := false, offsetSeen := true } })).cPut K.timeState 2 →
    exec (.ptpSync port offset false) s = .next { s with
    plant :=
      let r := servoClock (s.plant.node .cvc).clock s.plant.tick (-offset.toInt * 256) (s.plant.c K.timeCvcSlew * 256 / 1000) s.plant.tc
      (x.onNode .cvc (fun n => { n with clock := r.1 })).cPut K.timeRate (ratePpb r.1.rho) }) ∧
  (∀ (port : HostPort) (offset : BitVec 64) (s : State), s.plant.up .cvc = true → s.plant.ptpHears port = true →
    s.plant.c K.timeSource = 1 → s.plant.c K.redRole ≠ 2 → 2 ≤ s.plant.conv →
    s.plant.c K.timePtpStepThr < offset.toInt.natAbs →
    exec (.ptpSync port offset false) s = .next { s with
    plant :=
      ((((s.plant.cPut K.timePtpOffset (clampI (-2147483648) 2147483647 offset.toInt)).cPut K.timePtpState 9).onCvc (fun v =>
        { v with ptp := { v.ptp with waitFup := false, offsetSeen := true } })).cPut K.timeState 2).onCvc (fun v =>
          { v with ptp := { v.ptp with calDue := true, calK := s.plant.get .cvc K.timeCalOffset - offset.toInt } }) }) ∧
  (∀ (port : HostPort) (offset : BitVec 64) (s : State), s.plant.up .cvc = true → s.plant.ptpHears port = true →
    exec (.ptpSync port offset true) s = .next { s with
    plant :=
      s.plant.onCvc (fun v => { v with ptp := { v.ptp with waitFup := true } }) }) ∧
  (∀ (port : HostPort) (offset : BitVec 64) (s : State), s.plant.up .cvc = true → s.plant.ptpHears port = true →
    s.plant.cvc.ptp.waitFup = true → s.plant.c K.timeSource ≠ 1 →
    exec (.ptpFollowUp port offset) s = .next { s with
    plant :=
      ((s.plant.cPut K.timePtpOffset (clampI (-2147483648) 2147483647 offset.toInt)).cPut K.timePtpState 9).onCvc (fun v =>
        { v with ptp := { v.ptp with waitFup := false, offsetSeen := true } }) }) ∧
  (∀ (port : HostPort) (id : BitVec 64) (seq : BitVec 16) (s : State), s.plant.up .cvc = true → port.val = s.plant.ptpPort →
    exec (.pdelayReq port id seq) s = .next { s with
    plant := s.plant.onCvc (fun v => { v with ptp := { v.ptp with
      peerSent := v.ptp.peerSent + 2, peerLast := [port.val, id.toNat, seq.toNat] } }) }) ∧
  (∀ (port : HostPort) (s : State), s.plant.up .cvc = true →
    exec (.ptpManagement port) s = .next { s with plant := s.plant.bump .cvc K.timePtpIgnored 1 }) ∧
  (∀ (s : State), s.plant.up .cvc = true → s.plant.c K.timeSource = 1 → s.plant.c K.timeState = 2 →
    s.plant.ptpPort = s.plant.c K.timePtpPort → s.plant.c K.timePtpPort2 ≠ 0xFF →
    exec .announceTimeout s = .next { s with
    plant :=
      ((((s.plant.onCvc (fun v => { v with ptp := { v.ptp with best := none, waitFup := false, utcLocked := false } })).cPut
        K.timePtpState 4).cPut K.timePtpActive (s.plant.c K.timePtpPort2 : Nat)).cPut K.timeState 3).raise .cvc 80 0 }) ∧
  (∀ (r : Req) (s : State), s.plant.accepts r K.timeCalApply (beBytes 1 1) = true →
    exec (.calApply r) s = .next { s with
    plant :=
      s.plant.answered r K.timeCalApply (beBytes 1 1) (fun p => p.onCvc (fun c =>
        { c with applies := c.applies.filter (fun e => e.1 != 0x1202) ++
            [(0x1202, 1, (rwcKeys 0x1202).map (fun k => (k, p.shadow k)))] })) })

/-- The Rind's channels (11 R293, R295, R299, R306–R310, R317): RIND_EVALUATION while no channel evaluates, and
whatever the channels find: no breach, one of both, which is one trip, and one of either alone; SAFETY_FILTER_OUTPUT of an input with
a voltage role; CROSSLINK_TRIP; HEARTBEAT_LOSS; CLOCK_COMPARE; READBACK_MISMATCH; FAULT_CLEAR_TIMEOUT; TRIP_HOLD_EXPIRE of a channel
without a breach after a trip of its own; DEGRADED_TIMEOUT; PARAMETER_STORE_SCAN; MODULATOR_CLOCK_LOST.
The model's choices in it: log entries 48, 49, 72. -/
def Obligations.RindCompletes : Prop :=
  (∀ (s : State), s.plant.up .cvc = true → s.plant.chRuns 0 = false → s.plant.chRuns 1 = false →
    exec .rindEvaluation s = .next { s with
    plant :=
      ((s.plant.onChan 0 (fun c => { c with iArm := [], iPrev := [], wArm := [], hi := [], lo := [], dirRun := [], powRun := [] })).onChan 1
        (fun c => { c with iArm := [], iPrev := [], wArm := [], hi := [], lo := [], dirRun := [], powRun := [] })).mirrorRefresh }) ∧
  (∀ (s : State) (ca cb : Option Nat) (x y : Plant), s.plant.up .cvc = true → s.plant.evalChan 0 s.plant.k = (ca, x) →
    x.evalChan 1 x.k = (cb, y) → ca = none → cb = none →
    exec .rindEvaluation s = .next { s with plant := y.crossCompare.mirrorRefresh }) ∧
  (∀ (s : State) (a b : Nat) (x y : Plant), s.plant.up .cvc = true → s.plant.evalChan 0 s.plant.k = (some a, x) →
    x.evalChan 1 x.k = (some b, y) →
    exec .rindEvaluation s = .next { s with plant := (y.crossCompare.trip 3 a 96).mirrorRefresh }) ∧
  (∀ (s : State) (a : Nat) (x y : Plant), s.plant.up .cvc = true → s.plant.evalChan 0 s.plant.k = (some a, x) →
    x.evalChan 1 x.k = (none, y) →
    exec .rindEvaluation s = .next { s with plant := (y.crossCompare.rindTrip 0 a).mirrorRefresh }) ∧
  (∀ (s : State) (b : Nat) (x y : Plant), s.plant.up .cvc = true → s.plant.evalChan 0 s.plant.k = (none, x) →
    x.evalChan 1 x.k = (some b, y) →
    exec .rindEvaluation s = .next { s with plant := (y.crossCompare.rindTrip 1 b).mirrorRefresh }) ∧
  (∀ (input : Fin 16) (code : BitVec 32) (s : State), s.plant.up .cvc = true →
    s.plant.inRole (input.val / 8) (input.val % 8) = 3 ∨ s.plant.inRole (input.val / 8) (input.val % 8) = 4 →
    s.plant.chState (input.val / 8) ≠ 0 → code.toInt ≠ puOne → code.toInt ≠ -puOne →
    exec (.safetyFilterOutput input code false) s = .next { s with
    plant :=
      s.plant.onChan (input.val / 8) (fun c => { c with inputs := Tab.upd (fun _ => []) c.inputs (input.val % 8) (fun ys =>
        (puMul code.toInt (s.plant.get .cvc (K.rindInGain + input.val / 8 * 256 + input.val % 8)) :: ys).take 17) }) }) ∧
  (∀ (ch : Fin 2) (s : State), s.plant.up .cvc = true → (s.plant.chan (1 - ch.val)).trip = true →
    exec (.crosslinkTrip ch) s = .next { s with
    plant :=
      (s.plant.onChan ch.val (fun c => { c with trip := true })).showOut }) ∧
  (∀ (ch : Fin 2) (s : State), s.plant.up .cvc = true → s.plant.chRuns ch.val = true →
    exec (.heartbeatLoss ch) s = .next { s with plant := (s.plant.rindTrip ch.val 9).chFault (1 - ch.val) 2 }) ∧
  (∀ (s : State), s.plant.up .cvc = true →
    exec (.clockCompare true 0) s = .next { s with plant := (s.plant.chFault 0 0).chFault 1 0 }) ∧
  (∀ (ch : Fin 2) (s : State), s.plant.up .cvc = true → s.plant.chState ch.val ≠ 0 →
    exec (.readbackMismatch ch) s = .next { s with
    plant :=
      ((s.plant.onChan ch.val (fun c => { c with rbBad := true })).showOut.raise .cvc 103 0).chFault ch.val 6 }) ∧
  (∀ (ch : Fin 2) (s : State), s.plant.up .cvc = true → s.plant.chState ch.val = 3 → s.plant.conv = 2 ∨ s.plant.conv = 7 →
    s.plant.chClear ch.val = true →
    exec (.faultClearTimeout ch) s = .next { s with plant := s.plant.onChan ch.val (fun c => { c with clearDue := true }) }) ∧
  (∀ (ch : Fin 2) (s : State), s.plant.up .cvc = true → s.plant.conv = 7 → s.plant.chState ch.val = 2 →
    (s.plant.chan ch.val).breach = false → s.plant.c K.rindTripCause % 64 ≠ 8 → s.plant.c K.rindTripCause % 64 ≠ 9 →
    exec (.tripHoldExpire ch) s = .next { s with
    plant :=
      (s.plant.onChan ch.val (fun c => { c with trip := false })).showOut }) ∧
  (∀ (s : State), s.plant.up .cvc = true → s.plant.conv = 6 →
    exec .degradedTimeout s = .next { s with plant := (s.plant.convEvent 11 101).raise .cvc 101 0 }) ∧
  (∀ (ch : Fin 2) (crc : BitVec 32) (s : State), s.plant.up .cvc = true → s.plant.chRuns ch.val = true →
    crc.toNat ≠ s.plant.c K.rindImageCrc →
    exec (.parameterStoreScan ch crc) s = .next { s with plant := s.plant.chFault ch.val 3 }) ∧
  (∀ (input : Fin 16) (s : State), s.plant.up .cvc = true → s.plant.inRole (input.val / 8) (input.val % 8) ≠ 0 →
    exec (.modulatorClockLost input) s = .next { s with plant := s.plant.chFault (input.val / 8) 4 })

/-- Safety images and check units (11 R314–R320): IMAGE_STAGE by the owner; IMAGE_ARM of a valid image by the owner; IMAGE_COMMIT of the
armer with the right token; COMMIT_TIMEOUT; CHECK_SCAN_DONE whose value is as expected; CHECK_STALL of an enabled unit.
The model's choices in it: log entries 7, 50, 86. -/
def Obligations.SafetyImageCompletes : Prop :=
  (∀ (r : Req) (bytes : List Byte) (s : State), s.plant.acceptsWhole r K.rindImageStage (bytes.map BitVec.toNat) = true →
    exec (.imageStage r bytes) s = .next { s with
    plant :=
      s.plant.answeredWhole r K.rindImageStage (bytes.map BitVec.toNat) (fun p =>
        (((p.putBlob .cvc K.rindImageStage (bytes.map BitVec.toNat)).onRind (fun x =>
          { x with commitDue := false, armedBy := 0 })).cPut K.rindImageStatus 0).cPut K.rindImageChallenge 0) }) ∧
  (∀ (r : Req) (v : BitVec 32) (s : State) (x : Plant), s.plant.accepts r K.rindImageArm (beBytes 4 v.toNat) = true →
    x = s.plant.taken r (writeReq K.rindImageArm (beBytes 4 v.toNat)) → crc32c (imageBody x.safetyImage) = v.toNat →
    le32 x.safetyImage 0x10 = v.toNat → x.safetyContentOk x.safetyImage = true →
    exec (.imageArm r v) s = .next { s with
    plant :=
      (((x.free.2.cPut K.rindImageStatus 2).cPut K.rindImageChallenge (x.free.1 % 65536 : Nat)).onRind (fun y =>
        { y with armedBy := r.rid.toNat })).answer (echoOf r (writeReq K.rindImageArm (beBytes 4 v.toNat))) 0 false
          (writeBody K.rindImageArm 0) }) ∧
  (∀ (r : Req) (v : BitVec 16) (s : State) (x : Plant), s.plant.accepts r K.rindImageCommit (beBytes 2 v.toNat) = true →
    x = s.plant.taken r (writeReq K.rindImageCommit (beBytes 2 v.toNat)) → x.cvc.rind.armedBy = r.rid.toNat →
    v.toNat = (x.c K.rindImageChallenge) ^^^ (le32 x.safetyImage 8 % 65536) →
    exec (.imageCommit r v) s = .next { s with
    plant :=
      (x.onRind (fun y => { y with commitDue := true })).answer (echoOf r (writeReq K.rindImageCommit (beBytes 2 v.toNat))) 0 false
        (writeBody K.rindImageCommit 0) }) ∧
  (∀ (s : State), s.plant.up .cvc = true → s.plant.c K.rindImageStatus = 2 → s.plant.cvc.rind.commitDue = false →
    exec .commitTimeout s = .next { s with plant := s.plant.rejectImage 7 }) ∧
  (∀ (q : Part) (u : Fin 4) (result : BitVec 32) (s : State) (v : Nat), s.plant.up q = true → s.plant.unitScans q u.val = true →
    v = scanValue s.mem (q.kind == 0) (s.plant.getN q ((0x5A00 + u.val) * 256 + 1)) (s.plant.getN q ((0x5A00 + u.val) * 256 + 2))
      (s.plant.getN q ((0x5A00 + u.val) * 256 + 3)) result.toNat →
    v = s.plant.getN q ((0x5A00 + u.val) * 256 + 4) →
    exec (.checkScanDone q u result) s = .next { s with
    plant :=
      ((s.plant.onNode q (fun n => { n with ckDone := u.val :: n.ckDone.filter (· != u.val) })).put q
        ((0x5A00 + u.val) * 256 + 5) v).put q ((0x5A00 + u.val) * 256 + 6)
        (((s.plant.getN q ((0x5A00 + u.val) * 256 + 6) + 1) % 2 ^ 32 : Nat) : Int) }) ∧
  (∀ (u : Fin 4) (s : State), s.plant.up .cvc = true → s.plant.unitOn .cvc u.val = true →
    exec (.checkStall .cvc u) s = .next { s with plant := s.plant.raise .cvc 105 u.val }) ∧
  (∀ (c : CellId) (s : State), s.plant.up (.cell c) = true → s.plant.unitOn (.cell c) 0 = true →
    exec (.checkStall (.cell c) 0) s = .next { s with plant := s.plant.raise (.cell c) 52 0 })

/-- Faults (12 R337, R340–R343): GRACE_EXPIRE of a pending source; NOTE_EXPIRE of a pending note; FAULT_ACK by service frame and by the
owner; EMERG_CLEAR by the owner; HUB_POLL.
The model's choices in it: log entry 51. -/
def Obligations.FaultsComplete : Prop :=
  (∀ (src : Source) (s : State), s.plant.up .cvc = true → s.plant.pendingSrc .cvc src.val = true →
    Tab.get (fun _ => 0) (s.plant.node .cvc).faults.deadline src.val ≠ 0 →
    exec (.graceExpire src) s = .next { s with
    plant :=
      let p := s.plant.onNode .cvc (fun m => { m with faults := { m.faults with
        deadline := Tab.set (fun _ => 0) m.faults.deadline src.val 0 } })
      actionWith fullRaiser p src.val (p.effSev .cvc src.val) (Tab.get (fun _ => 0) (s.plant.node .cvc).faults.mask src.val) }) ∧
  (∀ (q : Part) (src : Source) (s : State), s.plant.up q = true → s.plant.pendingSrc q src.val = true → s.plant.effSev q src.val = 0 →
    exec (.noteExpire q src) s = .next { s with plant := s.plant.endFault q src.val }) ∧
  (∀ (q : Part) (v : BitVec 16) (s : State), s.plant.acceptsAt q K.faultAck (beBytes 2 v.toNat) = true →
    exec (.faultAck (.service q) v) s = .next { s with plant := s.plant.ack q v.toNat }) ∧
  (∀ (r : Req) (v : BitVec 16) (s : State), s.plant.accepts r K.faultAck (beBytes 2 v.toNat) = true →
    exec (.faultAck (.host r) v) s = .next { s with
    plant :=
      s.plant.answered r K.faultAck (beBytes 2 v.toNat) (fun p => p.ack .cvc v.toNat) }) ∧
  (∀ (r : Req) (v : BitVec 16) (s : State), s.plant.accepts r K.faultEmergClear (beBytes 2 v.toNat) = true →
    exec (.emergClear r v) s = .next { s with
    plant :=
      s.plant.answered r K.faultEmergClear (beBytes 2 v.toNat) (fun p => p.emergClear) }) ∧
  (∀ (s : State), s.plant.up .cvc = true →
    exec .hubPoll s = .next { s with plant := (List.finRange 8).foldl (fun p h => p.pollHub h) s.plant }) ∧
  (∀ (p : Plant) (h : Fin 8), p.hubServes h.val = true → p.hubUnlocked h = false →
    p.pollHub h =
      (p.svcStart {
                    tag := 0, node := 0x100 + h.val, op := 0, key := K.faultSummary, off := 0, val := [], rest := [], acc := [], left := 0,
                    sent := 0, what := .own }).2)

/-- The Cave (12 R344–R352): CAVE_WRITE of the oldest waiting record, good and failed, in a cell with its
ledger in NORMAL; CAVE_CLEAR at a hub or cell and at the CVC;
CAVE_CLEAR_DONE; CAVE_REC_READ by service frame.
The model's choices in it: log entry 52. -/
def Obligations.CaveCompletes : Prop :=
  (∀ (q : Part) (s : State) (r : CaveRec) (rest : List CaveRec), s.plant.up q = true → (s.plant.node q).cave.clearing = false →
    (s.plant.node q).cave.queue = r :: rest → (q.kind = 2 → s.plant.getN q K.nrgState = 2) →
    exec (.caveWrite q true) s = .next { s with
    plant :=
      ((s.plant.onNode q (fun m => { m with cave := { m.cave with queue := rest } })).caveStore q r true).releaseRecords q }) ∧
  (∀ (q : Part) (s : State) (r : CaveRec) (rest : List CaveRec), s.plant.up q = true → (s.plant.node q).cave.clearing = false →
    (s.plant.node q).cave.queue = r :: rest → (q.kind = 2 → s.plant.getN q K.nrgState = 2) →
    exec (.caveWrite q false) s = .next { s with
    plant :=
      ((((s.plant.onNode q (fun m => { m with cave := { m.cave with queue := rest } })).caveStore q r false).bump q K.caveLost 1).raise q
        (if q.kind = 0 then 126 else if q.kind = 1 then 6 else 8) 0).releaseRecords q }) ∧
  (∀ (q : Part) (v : BitVec 32) (s : State), s.plant.acceptsAt q K.caveClear (beBytes 4 v.toNat) = true →
    exec (.caveClear (.service q) v) s = .next { s with
    plant :=
      (s.plant.put q K.caveSeqFloor (s.plant.get q K.caveLastSeq)).onNode q (fun m => { m with cave := { m.cave with
        clearing := true, clearRid := 0 } }) }) ∧
  (∀ (r : Req) (v : BitVec 32) (s : State), s.plant.accepts r K.caveClear (beBytes 4 v.toNat) = true →
    exec (.caveClear (.host r) v) s = .next { s with
    plant :=
      s.plant.answered r K.caveClear (beBytes 4 v.toNat) (fun p =>
        (p.put .cvc K.caveSeqFloor (p.get .cvc K.caveLastSeq)).onNode .cvc (fun m => { m with cave := { m.cave with
          clearing := true, clearRid := r.rid.toNat } })) }) ∧
  (∀ (q : Part) (s : State), s.plant.up q = true → (s.plant.node q).cave.clearing = true →
    exec (.caveClearDone q) s = .next { s with
    plant :=
      let p := (s.plant.onNode q (fun m => { m with cave := { m.cave with recs := [], circ := 0, clearing := false } })).caveShow q
      p.caveStore q (p.caveRec q 1 0xFF 3 0 ((s.plant.node q).cave.clearRid % 2 ^ 32) []) true }) ∧
  (∀ (q : Part) (s : State) (r : CaveRec), q ≠ .cvc → s.plant.up q = true →
    (s.plant.node q).cave.recs.find? (fun x => decide (s.plant.getN q K.caveSel ≤ x.seq)) = some r →
    exec (.caveRecRead (.service q)) s = .next { s with plant := s.plant.put q K.caveSel ((r.seq + 1 : Nat) : Int) })

/-- Acquisition, the requests (13 R365, R367): ACQ_ARM, ACQ_STOP of an armed acquisition, ACQ_FORCE before a trigger and ACQ_RELEASE in
mode 1, each a WRITE to acq.ctrl that the owner's request has accepted.
The model's choices in it: log entry 41. -/
def Obligations.AcquisitionControlCompletes : Prop :=
  (∀ (r : Req) (s : State), s.plant.accepts r K.acqCtrl (beBytes 1 1) = true →
    exec (.acqArm r) s = .next { s with
    plant := s.plant.answered r K.acqCtrl (beBytes 1 1) (fun p =>
      let wait := p.c K.acqMode = 1 ∧ p.cvc.acq.heldBank p.acqNextBank
      let p' := p.onAcq (fun a => { a with
        chans := [], beginDue := !wait, stopDue := false, forceDue := false, closing := false, steps := 0, counts := [],
        bank := p.acqNextBank, ign := 0, ignFirst := 0 })
      (p'.cPut K.acqState (if wait then 1 else 2)).cPut K.acqSeqState 0) }) ∧
  (∀ (r : Req) (s : State), s.plant.accepts r K.acqCtrl (beBytes 1 2) = true →
    exec (.acqStop r) s = .next { s with
    plant := s.plant.answered r K.acqCtrl (beBytes 1 2) (fun p =>
      if p.acqOn then p.onAcq (fun a => { a with stopDue := true }) else p) }) ∧
  (∀ (r : Req) (s : State), s.plant.accepts r K.acqCtrl (beBytes 1 3) = true →
    exec (.acqForce r) s = .next { s with
    plant := s.plant.answered r K.acqCtrl (beBytes 1 3) (fun p =>
      if p.c K.acqState = 1 ∨ p.c K.acqState = 2 then p.onAcq (fun a => { a with forceDue := true }) else p) }) ∧
  (∀ (r : Req) (s : State), s.plant.accepts r K.acqCtrl (beBytes 1 4) = true →
    exec (.acqRelease r) s = .next { s with
    plant := s.plant.answered r K.acqCtrl (beBytes 1 4) (fun p =>
      if p.c K.acqMode = 1 then
        p.onAcq (fun a => if p.c K.acqBank = 0 then { a with heldA := false } else { a with heldB := false })
      else p) })

/-- Acquisition, the sequencer and its pins (13 R365, R370, R371): SEQUENCER_STEP when recording begins, before the delay of a state has
passed, and with a condition ready; SEQUENCER_TIMEOUT; ACQ_TRIG_IN at an edge; ACQ_TRIG_OUT_END.
The model's choices in it: log entry 41. -/
def Obligations.SequencerCompletes : Prop :=
  (∀ (s : State), s.plant.up .cvc = true → s.plant.cvc.acq.stopDue = false → s.plant.c K.acqState = 2 →
    s.plant.cvc.acq.beginDue = true →
    exec .sequencerStep s = .next { s.acqBegin s.plant.cvc.acq.bank with
      plant := (s.acqBegin s.plant.cvc.acq.bank).plant.acqOld }) ∧
  (∀ (s : State) (n : Nat), s.plant.up .cvc = true → s.plant.cvc.acq.stopDue = false → s.plant.c K.acqState = 2 →
    s.plant.cvc.acq.beginDue = false → s.plant.cvc.acq.closing = false → s.plant.cvc.acq.forceDue = false →
    n = s.plant.cvc.acq.steps + 1 → n ≤ s.plant.c (K.acqStDelay + s.plant.c K.acqSeqState) →
    exec .sequencerStep s = .next { s with plant := (s.plant.onAcq (fun a => { a with steps := n, forceDue := false })).acqOld }) ∧
  (∀ (s : State) (n i : Nat) (rest : List Nat), s.plant.up .cvc = true → s.plant.cvc.acq.stopDue = false →
    s.plant.c K.acqState = 2 → s.plant.cvc.acq.beginDue = false → s.plant.cvc.acq.closing = false →
    s.plant.cvc.acq.forceDue = false → n = s.plant.cvc.acq.steps + 1 →
    s.plant.c (K.acqStDelay + s.plant.c K.acqSeqState) < n → s.plant.acqReady.1 = i :: rest →
    exec .sequencerStep s = .next { s with
    plant :=
      let late := s.plant.c (K.acqStTimeout + s.plant.c K.acqSeqState) ≠ 0 ∧ s.plant.c (K.acqStTimeout + s.plant.c K.acqSeqState) ≤ n
      let x := s.plant.acqReady.2.onAcq (fun a => { a with steps := n, forceDue := false })
      let x' := x.onAcq (fun a => { a with
        coinc := a.coinc ||| (rest.filter (fun j => x.acqGoto j != x.acqGoto i)).foldl (fun m j => m ||| 2 ^ j) 0,
        flags := a.flags ||| (if late then 0x10 else 0) })
      (if x.acqGoto i = 8 then x'.acqTrigger i 0 else x'.acqEnter (x.acqGoto i)).acqOld }) ∧
  (∀ (s : State), s.plant.up .cvc = true → s.plant.c K.acqState = 2 → s.plant.cvc.acq.beginDue = false →
    s.plant.cvc.acq.closing = false → s.plant.c (K.acqStTimeout + s.plant.c K.acqSeqState) ≠ 0 →
    s.plant.c (K.acqStTimeout + s.plant.c K.acqSeqState) ≤ s.plant.cvc.acq.steps →
    exec .sequencerTimeout s = .next { s with
    plant :=
      let g := s.plant.c (K.acqStTgoto + s.plant.c K.acqSeqState)
      if g = 8 then s.plant.acqTrigger 0xFF 4 else s.plant.acqEnter g }) ∧
  (∀ (edge : Bool) (s : State), s.plant.up .cvc = true → s.plant.cvc.acq.trigIn = !edge →
    exec (.acqTrigIn edge) s = .next { s with
    plant :=
      (s.plant.onAcq (fun a => { a with trigIn := edge })).acqEvent (if edge then 0 else 1) }) ∧
  (∀ (s : State), s.plant.up .cvc = true →
    exec .acqTrigOutEnd s = .next { s with plant := s.plant.onAcq (fun a => { a with trigOut := false }) })

/-- Acquisition, the samples (13 R357, R358, R361, R366, R368): CONTROL_BITSTREAM_OUTPUT; CAPTURE_SAMPLE into the ring of a record before
its trigger; OBJECT_SAMPLE in a cycle that takes one; RECORD_CLOSE in mode 0 and in mode 1.
The model's choices in it: log entries 41, 69. -/
def Obligations.AcquisitionSamplesComplete : Prop :=
  (∀ (ch : Fin 16) (code : BitVec 32) (stuck : Bool) (s : State), s.plant.up .cvc = true →
    exec (.controlBitstreamOutput ch code stuck) s = .next { s with
    plant :=
      (s.plant.onCvc (fun c => { c with bsOut := Tab.set (fun _ => 0) c.bsOut ch.val code.toInt })).cPut (K.bsFault + ch.val)
        ((if stuck then 1 else 0) + (if code.toInt = puOne ∨ code.toInt = -puOne then 2 else 0) : Nat) }) ∧
  (∀ (ch : Fin 64) (val : BitVec 32) (s : State) (c : AcqCh), s.plant.up .cvc = true →
    (srcKind (s.plant.acqSrc ch.val) = 1 ∨ srcKind (s.plant.acqSrc ch.val) = 2) → s.plant.acqRecords = true →
    c = (s.plant.acqCh ch.val).seen (some val.toInt) → c.left = none →
    exec (.captureSample ch val) s = .next { s with
      plant := s.plant.onAcqCh ch.val (fun _ => { c with
        total := c.total + 1, t0 := if c.total = 0 then s.plant.acqBitTime ch.val else c.t0,
        period := s.plant.acqPeriod ch.val, left := none }),
      mem := memWrite s.mem (s.plant.acqRing (s.plant.acqChans.takeWhile (· != ch.val)).length +
        c.total % max 1 (s.plant.c K.acqDepth) * 4) 4 (acqWord (some val.toInt)) }) ∧
  (∀ (s : State), s.plant.up .cvc = true → s.plant.acqCycleDue s.plant.k = true →
    exec .objectSample s = .next (s.plant.acqChans.foldl (fun x ch =>
      if srcKind (x.plant.acqSrc ch) = 5 then
        x.acqSample ch (x.plant.acqObject (x.plant.acqSrc ch))
          ((x.plant.sOf x.plant.k + x.plant.c K.acqObjAt) * 256 - x.plant.acqSkewOf ch)
      else x) s)) ∧
  (∀ (s : State), s.plant.up .cvc = true → s.plant.acqRecords = true → s.plant.c K.acqState = 3 → s.plant.acqStopped = true →
    s.plant.c K.acqMode = 0 →
    exec .recordClose s = .next { s with
      plant := ((((s.plant.cPut K.acqRecord s.plant.cvc.acq.recno).cPut K.acqBank s.plant.cvc.acq.bank).onAcq (fun a => { a with
        closing := false, ign := 0, ignFirst := 0 })).cPut K.acqState 4),
      mem := memPut s.mem (acqBase s.plant.cvc.acq.bank) (s.plant.acqHeader true) }) ∧
  (∀ (s : State), s.plant.up .cvc = true → s.plant.acqRecords = true → s.plant.c K.acqState = 3 → s.plant.acqStopped = true →
    s.plant.c K.acqMode = 1 → s.plant.cvc.acq.bank = 0 →
    exec .recordClose s = .next { s with
      plant := (((((s.plant.cPut K.acqRecord s.plant.cvc.acq.recno).cPut K.acqBank 0).onAcq (fun a => { a with
        closing := false, ign := 0, ignFirst := 0 })).onAcq (fun a => { a with heldA := true })).cPut K.acqState 1).acqEnter 0,
      mem := memPut s.mem (acqBase 0) (s.plant.acqHeader true) })

/-- The redundant pair (14 R380–R390): IDLE of a CVC at a hub and of a hub at the CVC; IDLE_SEND; RELAY_IDLE_SEND; PATH_LOST while the other
path is heard; PEER_SILENCE; ALLEGIANCE_CHANGE; OVERLAP_END; TAKEOVER.
The model's choices in it: log entries 21, 53. -/
def Obligations.PairCompletes : Prop :=
  (∀ (port : Port) (h : Fin 8) (f : Frame) (s : State) (x : Plant), port.part = .hub h → 48 ≤ port.lane.val →
    s.plant.up (.hub h) = true → s.plant.hears port f 6 = true → chkState f = .good → x = s.plant.heard port f →
    x.idleInWindow (.hub h) f = true → idlePart f = 0 →
    exec (.idle port f) s = .next { s with
    plant :=
      x.onHub h (fun u => u.onCvc (decide (50 ≤ port.lane.val)) (fun e => { e with
        hbc := idleHbc f, role := idleRole f % 16, aepoch := idleEpoch f, seq := bits f.hdr.toNat 47 40,
        heard := true, active := e.active || idleRole f % 16 == 3 })) }) ∧
  (∀ (port : Port) (f : Frame) (s : State) (x : Plant), port.part = .cvc → port.lane.val < 16 → s.plant.up .cvc = true →
    s.plant.hears port f 6 = true → chkState f = .good → x = s.plant.heard port f → x.idleInWindow .cvc f = true →
    idlePart f = 1 →
    exec (.idle port f) s = .next { s with plant := x.idleFromHub port.lane.val f }) ∧
  (∀ (s : State), s.plant.up .cvc = true → s.plant.misstrapped = false → s.plant.paired = false →
    exec .idleSend s = .next { s with
    plant :=
      let p := s.plant.onRed (fun r => { r with hbc := (r.hbc + 1) % 2 ^ 32 })
      (rangeFrom 0 16).foldl (fun y l => y.sendTimed l (idleFrame 0 (p.node .cvc).sched.k (p.c K.redAepoch) (p.c K.redId)
        ((s.plant.cvc.red.hbc + 1) % 2 ^ 32) (p.c K.redRole))) p }) ∧
  (∀ (h : Fin 8) (s : State), s.plant.up (.hub h) = true →
    exec (.relayIdleSend h) s = .next { s with
    plant := [false, true].foldl (fun p b =>
      let y := (p.send (.hub h) (hubPair b).1 (p.relayFrame h b)).send (.hub h) (hubPair b).2 (p.relayFrame h b)
      if ((y.hub h).cvc (!b)).heard then y.bump (.hub h) K.redHbRelayed 1 else y) s.plant }) ∧
  (∀ (path : Fin 2) (s : State), s.plant.up .cvc = true → s.plant.paired = true → s.plant.pathIsLost path.val = true →
    (if path.val = 0 then s.plant.cvc.red.missHub else s.plant.cvc.red.missPeer) = 0 →
    exec (.pathLost path) s = .next { s with plant := s.plant.raise .cvc (113 + path.val) 0 }) ∧
  (∀ (s : State), s.plant.up .cvc = true → s.plant.paired = true → s.plant.active = true →
    s.plant.c K.redPeerSilence ≤ s.plant.cvc.red.noUplink →
    exec .peerSilence s = .next { s with plant := s.plant.onRed (fun r => { r with silent := true }) }) ∧
  (∀ (h : Fin 8) (s : State), s.plant.up (.hub h) = true → s.plant.getN (.hub h) K.redHubSilence ≤ (s.plant.hub h).silentRun →
    ((s.plant.hub h).cvc (!s.plant.allegB h)).heardPrev = true →
    exec (.allegianceChange h) s = .next { s with
    plant :=
      ((((s.plant.put (.hub h) K.hubAllegiance (1 - s.plant.get (.hub h) K.hubAllegiance)).bump (.hub h) K.hubAllegianceChanges 1).put
        (.hub h) K.redOverlapLeft 2).onHub h (fun u => { u with silentRun := 0 })).raise (.hub h) 26 0 }) ∧
  (∀ (h : Fin 8) (s : State), s.plant.up (.hub h) = true → s.plant.getN (.hub h) K.redOverlapLeft = 1 →
    exec (.overlapEnd h) s = .next { s with plant := s.plant.put (.hub h) K.redOverlapLeft 0 }) ∧
  (∀ (s : State), s.plant.up .cvc = true → s.plant.paired = true → s.plant.takeoverDue = true →
    exec .takeover s = .next { s with
    plant :=
      ((((s.plant.becomeActive (s.plant.k + 1)).bump .cvc K.redTakeovers 1).cPut K.redLastTakeover
        ((s.plant.node .cvc).sched.s + (s.plant.node .cvc).sched.tc : Nat)).raise .cvc 112 0).freshServer })

/-- Host ports (15 R405, R406): HOST_LINK_CHANGE up and down on an enabled port; NO_LINK_TIMEOUT without a port that
is up; HOST_DATAGRAM of a well-formed request; ARP_REQUEST and ICMP_ECHO for the port's address. The model's choices
in it: log entry 54. -/
def Obligations.HostPortsComplete : Prop :=
  (∀ (port : HostPort) (s : State), s.plant.up .cvc = true → s.plant.c (hpKey port.val 1) = 1 →
    s.plant.c (hpKey port.val 8) ≠ 1 →
    exec (.hostLinkChange port true) s = .next { s with
    plant :=
      (s.plant.cPut (hpKey port.val 8) 1).onPortSt port.val (fun x => { x with arpSent := true }) }) ∧
  (∀ (port : HostPort) (s : State), s.plant.up .cvc = true → s.plant.c (hpKey port.val 1) = 1 →
    s.plant.c (hpKey port.val 8) = 1 →
    exec (.hostLinkChange port false) s = .next { s with
    plant :=
      ((s.plant.cPut (hpKey port.val 8) 0).bump .cvc (hpKey port.val 0x0E) 1).raise .cvc 4 port.val }) ∧
  (∀ (s : State), s.plant.up .cvc = true → (∀ n < 5, s.plant.portUp n = false) →
    exec .noLinkTimeout s = .next { s with plant := s.plant.raise .cvc 5 0 }) ∧
  (∀ (port : HostPort) (sport : BitVec 16) (src : BitVec 32) (bytes : List Byte) (s : State) (f : HostFrame), s.plant.up .cvc = true →
    s.plant.portServes port.val = true → (s.plant.portSt port.val).queue.length < 32 →
    (datagramMsg (bytes.map BitVec.toNat)).isSome = true → f = .udp 47120 sport src true false false bytes →
    exec (.hostDatagram port f) s = .next { s with
    plant :=
      (s.plant.bump .cvc (hpKey port.val 9) 1).onPortSt port.val (fun x => { x with
        queue := x.queue ++ [bytes.map BitVec.toNat] }) }) ∧
  (∀ (port : HostPort) (target : BitVec 32) (vlan : BitVec 16) (s : State), s.plant.up .cvc = true →
    s.plant.portUp port.val = true → s.plant.vlanOk port.val vlan = true → target.toNat ≠ 0 →
    s.plant.c (hpKey port.val 3) = target.toNat →
    exec (.arpRequest port target vlan) s = .next { s with
    plant :=
      s.plant.onPortSt port.val (fun x => { x with arpSent := true }) }) ∧
  (∀ (port : HostPort) (target : BitVec 32) (vlan : BitVec 16) (data : List Byte) (s : State), s.plant.up .cvc = true →
    s.plant.portUp port.val = true → s.plant.vlanOk port.val vlan = true → target.toNat ≠ 0 →
    s.plant.c (hpKey port.val 3) = target.toNat → data.length ≤ 1472 →
    exec (.icmpEcho port target vlan data) s = .next { s with
    plant :=
      s.plant.onPortSt port.val (fun x => { x with echo := data.map BitVec.toNat }) })

/-- Requests that read (15 R402, R403, R408, R409, 10 R287), once admitted: READ of a number of the CVC and of a
DOMAIN, CAL_S_READ, READ with DESC of an object of any node, READ_BLOCK of successive objects of the CVC. The model's
choices in it: log entries 54, 55. -/
def Obligations.ReadsComplete : Prop :=
  (∀ (r : Req) (idx : BitVec 16) (sub : Byte) (off : BitVec 32) (maxLen : BitVec 16) (s : State) (key : Nat) (m : Msg) (row : ObjRow)
    (x : Plant), r.node = 0 → key = idx.toNat * 256 + sub.toNat → m = .read key off.toNat maxLen.toNat →
    s.plant.admits r m = true → x = s.plant.taken r m → readStatus 0 key = 0 → rowOf 0 key = some row → row.isBlob = false →
    key ≠ K.timeCalS → key ≠ K.timeCalNs →
    exec (.read r idx sub off maxLen) s = .next { s with
    plant :=
      x.answer (echoOf r m) 0 false (readBody key row.ty.code off.toNat (encodeVal row.ty (x.view .cvc key))) }) ∧
  (∀ (r : Req) (idx : BitVec 16) (sub : Byte) (off : BitVec 32) (maxLen : BitVec 16) (s : State) (key : Nat) (m : Msg) (row : ObjRow)
    (x : State) (v : List Nat × Bool), r.node = 0 → key = idx.toNat * 256 + sub.toNat → m = .read key off.toNat maxLen.toNat →
    s.plant.admits r m = true → x = { s with plant := s.plant.taken r m } → readStatus 0 key = 0 → rowOf 0 key = some row →
    row.ty = .domain → key ≠ K.caveRec → v = x.blobPart .cvc key off.toNat (min 240 (readMax maxLen.toNat)) →
    exec (.read r idx sub off maxLen) s = .next { s with
    plant :=
      x.plant.answer (echoOf r m) 0 v.2 (readBody key row.ty.code off.toNat v.1) }) ∧
  (∀ (r : Req) (s : State) (m : Msg) (x : Plant), r.node = 0 → m = .read K.timeCalS 0 0 → s.plant.admits r m = true →
    x = s.plant.taken r m →
    exec (.calSRead r) s = .next { s with
    plant :=
      (x.onCvc (fun c => { c with ptp := { c.ptp with latchedNs := (x.calendar % 1000000000).toNat + 1 } })).answer (echoOf r m) 0 false
        (readBody K.timeCalS ObjType.u64.code 0 (encodeVal .u64 (x.view .cvc K.timeCalS))) }) ∧
  (∀ (r : Req) (idx : BitVec 16) (sub : Byte) (s : State) (key : Nat) (m : Msg) (q : Part) (row : ObjRow),
    key = idx.toNat * 256 + sub.toNat → m = .desc key → s.plant.admits r m = true → partOf r.node.toNat = some q →
    hasIndex q.kind (key / 256) = true → rowOf q.kind key = some row →
    exec (.readDescriptor r idx sub) s = .next { s with
    plant :=
      (s.plant.taken r m).answer (echoOf r m) 0 false (descBytes key row) }) ∧
  (∀ (r : Req) (idx : BitVec 16) (sub count : Byte) (off : BitVec 32) (maxLen : BitVec 16) (s : State) (key : Nat) (m : Msg)
    (row : ObjRow) (x : State) (y : (List Nat × Bool) × State), r.node = 0 → count ≠ 0 → key = idx.toNat * 256 + sub.toNat →
    m = .block key count.toNat off.toNat maxLen.toNat → s.plant.admits r m = true → x = { s with plant := s.plant.taken r m } →
    hasIndex 0 (key / 256) = true → rowOf 0 key = some row → row.ty ≠ .domain →
    y = x.ownItems (blockKeys key count.toNat) (min maxLen.toNat 1408) →
    exec (.readBlock r idx sub count off maxLen) s = .next { y.2 with
      plant := y.2.plant.answer (echoOf r m) 0 y.1.2 y.1.1 })

/-- Requests of the owner that write (15 R402, R404, R417–R419): WRITE of a readable number of no lane or slot, of a member of a coupled
group, which its shadow takes (00 R7), and of the first piece of a DOMAIN value, which is held; WRITE with B set;
BATCH_OPEN; BATCH_COMMIT with a cycle running and without one; BATCH_ABORT.
The model's choices in it: log entries 54, 55. -/
def Obligations.WritesComplete : Prop :=
  (∀ (r : Req) (idx : BitVec 16) (sub ty : Byte) (val : List Byte) (s : State) (key : Nat) (row : ObjRow) (bs : List Nat),
    key = idx.toNat * 256 + sub.toNat → bs = val.map BitVec.toNat → rowOf 0 key = some row → ty.toNat = row.ty.code →
    row.isBlob = false → (row.acc = .rw ∨ row.acc = .rws) → (key / 256 < 0x3800 ∨ 0x3840 ≤ key / 256) →
    (key < K.vatSlotCtrl ∨ K.vatSlotTag + 8 ≤ key) → s.plant.accepts r key bs = true →
    exec (.write r idx sub ty 0 true val) s = .next { s with
    plant :=
      s.plant.answered r key bs (fun p => p.put .cvc key (decodeVal row.ty bs)) }) ∧
  (∀ (r : Req) (idx : BitVec 16) (sub ty : Byte) (val : List Byte) (s : State) (key : Nat) (row : ObjRow) (bs : List Nat),
    key = idx.toNat * 256 + sub.toNat → bs = val.map BitVec.toNat → rowOf 0 key = some row → ty.toNat = row.ty.code →
    row.isBlob = false → row.acc = .rwc → s.plant.accepts r key bs = true →
    exec (.write r idx sub ty 0 true val) s = .next { s with
    plant :=
      s.plant.answered r key bs (fun p => p.put .cvc (key + 0x40) (decodeVal row.ty bs)) }) ∧
  (∀ (r : Req) (idx : BitVec 16) (sub ty : Byte) (val : List Byte) (s : State) (key : Nat) (row : ObjRow) (bs : List Nat) (m : Msg)
    (x : Plant), key = idx.toNat * 256 + sub.toNat → bs = val.map BitVec.toNat → m = .write false key ty.toNat 0 false bs →
    r.node = 0 → s.plant.admits r m = true → x = s.plant.taken r m → x.owner = r.rid.toNat → writeAccess 0 key = 0 →
    rowOf 0 key = some row → row.ty = .domain → ty.toNat = row.ty.code → x.stateStatus .cvc key row 0 = 0 →
    x.ownCond .cvc key 0 = 0 → bs.length ≤ row.maxLen →
    exec (.write r idx sub ty 0 false val) s = .next { s with
    plant :=
      (x.onGdp (fun g => { g with
        partials := { node := 0, key := key, rid := r.rid.toNat, bytes := bs, tick := x.tick } ::
          g.partials.filter (fun y => !(y.node == 0 && y.key == key && y.rid == r.rid.toNat)) })).answer (echoOf r m) 0 false
        (writeBody key 0) }) ∧
  (∀ (r : Req) (idx : BitVec 16) (sub ty : Byte) (val : List Byte) (s : State) (key : Nat) (m : Msg) (row : ObjRow) (bs : List Nat)
    (x : Plant), key = idx.toNat * 256 + sub.toNat → bs = val.map BitVec.toNat → m = .write true key ty.toNat 0 true bs →
    r.node = 0 → s.plant.admits r m = true → x = s.plant.taken r m → x.owner = r.rid.toNat → rowOf 0 key = some row →
    row.ty ≠ .domain → x.writeStatus key ty.toNat bs = 0 → (x.session r.rid.toNat).any (fun (y : Session) => !y.lostBatch) = true →
    x.batchOpen = true → x.cvc.gdp.batch.length < 64 → x.batchBytes + bs.length ≤ 4096 →
    exec (.batchedWrite r idx sub ty val) s = .next { s with
    plant :=
      (x.onGdp (fun g => { g with batch := g.batch ++ [{ key := key, ty := ty.toNat, val := bs }] })).answer (echoOf r m) 0 false
        (writeBody key (x.cvc.gdp.batch.length + 1)) }) ∧
  (∀ (r : Req) (s : State) (x : Plant) (n : Nat), s.plant.admits r .batchOpen = true → x = s.plant.taken r .batchOpen →
    x.owner = r.rid.toNat → x.c K.gdpBatchState ≠ 1 → n = (x.c K.gdpBatchSeq + 1) % 2 ^ 32 →
    exec (.batchOpen r) s = .next { s with
    plant :=
      (((x.cPut K.gdpBatchSeq n).cPut K.gdpBatchState 1).onGdp (fun g => { g with batch := [] })).answer (echoOf r .batchOpen) 0 false
        (beBytes 4 n) }) ∧
  (∀ (r : Req) (bseq : BitVec 32) (s : State) (m : Msg) (x y : Plant), m = .batchCommit bseq.toNat → s.plant.admits r m = true →
    x = s.plant.taken r m → x.owner = r.rid.toNat → (x.session r.rid.toNat).any (fun (z : Session) => !z.lostBatch) = true →
    x.batchOpen = true → x.c K.gdpBatchSeq = bseq.toNat → x.batchFailure.1 = 0 →
    y = (x.markBusy (echoOf r m)).onGdp (fun g => { g with
      committing := true, commitSeq := r.seq.toNat, commitPort := r.port.val, commitRid := r.rid.toNat, commitInc := r.inc.toNat }) →
    exec (.batchCommit r bseq) s = .next (if (x.node .cvc).sched.valid then { s with plant := y }
      else ({ s with plant := y.writeBatch } : State).softAfter .cvc)) ∧
  (∀ (r : Req) (bseq : BitVec 32) (s : State) (m : Msg) (x : Plant), m = .batchAbort bseq.toNat → s.plant.admits r m = true →
    x = s.plant.taken r m → x.owner = r.rid.toNat → (x.session r.rid.toNat).any (fun (z : Session) => !z.lostBatch) = true →
    x.batchOpen = true → x.c K.gdpBatchSeq = bseq.toNat →
    exec (.batchAbort r bseq) s = .next { s with plant := x.dropBatch.answer (echoOf r m) 0 false (beBytes 4 bseq.toNat) })

/-- Ownership (15 R413, R414): CLAIM with no owner, from the owner, and of a higher priority; RENEW in time;
LEASE_EXPIRE of an owner without an open batch.
The model's choices in it: log entries 54, 55. -/
def Obligations.OwnershipCompletes : Prop :=
  (∀ (r : Req) (prio : Byte) (s : State) (m : Msg) (x y : Plant), m = .claim prio.toNat → prio ≠ 0 → s.plant.admits r m = true →
    x = s.plant.taken r m → x.owner ≠ r.rid.toNat → (x.owner = 0 ∨ x.c K.gdpOwnerPrio < prio.toNat) → x.batchOpen = false →
    y = (x.setOwner r.rid.toNat prio.toNat r.port.val).newLease →
    exec (.claim r prio) s = .next { s with plant := y.answer (echoOf r m) 0 false y.ownerBody }) ∧
  (∀ (r : Req) (prio : Byte) (s : State) (m : Msg) (x y : Plant), m = .claim prio.toNat → prio ≠ 0 → s.plant.admits r m = true →
    x = s.plant.taken r m → x.owner = r.rid.toNat → y = (x.cPut K.gdpOwnerPrio prio.toNat).newLease →
    exec (.claim r prio) s = .next { s with plant := y.answer (echoOf r m) 0 false y.ownerBody }) ∧
  (∀ (r : Req) (s : State) (x y : Plant), s.plant.admits r .renew = true → x = s.plant.taken r .renew → x.owner = r.rid.toNat →
    x.tick < x.cvc.gdp.leaseEnd → y = x.newLease →
    exec (.renew r) s = .next { s with plant := y.answer (echoOf r .renew) 0 false y.ownerBody }) ∧
  (∀ (s : State), s.plant.up .cvc = true → s.plant.owner ≠ 0 → s.plant.batchOpen = false →
    exec .leaseExpire s = .next { s with plant := ((s.plant.setOwner 0 0 0xFF).bump .cvc K.gdpLeaseExpiries 1).raise .cvc 1 0 })

/-- Subscriptions and partial values (15 R402, R420, R421): SUBSCRIBE to a new object and its cancel; SUB_LIFE_EXPIRE; NOTIFY;
PERIODIC_NOTIFY of a periodic subscription; DOMAIN_TIMEOUT.
The model's choices in it: log entry 58. -/
def Obligations.SubscriptionsComplete : Prop :=
  (∀ (r : Req) (idx : BitVec 16) (sub mode : Byte) (period : BitVec 16) (s : State) (key : Nat) (m : Msg) (row : ObjRow) (x : Plant)
    (others : List Subscr) (id : Nat), key = idx.toNat * 256 + sub.toNat → m = .subscribe key mode.toNat period.toNat →
    s.plant.admits r m = true → x = s.plant.taken r m → readStatus 0 key = 0 → rowOf 0 key = some row → row.ty ≠ .domain →
    (mode = 1 ∨ ((mode = 2 ∨ mode = 3) ∧ 10 ≤ period.toNat ∧ period.toNat ≤ 60000)) →
    others = x.cvc.gdp.subs.filter (fun y => !(y.rid == r.rid.toNat && y.key == key)) → others.length < 64 →
    (others.filter (fun y => y.rid == r.rid.toNat)).length < 16 → id = x.cvc.gdp.nextSub % 65535 + 1 →
    exec (.subscribe r idx sub mode period) s = .next { s with
    plant :=
      (x.onGdp (fun g => { g with
        subs := others ++ [{
                             id := id, rid := r.rid.toNat, port := r.port.val, key := key, mode := mode.toNat, period := period.toNat,
                             last := [], sentTick := 0, sentOnce := false }],
        nextSub := id })).answer (echoOf r m) 0 false (beBytes 2 id ++ [0, 0]) }) ∧
  (∀ (r : Req) (idx : BitVec 16) (sub : Byte) (period : BitVec 16) (s : State) (key : Nat) (m : Msg) (row : ObjRow) (x : Plant),
    key = idx.toNat * 256 + sub.toNat → m = .subscribe key 0 period.toNat → s.plant.admits r m = true → x = s.plant.taken r m →
    readStatus 0 key = 0 → rowOf 0 key = some row → row.ty ≠ .domain →
    exec (.subscribe r idx sub 0 period) s = .next { s with
    plant :=
      (x.onGdp (fun g => { g with subs := g.subs.filter (fun y => !(y.rid == r.rid.toNat && y.key == key)) })).answer (echoOf r m) 0
        false (beBytes 2 ((x.cvc.gdp.subs.find? (fun y => y.rid == r.rid.toNat && y.key == key)).map (·.id) |>.getD 0) ++ [0, 0]) }) ∧
  (∀ (rid : BitVec 64) (s : State), s.plant.up .cvc = true →
    exec (.subLifeExpire rid) s = .next { s with
    plant :=
      s.plant.onGdp (fun g => { g with subs := g.subs.filter (fun x => x.rid != rid.toNat) }) }) ∧
  (∀ (s : State) (due : List (Subscr × List Nat)), s.plant.up .cvc = true →
    due = (s.plant.cvc.gdp.subs.map (fun x => (x, s.sampleBytes x.key))).filter (fun y => noteDue s.plant.tick y.1 y.2) →
    exec .notify s = .next { s with
    plant :=
      let p := due.foldl (fun p y => p.noteSent y.1.id y.2) s.plant
      p.notifyAll (due.map (fun y => p.noteOf y.1 y.2)) }) ∧
  (∀ (subid : BitVec 16) (s : State) (x : Subscr), s.plant.up .cvc = true →
    s.plant.cvc.gdp.subs.find? (fun y => y.id == subid.toNat && decide (2 ≤ y.mode)) = some x →
    exec (.periodicNotify subid) s = .next { s with
    plant :=
      (s.plant.noteSent x.id (s.sampleBytes x.key)).notifyAll [s.plant.noteOf x (s.sampleBytes x.key)] }) ∧
  (∀ (s : State), s.plant.up .cvc = true →
    exec .domainTimeout s = .next { s with
    plant := s.plant.onGdp (fun g => { g with
      partials := g.partials.filter (fun x => decide (s.plant.tick < x.tick + ticksMs 10000)) }) })

/-- Resets (16 R429–R436; 17 R461): POWER_ON_RESET of any part, RESET_N_ASSERT of any part that was not held,
RESET_N_RELEASE of a hub and of a CVC whose rails are in range and of a cell, LONG_RESET, WATCHDOG_EXPIRE, SOFT_RESET
of a hub or cell by service frame and of the CVC by its owner, and RIND_REQUESTED_RESET by both channels and by one.
The model's choices in it: log entries 11, 16, 23, 82. -/
def Obligations.ResetsComplete : Prop :=
  (∀ (q : Part) (s : State), ∃ t, exec (.powerOnReset q) s = .next t ∧ (t.plant.node q).power.core = false ∧
    (t.plant.node q).power.rails = false ∧ (t.plant.node q).power.longFlag = false ∧
    (t.plant.node q).power.causes = (if (s.plant.node q).power.held then 3 else 1) ∧ (t.plant.node q).lanes = [] ∧
    (t.plant.node q).cave.queue = [] ∧ (q = .cvc → t.mem = [])) ∧
  (∀ (q : Part) (s : State), (s.plant.node q).power.held = false → ∃ t, exec (.resetNAssert q) s = .next t ∧
    (t.plant.node q).power.core = false ∧ (t.plant.node q).power.held = true ∧ (t.plant.node q).power.holdStart = t.plant.tick ∧
    (t.plant.node q).power.causes = (s.plant.node q).power.causes ||| 2 ∧ (t.plant.node q).cave.queue = [] ∧ (q = .cvc → t.mem = [])) ∧
  (∀ (h : Fin 8) (b : Boot) (s : State), (s.plant.node (.hub h)).power.held = true → (s.plant.node (.hub h)).power.rails = true →
    (s.plant.node (.hub h)).power.core = false →
    exec (.resetNRelease (.hub h) b) s = .next { s with
    plant :=
      (s.plant.onNode (.hub h) (fun n => { n with power := { n.power with
        held := false, pins := b, heldMs := (s.plant.tick - n.power.holdStart) / 400000 } })).hubStart h }) ∧
  (∀ (b : Boot) (s : State), (s.plant.node .cvc).power.held = true → (s.plant.node .cvc).power.rails = true →
    (s.plant.node .cvc).power.core = false →
    exec (.resetNRelease .cvc b) s = .next (State.cvcStart { s with
    plant :=
      s.plant.onNode .cvc (fun n => { n with power := { n.power with
        held := false, pins := b, heldMs := (s.plant.tick - n.power.holdStart) / 400000 } }) })) ∧
  (∀ (c : CellId) (b : Boot) (s : State), (s.plant.node (.cell c)).power.held = true →
    exec (.resetNRelease (.cell c) b) s = .next { s with
    plant :=
      ((s.plant.onNode (.cell c) (fun n => { n with power := { n.power with
        held := false, pins := b, heldMs := (s.plant.tick - n.power.holdStart) / 400000 } })).onCell c (fun e =>
          { e with led := { e.led with timing := false } })).requestBoot c }) ∧
  (∀ (q : Part) (s : State), (s.plant.node q).power.held = true →
    exec (.longReset q) s = .next { s with plant := s.plant.onPower q (fun w => { w with longFlag := true }) }) ∧
  (∀ (q : Part) (s : State), s.plant.up q = true → exec (.watchdogExpire q) s = .next (s.coreReset q 4)) ∧
  (∀ (q : Part) (v : BitVec 16) (s : State), s.plant.acceptsAt q K.rstSoft (beBytes 2 v.toNat) = true →
    (s.plant.node q).power.storing = false → (s.plant.node q).power.fwWriting = false →
    exec (.softReset (.service q) v) s =
      .next (State.coreReset { s with plant := s.plant.onPower q (fun w => { w with softDue := true }) } q 8)) ∧
  (∀ (q : Part) (v : BitVec 16) (s : State), s.plant.acceptsAt q K.rstSoft (beBytes 2 v.toNat) = true →
    (s.plant.node q).power.storing = true →
    exec (.softReset (.service q) v) s = .next { s with plant := s.plant.onPower q (fun w => { w with softDue := true }) }) ∧
  (∀ (r : Req) (v : BitVec 16) (s : State), s.plant.accepts r K.rstSoft (beBytes 2 v.toNat) = true →
    exec (.softReset (.host r) v) s = .next (State.softAfter { s with
    plant :=
      s.plant.answered r K.rstSoft (beBytes 2 v.toNat) (fun p => p.onPower .cvc (fun w => { w with softDue := true })) } .cvc)) ∧
  (∀ (s : State), s.plant.up .cvc = true → 2 ≤ s.plant.conv →
    exec (.rindRequestedReset 3) s = .next (s.coreReset .cvc 16)) ∧
  (∀ (by_ : BitVec 2) (s : State), s.plant.up .cvc = true → 2 ≤ s.plant.conv → by_ ≠ 0 → by_ ≠ 3 →
    exec (.rindRequestedReset by_) s = .next { s with
    plant :=
      s.plant.onRind (fun r => { r with alone := r.alone ||| by_.toNat }) })

/-- Start-up of the CVC (16 R445; 10 R286; 14 R381): STARTUP_COMPLETE once its steps are done; HUB_WAIT_EXPIRE, PTP_WAIT_EXPIRE and
START_WAIT_EXPIRE in STARTING, the last without a partner heard and with one.
The model's choices in it: log entry 63. -/
def Obligations.StartupCompletes : Prop :=
  (∀ (s : State), s.plant.up .cvc = true → s.plant.conv = 1 → s.plant.getN .cvc K.bootStatus ≠ 2 →
    (s.plant.node .cvc).sched.valid = true → s.plant.hubsDone = true → s.plant.discoveryDone = true →
    exec .startupComplete s = .next { s with
    plant :=
      let p := (s.plant.convEvent 3 0).onCvc (fun c => { c with conv := { c.conv with startDone := 1 } })
      p.cPut K.bootTimeStart (((p.tick - (p.node .cvc).power.releasedAt) / 400000 : Nat) : Int) }) ∧
  (∀ (s : State), s.plant.up .cvc = true → s.plant.conv = 1 →
    exec .hubWaitExpire s = .next { s with
    plant :=
      s.plant.onCvc (fun c => { c with conv := { c.conv with hubWaited := true } }) }) ∧
  (∀ (s : State), s.plant.up .cvc = true → s.plant.conv = 1 →
    exec .ptpWaitExpire s = .next { s with
    plant :=
      s.plant.onCvc (fun c => { c with conv := { c.conv with ptpWaited := true } }) }) ∧
  (∀ (s : State), s.plant.up .cvc = true → s.plant.paired = true → s.plant.cvc.red.sameId = false → s.plant.conv = 1 →
    s.plant.c K.redRole = 1 → s.plant.cvc.red.everHeard = false →
    exec .startWaitExpire s = .next { s with
    plant :=
      let p := s.plant.raise .cvc 115 0
      p.onRed (fun x => { x with outcome := p.listened, everHeard := false, everActive := false }) }) ∧
  (∀ (s : State), s.plant.up .cvc = true → s.plant.paired = true → s.plant.cvc.red.sameId = false → s.plant.conv = 1 →
    s.plant.c K.redRole = 1 → s.plant.cvc.red.everHeard = true →
    exec .startWaitExpire s = .next { s with
    plant :=
      s.plant.onRed (fun x => { x with outcome := s.plant.listened, everHeard := false, everActive := false }) })

/-- Stores, dictionary images and firmware (16 R431, R439, R441–R444, R447): STORE_SAVE of a hub, of a cell whose
ledger grants it, and of the CVC by its owner; STORE_DONE of a good sequence; STORE_RESTORE, STORE_IMAGE whose entries
all pass, FW_LOAD, KEY_PROG and KEY_REVOKE of a hub or cell by service frame, and of the CVC by its owner;
FIRMWARE_WRITE_DONE; SIGNATURE_VERIFIED of steward firmware that is good, and of an engine package that is not. The
model's choices in it: log entries 8, 70, 71. -/
def Obligations.StoresComplete : Prop :=
  (∀ (h : Fin 8) (v : BitVec 16) (s : State), s.plant.acceptsAt (.hub h) K.storeSave (beBytes 2 v.toNat) = true →
    exec (.storeSave (.service (.hub h)) v) s = .next { s with plant := s.plant.storeStart (.hub h) }) ∧
  (∀ (c : CellId) (v : BitVec 16) (s : State), s.plant.acceptsAt (.cell c) K.storeSave (beBytes 2 v.toNat) = true →
    s.plant.grants c 5 = true →
    exec (.storeSave (.service (.cell c)) v) s = .next { s with
    plant :=
      (s.plant.onCell c (fun e => { e with led := { e.led with holds := 5 :: e.led.holds } })).storeStart (.cell c) }) ∧
  (∀ (q : Part) (s : State), s.plant.up q = true → (s.plant.node q).power.storing = true →
    (s.plant.node q).power.softDue = false →
    exec (.storeDone q true) s = .next { s with
    plant :=
      let w := (s.plant.node q).power
      let p := (match q with | .cell c => s.plant.release c 5 | _ => s.plant).onNode q (fun n => { n with power := { n.power with storing := false, snap := [], snapBlobs := [] } })
      let p := p.onNode q (fun n => { n with
        stored := n.stored.foldl (fun t e => if rindHeld e.1 then Tab.ins e.1 e.2 t else t) w.snap,
        storedBlobs := w.snapBlobs,
        power := { n.power with restore := false } })
      ((p.put q K.storeStatus 2).bump q K.storeGen 1).bump q K.storeCount 1 }) ∧
  (∀ (q : Part) (v : BitVec 16) (s : State), s.plant.acceptsAt q K.storeRestore (beBytes 2 v.toNat) = true →
    exec (.storeRestore (.service q) v) s = .next { s with
    plant :=
      s.plant.onPower q (fun w => { w with restore := true }) }) ∧
  (∀ (q : Part) (bytes : List Byte) (s : State), s.plant.acceptsAt q K.storeImage (bytes.map BitVec.toNat) = true →
    s.plant.imageEntries q (bytes.map BitVec.toNat) = 0 →
    exec (.storeImage (.service q) bytes) s = .next { s with
    plant :=
      s.plant.putBlob q K.storeImage (bytes.map BitVec.toNat) }) ∧
  (∀ (q : Part) (bytes : List Byte) (s : State), s.plant.acceptsAt q K.bootFwLoad (bytes.map BitVec.toNat) = true →
    exec (.fwLoad (.service q) bytes) s = .next { s with plant := s.plant.putBlob q K.bootFwLoad (bytes.map BitVec.toNat) }) ∧
  (∀ (q : Part) (slot : Fin 2) (hash : List Byte) (s : State),
    s.plant.acceptsAt q (K.bootKeyProg + slot.val) (hash.map BitVec.toNat) = true →
    exec (.keyProg (.service q) slot hash) s = .next { s with
    plant :=
      (s.plant.putBlob q (K.bootKeyProg + slot.val) (hash.map BitVec.toNat)).put q K.bootKeys
        ((s.plant.getN q K.bootKeys ||| 2 ^ (2 + slot.val) : Nat) : Int) }) ∧
  (∀ (q : Part) (v : BitVec 8) (s : State), s.plant.acceptsAt q K.bootKeyRevoke (beBytes 1 v.toNat) = true →
    exec (.keyRevoke (.service q) v) s = .next { s with
    plant :=
      s.plant.put q K.bootKeys ((s.plant.getN q K.bootKeys ||| 2 ^ (4 + v.toNat) : Nat) : Int) }) ∧
  (∀ (r : Req) (v : BitVec 16) (s : State), s.plant.accepts r K.storeSave (beBytes 2 v.toNat) = true →
    exec (.storeSave (.host r) v) s = .next { s with
    plant := s.plant.answered r K.storeSave (beBytes 2 v.toNat) (fun p => p.storeStart .cvc) }) ∧
  (∀ (r : Req) (v : BitVec 16) (s : State), s.plant.accepts r K.storeRestore (beBytes 2 v.toNat) = true →
    exec (.storeRestore (.host r) v) s = .next { s with
    plant := s.plant.answered r K.storeRestore (beBytes 2 v.toNat) (fun p => p.onPower .cvc (fun w => { w with restore := true })) }) ∧
  (∀ (r : Req) (bytes : List Byte) (s : State), s.plant.acceptsWhole r K.storeImage (bytes.map BitVec.toNat) = true →
    (s.plant.gathered r K.storeImage (bytes.map BitVec.toNat)).imageEntries .cvc (bytes.map BitVec.toNat) = 0 →
    exec (.storeImage (.host r) bytes) s = .next { s with
    plant :=
      s.plant.answeredWhole r K.storeImage (bytes.map BitVec.toNat) (fun p =>
        p.putBlob .cvc K.storeImage (bytes.map BitVec.toNat)) }) ∧
  (∀ (r : Req) (bytes : List Byte) (s : State), s.plant.acceptsWhole r K.bootFwLoad (bytes.map BitVec.toNat) = true →
    exec (.fwLoad (.host r) bytes) s = .next { s with
    plant :=
      s.plant.answeredWhole r K.bootFwLoad (bytes.map BitVec.toNat) (fun p =>
        p.putBlob .cvc K.bootFwLoad (bytes.map BitVec.toNat)) }) ∧
  (∀ (r : Req) (slot : Fin 2) (hash : List Byte) (s : State),
    s.plant.acceptsWhole r (K.bootKeyProg + slot.val) (hash.map BitVec.toNat) = true →
    exec (.keyProg (.host r) slot hash) s = .next { s with
    plant :=
      s.plant.answeredWhole r (K.bootKeyProg + slot.val) (hash.map BitVec.toNat) (fun p =>
        (p.putBlob .cvc (K.bootKeyProg + slot.val) (hash.map BitVec.toNat)).put .cvc K.bootKeys
          ((p.getN .cvc K.bootKeys ||| 2 ^ (2 + slot.val) : Nat) : Int)) }) ∧
  (∀ (r : Req) (v : BitVec 8) (s : State), s.plant.accepts r K.bootKeyRevoke (beBytes 1 v.toNat) = true →
    exec (.keyRevoke (.host r) v) s = .next { s with
    plant :=
      s.plant.answered r K.bootKeyRevoke (beBytes 1 v.toNat) (fun p =>
        p.put .cvc K.bootKeys ((p.getN .cvc K.bootKeys ||| 2 ^ (4 + v.toNat) : Nat) : Int)) }) ∧
  (∀ (q : Part) (s : State), s.plant.up q = true → (s.plant.node q).power.fwWriting = true →
    (s.plant.node q).power.softDue = false → s.plant.getN q K.bootFwSlot = 1 →
    exec (.firmwareWriteDone q) s = .next { s with
    plant :=
      (s.plant.put q K.bootFwVer0 (s.plant.node q).power.fwVersion).onNode q (fun n => { n with power := { n.power with
        fwWriting := false, fwNamed := 0, sigFw0 := some (s.plant.node q).power.sigNew } }) }) ∧
  (∀ (q : Part) (s : State) (image : List Nat), s.plant.up q = true → image = s.plant.blob q K.bootFwLoad → image ≠ [] →
    imageWhole image = true → imageCrcOk image = true → headerOk image (partNumber q.kind) 1 = true → keySlot image < 2 →
    (s.plant.putBlob q K.bootFwLoad []).keyOk q (keySlot image) = true →
    exec (.signatureVerified 0 q true) s = .next { s with
    plant :=
      (s.plant.putBlob q K.bootFwLoad []).onNode q (fun n => { n with power := { n.power with
        fwWriting := true, fwVersion := le32 image 8, sigNew := keySlot image } }) }) ∧
  (∀ (s : State), s.plant.up .cvc = true → s.plant.cvc.package.staged ≠ [] → s.plant.cvc.package.verified = false →
    exec (.signatureVerified 1 .cvc false) s = .next { s with
    plant :=
      ((s.plant.bump .cvc K.bootVerifyFail 1).onCvc (fun c =>
        { c with package := { c.package with staged := [], verified := false } })).raise .cvc 40 0 })

/-- Supplies, temperature and clocks (17 R461–R463, R466, R467): RAIL_OUT_OF_RANGE of every rail, above its threshold and below it:
of a rail the part has not, of one that is out already, of a core rail, of one that raises no source, of the supply of a Rind channel;
RAIL_IN_RANGE of every rail: at a cell, at a CVC or hub while another is out and as the last one comes back, and of a channel's supply;
JUNCTION_TEMPERATURE that crosses no warning, the first, the second and both; REFERENCE_CLOCK_LOST.
The model's choices in it: log entry 64. -/
def Obligations.SuppliesComplete : Prop :=
  (∀ (q : Part) (rail : Fin 8) (below : Bool) (s : State), hasRail q.kind rail.val = false →
    exec (.railOutOfRange q rail below) s = .next s) ∧
  (∀ (q : Part) (rail : Fin 8) (s : State), hasRail q.kind rail.val = true → rail.val ≠ 5 → rail.val ≠ 6 →
    bitOf (s.plant.getN q K.pwrRails) rail.val = true →
    exec (.railOutOfRange q rail false) s = .next s) ∧
  (∀ (q : Part) (rail : Fin 8) (s : State), hasRail q.kind rail.val = true → rail.val ≤ 3 → s.plant.up q = true →
    bitOf (s.plant.getN q K.pwrRails) rail.val = false →
    exec (.railOutOfRange q rail false) s = .next { s with
    plant :=
      ((s.plant.put q K.pwrRails (setBit (s.plant.getN q K.pwrRails) rail.val true : Nat)).bump q K.pwrRailEvents 1).raise q
        (railSource q.kind) 0 }) ∧
  (∀ (q : Part) (rail : Fin 8) (s : State), hasRail q.kind rail.val = true → rail.val ≠ 5 → rail.val ≠ 6 →
    3 < rail.val ∨ s.plant.up q = false → bitOf (s.plant.getN q K.pwrRails) rail.val = false →
    exec (.railOutOfRange q rail false) s = .next { s with
    plant :=
      (s.plant.put q K.pwrRails (setBit (s.plant.getN q K.pwrRails) rail.val true : Nat)).bump q K.pwrRailEvents 1 }) ∧
  (∀ (ch : Fin 2) (rail : Fin 8) (s : State), rail.val = 5 + ch.val → bitOf (s.plant.getN .cvc K.pwrRails) rail.val = false →
    exec (.railOutOfRange .cvc rail false) s = .next { s with
    plant :=
      ((s.plant.put .cvc K.pwrRails (setBit (s.plant.getN .cvc K.pwrRails) rail.val true : Nat)).bump .cvc K.pwrRailEvents 1).chFault
        ch.val 1 }) ∧
  (∀ (ch : Fin 2) (rail : Fin 8) (s : State), rail.val = 5 + ch.val →
    exec (.railOutOfRange .cvc rail true) s = .next { s with
    plant :=
      (((s.plant.railOut .cvc rail.val).onPower .cvc (fun w => { w with chLow := setBit w.chLow ch.val true })).cPut
        (K.rindSaState + ch.val) 0 |>.onChan ch.val (fun _ => default)).showOut }) ∧
  (∀ (q : Part) (rail : Fin 8) (s : State), hasRail q.kind rail.val = true → rail.val ≤ 3 →
    ∃ t, exec (.railOutOfRange q rail true) s = .next t ∧ (t.plant.node q).power.core = false ∧
      (t.plant.node q).power.causes = (s.plant.node q).power.causes ||| 1 ∧ (t.plant.node q).cave.queue = [] ∧
      (q.kind ≠ 2 → (t.plant.node q).power.rails = false)) ∧
  (∀ (q : Part) (rail : Fin 8) (s : State), hasRail q.kind rail.val = true → rail.val = 4 ∨ rail.val = 7 →
    ∃ t, exec (.railOutOfRange q rail true) s = .next t ∧ (t.plant.node q).power.core = false ∧
      (t.plant.node q).power.causes = (if (s.plant.node q).power.held then 3 else 1) ∧ (t.plant.node q).cave.queue = [] ∧
      (t.plant.node q).power.rails = false) ∧
  (∀ (q : Part) (rail : Fin 8) (s : State), hasRail q.kind rail.val = false →
    exec (.railInRange q rail) s = .next s) ∧
  (∀ (c : CellId) (rail : Fin 8) (s : State), hasRail 2 rail.val = true →
    exec (.railInRange (.cell c) rail) s = .next { s with
    plant :=
      let p := s.plant.put (.cell c) K.pwrRails (setBit (s.plant.getN (.cell c) K.pwrRails) rail.val false : Nat)
      if rail.val = 7 then p.onPower (.cell c) (fun w => { w with rails := true }) else p }) ∧
  (∀ (q : Part) (rail : Fin 8) (s : State), hasRail q.kind rail.val = true → rail.val ≤ 4 → q.kind ≠ 2 →
    setBit (s.plant.getN q K.pwrRails) rail.val false % 128 ≠ 0 →
    exec (.railInRange q rail) s = .next { s with
    plant :=
      s.plant.put q K.pwrRails (setBit (s.plant.getN q K.pwrRails) rail.val false : Nat) }) ∧
  (∀ (q : Part) (rail : Fin 8) (s : State), hasRail q.kind rail.val = true → rail.val ≤ 4 → q.kind ≠ 2 →
    setBit (s.plant.getN q K.pwrRails) rail.val false % 128 = 0 →
    exec (.railInRange q rail) s = .next (State.partStart { s with
    plant :=
      (s.plant.put q K.pwrRails (setBit (s.plant.getN q K.pwrRails) rail.val false : Nat)).onPower q (fun w =>
        { w with rails := true }) } q)) ∧
  (∀ (ch : Fin 2) (rail : Fin 8) (s : State) (p : Plant), rail.val = 5 + ch.val → s.plant.up .cvc = true →
    s.plant.chState ch.val = 0 → setBit (s.plant.getN .cvc K.pwrRails) rail.val false % 128 ≠ 0 →
    p = (s.plant.put .cvc K.pwrRails (setBit (s.plant.getN .cvc K.pwrRails) rail.val false : Nat)).onPower .cvc (fun w =>
      { w with chLow := setBit w.chLow ch.val false }) →
    (if ch.val = 0 then (s.plant.node .cvc).power.pins.imageA else (s.plant.node .cvc).power.pins.imageB) = true →
    s.plant.c K.rindImageId ≠ 0 →
    exec (.railInRange .cvc rail) s = .next { s with
    plant := ((p.cPut (K.rindSaState + ch.val) 2).cPut (K.rindSaFault + ch.val) 0).showOut }) ∧
  (∀ (q : Part) (tenths : BitVec 16) (s : State), s.plant.up q = true → tenths.toInt ≤ 1050 →
    exec (.junctionTemperature q tenths) s = .next { s with
    plant :=
      (s.plant.put q K.pwrTj tenths.toInt).raiseMax q K.pwrTjMax tenths.toInt }) ∧
  (∀ (q : Part) (tenths : BitVec 16) (s : State), s.plant.up q = true → 1100 < s.plant.get q K.pwrTj →
    exec (.junctionTemperature q tenths) s = .next { s with
    plant :=
      (s.plant.put q K.pwrTj tenths.toInt).raiseMax q K.pwrTjMax tenths.toInt }) ∧
  (∀ (q : Part) (tenths : BitVec 16) (s : State), s.plant.up q = true → s.plant.get q K.pwrTj ≤ 1050 → 1050 < tenths.toInt →
    tenths.toInt ≤ 1100 →
    exec (.junctionTemperature q tenths) s = .next { s with
    plant :=
      ((s.plant.put q K.pwrTj tenths.toInt).raiseMax q K.pwrTjMax tenths.toInt).raise q (if q.kind = 0 then 124 else 4) 0 }) ∧
  (∀ (q : Part) (tenths : BitVec 16) (s : State), s.plant.up q = true → 1050 < s.plant.get q K.pwrTj →
    s.plant.get q K.pwrTj ≤ 1100 → 1100 < tenths.toInt →
    exec (.junctionTemperature q tenths) s = .next { s with
    plant :=
      ((s.plant.put q K.pwrTj tenths.toInt).raiseMax q K.pwrTjMax tenths.toInt).raise q (if q.kind = 0 then 125 else 5) 0 }) ∧
  (∀ (q : Part) (tenths : BitVec 16) (s : State), s.plant.up q = true → s.plant.get q K.pwrTj ≤ 1050 → 1100 < tenths.toInt →
    exec (.junctionTemperature q tenths) s = .next { s with
    plant :=
      (((s.plant.put q K.pwrTj tenths.toInt).raiseMax q K.pwrTjMax tenths.toInt).raise q (if q.kind = 0 then 124 else 4) 0).raise q
        (if q.kind = 0 then 125 else 5) 0 }) ∧
  (∀ (q : Part) (s : State), s.plant.up q = true →
    exec (.referenceClockLost q) s = .next { s with plant := s.plant.raise q (if q.kind = 0 then 121 else 1) 0 })

/-- Right after reset (16 R436, 05 R105): every object of every part reads its default, every part is held with its core down, no command
waits, and the memories are in canonical form.
The model's choices in it: log entries 2, 3, 11. -/
def Obligations.ResetState : Prop :=
  (∀ (q : Part) (key : Nat), State.reset.plant.get q key = objDefault q.node key) ∧
  (∀ (q : Part), State.reset.plant.up q = false ∧ (State.reset.plant.node q).power.held = true) ∧
  State.reset.pending = [] ∧ State.reset.sound = true

/-- The memories stay in canonical form: every step from a sound state gives a sound state.
The model's choices in it: log entry 2. -/
def Obligations.MemoriesStayCanonical : Prop :=
  ∀ (s t : State), s.sound = true → step s = .next t → t.sound = true

/-- Every command has an effect in every state, and leaves the commands that wait as they are. -/
def Obligations.CommandsAnswer : Prop :=
  ∀ (i : Instr) (s : State), ∃ t, exec i s = .next t ∧ t.pending = s.pending

/-- What an instruction of engine e stores to (05 R105): bytes outside the engine's own data memory, at 0x0001_0000, and shared engine
memory, at 0x1000_0000, stand; so the memories of every other engine do. -/
def Obligations.EngineStoresConfined : Prop :=
  ∀ (e : Eng) (s t : State) (a : Nat), exec (.rv32imafcInstruction e) s = .next t →
    ¬ (tcmKey e.val 0x10000 ≤ a ∧ a < tcmKey e.val 0x20000) → ¬ (0x10000000 ≤ a ∧ a < 0x10800000) →
    memByte t.mem a = memByte s.mem a

/-- Results stay in range (00 R13, 04 R82): a division rounds to the nearest with halves to the even; saturation gives the nearest value
of the range; a run of a loop keeps its setpoint, output and integrator within limits that are consistent. -/
def Obligations.ResultsStayInRange : Prop :=
  (∀ (n : Int) (d : Nat), 0 < d → 2 * (n - rdiv n d * d).natAbs ≤ d ∧ (2 * (n - rdiv n d * d).natAbs = d → rdiv n d % 2 = 0)) ∧
  (∀ (x : Int), (puMin ≤ x ∧ x ≤ puMax → satPU x = x) ∧ (x < puMin → satPU x = puMin) ∧ (puMax < x → satPU x = puMax)) ∧
  (∀ (par : List Int) (l : ArmLoop) (i : LoopIn), 0 ≤ min (parAt par 6) (parAt par 0x2C) → parAt par 0x12 ≤ parAt par 0x11 →
    parAt par 0x0B ≤ parAt par 0x0A → parAt par 0x0B ≤ l.integ → l.integ ≤ parAt par 0x0A →
    -(min (parAt par 6) (parAt par 0x2C)) ≤ (loopStep par l i).s ∧ (loopStep par l i).s ≤ min (parAt par 6) (parAt par 0x2C) ∧
    parAt par 0x12 ≤ (loopStep par l i).y ∧ (loopStep par l i).y ≤ parAt par 0x11 ∧
    parAt par 0x0B ≤ (loopStep par l i).integ ∧ (loopStep par l i).integ ≤ parAt par 0x0A)

/-- A YIELD of the owner (15 R415): with an open batch it is answered with 0x0402; otherwise SUCC = 0 leaves no owner, the yielder's own
RID acts as RENEW, and any other SUCC becomes the owner at the yielder's priority with a new lease, session or not. -/
def Obligations.YieldPassesOwnership : Prop :=
  ∀ (r : Req) (succ : BitVec 64) (s : State) (m : Msg) (x y z : Plant), m = .yield succ.toNat → s.plant.admits r m = true →
    x = s.plant.taken r m → x.owner = r.rid.toNat → y = x.setOwner 0 0 0xFF →
    z = (x.setOwner succ.toNat (x.c K.gdpOwnerPrio) 0xFF).newLease →
    exec (.yield r succ) s = .next { s with
    plant :=
      if x.c K.gdpBatchState = 1 then x.answer (echoOf r m) 0x0402 false x.ownerBody
      else if succ = 0 then y.answer (echoOf r m) 0 false y.ownerBody
      else if succ = r.rid then x.renew (echoOf r m)
      else z.answer (echoOf r m) 0 false z.ownerBody }

/-- How the SEQ of a request stands to its session (15 R411), whatever the request: a cached response is sent again with DUP set and
counted; a request still being carried is absorbed; a new one is executed, and its SEQ becomes H; any other is answered with 0x0602.
The first request of a session is new; a cache holds 16 responses; answers 0x0601 and 0x0602 are not cached.
The model's choices in it: log entry 59. -/
def Obligations.SessionsOrderRequests : Prop :=
  (∀ (i : Instr) (r : Req) (m : Msg) (s : State) (x : Plant) (y : Session), requestOf i = some (r, m) →
    s.plant.portServes r.port.val = true → r.rid ≠ 0 →
    (s.plant.dequeue (echoOf r m)).takeSession r.rid.toNat r.inc.toNat = some x → x.session r.rid.toNat = some y →
    (∀ old, y.cache.find? (fun z => z.seq == r.seq.toNat) = some old →
      exec i s = .next { s with plant := (x.sendMsg r.port.val { old with dup := true }).bump .cvc K.gdpDuplicates 1 }) ∧
    (y.cache.find? (fun z => z.seq == r.seq.toNat) = none → y.busy.contains r.seq.toNat = true →
      exec i s = .next { s with plant := x }) ∧
    (y.cache.find? (fun z => z.seq == r.seq.toNat) = none → y.busy.contains r.seq.toNat = false →
      (y.begun = false ∨ (1 ≤ (r.seq.toNat + 2 ^ 32 - y.hi) % 2 ^ 32 ∧ (r.seq.toNat + 2 ^ 32 - y.hi) % 2 ^ 32 ≤ 2 ^ 31 - 1)) →
      exec i s = .next ((({ s with plant := x.begin (echoOf r m) } : State).execute (echoOf r m) m).softAfter .cvc) ∧
      ((x.begin (echoOf r m)).session r.rid.toNat).map (·.hi) = some r.seq.toNat) ∧
    (y.cache.find? (fun z => z.seq == r.seq.toNat) = none → y.busy.contains r.seq.toNat = false → y.begun = true →
      ¬ (1 ≤ (r.seq.toNat + 2 ^ 32 - y.hi) % 2 ^ 32 ∧ (r.seq.toNat + 2 ^ 32 - y.hi) % 2 ^ 32 ≤ 2 ^ 31 - 1) →
      exec i s = .next { s with plant := ((x.bump .cvc K.gdpOutOfSeq 1).answerBare (echoOf r m) 0x0602).raise .cvc 3 0 })) ∧
  (∀ (rid inc : Nat), (freshSession rid inc).begun = false ∧ (freshSession rid inc).cache = [] ∧ (freshSession rid inc).busy = []) ∧
  (∀ (p : Plant) (e : Echo) (st : Nat) (more : Bool) (body : List Nat) (y : Session), p.session e.rid = some y → y.rid = e.rid →
    y.inc = e.inc →
    ((p.answer e st more body).session e.rid).map (·.cache) = some (({
      msg := e.msg, seq := e.seq, rid := e.rid, inc := e.inc, node := e.node, status := st, dup := false, more := more,
      body := body } :: y.cache).take 16)) ∧
  (∀ (p : Plant) (e : Echo) (st : Nat), (p.answerBare e st).cvc.gdp = p.cvc.gdp)

/-- Operands are copies (05 R117): VGET reads the copy that the running item received at its dispatch, and no deposit, of an item or of
hardware, changes what an engine runs. -/
def Obligations.OperandsAreCopies : Prop :=
  (∀ (e : Eng) (rd rs1 : RegNo) (s : State) (it : Item) (t : Nat), s.plant.up .cvc = true → s.plant.engRuns e = true →
    (s.plant.eng e).item = some it → t = s.plant.xReg e rs1.val % 8 → t < ctrlTags (s.plant.ctrlOf it.slot) →
    exec (.vget e rd rs1) s = .next { s with plant := (s.plant.setX e rd.val (nth it.ops t)).nextPc e 4 }) ∧
  (∀ (p : Plant) (src : Option Item) (cyc n t hEpoch v : Nat) (e : Eng),
    ((p.deposit src cyc n t hEpoch v).2.eng e).item = (p.eng e).item) ∧
  (∀ (p : Plant) (kind source cyc v : Nat) (e : Eng), ((p.hwDeposit kind source cyc v).eng e).item = (p.eng e).item)

/-- A command of INSERT_NEG, or of TRIM with negative polarity, to a half-bridge cell (06 R136): it is applied as BYPASS, sw.bad_cmd
counts it, and local source 23 is raised. -/
def Obligations.HalfBridgeNeverInsertsNegative : Prop :=
  ∀ (c : CellId) (f : Filed) (s : State) (p : Plant), s.plant.up (.cell c) = true → (s.plant.cell c).everLocked = true →
    s.plant.getN (.cell c) K.pwrState = 0 → s.plant.fired c = false → s.plant.htHeld c = false →
    ((s.plant.cell c).tripHold = false ∨ f.stale = false) → s.plant.getN (.cell c) K.swBench = 0 →
    (s.plant.cell c).filed.find? (fun x => x.k == (s.plant.cell c).applied + 1) = some f →
    fullBridge (s.plant.getN (.cell c) K.swType) = false → (f.cmd.state = 3 ∨ (f.cmd.state = 4 ∧ f.cmd.neg = true)) →
    p = (((s.plant.onCell c (fun e => { e with
        applied := (s.plant.cell c).applied + 1, filed := e.filed.filter (fun x => decide ((s.plant.cell c).applied + 1 < x.k)) })).put
      (.cell c) K.cycleInLoss 0).onCell c (fun e => { e with missRun := 0, hold := false, tripHold := false })) →
    ∃ t, exec (.applyInstant c) s = .next t ∧ t.plant.getN (.cell c) K.swState = 1 ∧
      t.plant = ((((p.bump (.cell c) K.swBadCmd 1).raise (.cell c) 23 0).setPlain c 1).onCell c (fun e => { e with
        cmd := f.cmd, cseq := ((s.plant.cell c).applied + 1) % 256, hasCmd := true }))

/-- A power-on reset, and RESET_N where it is not low already (16 R436): every object of class V or K reads its default again, what is
stored stays, and the records in the Cave stay. Left out are the objects that show a pin or a sensor, BYP_STAT of a cell, and, through
RESET_N, the always-on domain of a cell. -/
def Obligations.ResetsReturnDefaults : Prop :=
  (∀ (q : Part) (s : State) (key : Nat) (row : ObjRow), memberRow q.kind key = some row → (row.pers = .v ∨ row.pers = .k) →
    liveObj key = false → key ≠ K.bypStatus →
    ∃ t, exec (.powerOnReset q) s = .next t ∧ t.plant.up q = false ∧ t.plant.get q key = objDefault q.node key ∧
      (t.plant.node q).stored = (s.plant.node q).stored ∧ (t.plant.node q).cave.recs = (s.plant.node q).cave.recs) ∧
  (∀ (q : Part) (s : State) (key : Nat) (row : ObjRow), memberRow q.kind key = some row → (row.pers = .v ∨ row.pers = .k) →
    liveObj key = false → (q.kind ≠ 2 ∨ alwaysOn .pin key = false) → (s.plant.node q).power.held = false →
    ∃ t, exec (.resetNAssert q) s = .next t ∧ t.plant.up q = false ∧ t.plant.get q key = objDefault q.node key ∧
      (t.plant.node q).stored = (s.plant.node q).stored ∧ (t.plant.node q).cave.recs = (s.plant.node q).cave.recs)

/-- A frame that a hop forwards, with whatever header and data it then has (09 R246): it leaves good when it came good, and stomped when it
came stomped or bad; FBH stays, but names the hop that first finds the check bad. A frame that a part makes is good, with FBH 0xFF. -/
def Obligations.ForwardedFramesKeepTheirCheck : Prop :=
  (∀ (hop : Nat) (f : Frame) (hdr : Header) (data : List Block),
    (chkState f = .good → chkState (forwardFrame hop f hdr data) = .good ∧ (forwardFrame hop f hdr data).fbh = f.fbh) ∧
    (chkState f = .stomped → chkState (forwardFrame hop f hdr data) = .stomped ∧ (forwardFrame hop f hdr data).fbh = f.fbh) ∧
    (chkState f = .bad → chkState (forwardFrame hop f hdr data) = .stomped ∧
      (forwardFrame hop f hdr data).fbh = if f.fbh = 0xFF then BitVec.ofNat 8 hop else f.fbh)) ∧
  (∀ (hdr : Nat) (data : List Nat), chkState (mkFrame hdr data) = .good ∧ (mkFrame hdr data).fbh = 0xFF)

/-- What is sent is read back (08 R205, 09 R233): a PLAN with every field within its width passes its check and is read as sent, and so
are the slot of a command that is not TRIM and that of a TRIM. -/
def Obligations.PlansAndCommandsReadBack : Prop :=
  (∀ (v : PlanV) (rst : Bool) (seq pseq : Nat) (clears : List Nat), v.a < 64 → v.b < 64 → v.lh < 64 → v.lt < 64 → v.form < 4 →
    seq < 256 → pseq < 16 →
    osGood (osPlan v rst seq pseq) = true ∧ bits (osPlan v rst seq pseq).toNat 55 52 = 2 ∧
    planRx (osPlan v rst seq pseq) clears =
      {
        a := v.a, b := v.b, brk := v.brk, rst := rst, lh := v.lh, lt := v.lt, seq := seq, form := v.form, pseq := pseq,
        clears := clears, fresh := true }) ∧
  (∀ (m : Cmd) (seq k : Nat), seq < 256 → m.state < 4 →
    slotCmd (cmdSlot seq m) k = { state := m.state, neg := false, ph := false, duty := 0, period := 0, k := k } ∧
    slotValid (cmdSlot seq m) seq = true) ∧
  (∀ (m : Cmd) (seq k : Nat), seq < 256 → m.state = 4 → m.duty < 65536 → 1000 ≤ m.period → m.period ≤ 100000 →
    slotCmd (cmdSlot seq m) k = { m with k := k } ∧ slotValid (cmdSlot seq m) seq = true)

/-- A lane's training or exit, a store sequence or a record (07 R172, R176), in any state but BOOT: either the request is refused and
counted, and nothing more is committed, or its cost is committed and what is then free is not below 0. -/
def Obligations.GrantsLeaveTheReserve : Prop :=
  ∀ (c : CellId) (act : Fin 8) (s : State), 1 ≤ act.val → act.val ≤ 6 → s.plant.getN (.cell c) K.nrgState ≠ 1 →
    ∃ t, exec (.activityRequest c act) s = .next t ∧
      (((t.plant.cell c).led.holds = (s.plant.cell c).led.holds ∧
          t.plant.get (.cell c) K.nrgRefused = satAdd (objWidth (.cell c) K.nrgRefused) (s.plant.get (.cell c) K.nrgRefused) 1) ∨
        ((t.plant.cell c).led.holds = act.val :: (s.plant.cell c).led.holds ∧ 0 ≤ t.plant.freeEnergy c))

/-- A cell controller's own switching, measurement, protection and firing touches nothing of the station but that cell: not the CVC, no
hub, no other cell, no memory, no clock. -/
def Obligations.CellEventsStayInTheirCell : Prop :=
  ∀ (i : Instr) (c : CellId) (s t : State), ownCell i = some c → exec i s = .next t →
    Plant.OnlyCell c s.plant t.plant ∧ t.mem = s.mem
end

