-- ==== Sys2Proof/Laws/Tab.lean ====
section
/-! SUPPORT. Laws of sparse tables: a read after a write, other keys stand, and the canonical form is kept. -/

namespace Sys2Proof.Machine

variable {β : Type}

theorem Tab.get_erase_other (d : Nat → β) (t : Tab β) {k j : Nat} (h : j ≠ k) :
    Tab.get d (Tab.erase t k) j = Tab.get d t j := by
  induction t with
  | nil => rfl
  | cons e t ih =>
    simp only [Tab.erase] at ih ⊢
    by_cases he : e.1 = k
    · have : ¬ e.1 = j := fun x => h (x ▸ he)
      simp [List.filter, he, Tab.get, ih, this, Ne.symm h]
    · have hb : (!(e.1 == k)) = true := by simp [he]
      simp [List.filter_cons, hb, Tab.get, ih]

theorem Tab.get_erase_self (d : Nat → β) (t : Tab β) (k : Nat) : Tab.get d (Tab.erase t k) k = d k := by
  induction t with
  | nil => rfl
  | cons e t ih =>
    simp only [Tab.erase] at ih ⊢
    by_cases he : e.1 = k
    · simp [List.filter_cons, he, ih]
    · have hb : (!(e.1 == k)) = true := by simp [he]
      simp [List.filter_cons, hb, Tab.get, ih, he]

theorem Tab.get_ins_other (d : Nat → β) (t : Tab β) {k j : Nat} (v : β) (h : j ≠ k) :
    Tab.get d (Tab.ins k v t) j = Tab.get d t j := by
  induction t with
  | nil => simp [Tab.ins, Tab.get, Ne.symm h]
  | cons e t ih =>
    simp only [Tab.ins]
    split
    · simp [Tab.get, Ne.symm h]
    · simp [Tab.get, ih]

theorem Tab.get_ins_erase (d : Nat → β) (t : Tab β) (k : Nat) (v : β) :
    Tab.get d (Tab.ins k v (Tab.erase t k)) k = v := by
  induction t with
  | nil => simp [Tab.erase, Tab.ins, Tab.get]
  | cons e t ih =>
    simp only [Tab.erase] at ih ⊢
    by_cases he : e.1 = k
    · simp [List.filter_cons, he, ih]
    · have hb : (!(e.1 == k)) = true := by simp [he]
      simp only [List.filter_cons, hb, if_true, Tab.ins]
      split
      · simp [Tab.get]
      · simp [Tab.get, he, ih]

variable [DecidableEq β]

@[simp] theorem Tab.get_set_self (d : Nat → β) (t : Tab β) (k : Nat) (v : β) : Tab.get d (Tab.set d t k v) k = v := by
  unfold Tab.set
  split
  · rename_i h
    rw [Tab.get_erase_self, h]
  · exact Tab.get_ins_erase d t k v

theorem Tab.get_set_other (d : Nat → β) (t : Tab β) {k j : Nat} (v : β) (h : j ≠ k) :
    Tab.get d (Tab.set d t k v) j = Tab.get d t j := by
  unfold Tab.set
  split
  · exact Tab.get_erase_other d t h
  · rw [Tab.get_ins_other d _ v h, Tab.get_erase_other d t h]

theorem Tab.get_set (d : Nat → β) (t : Tab β) (k j : Nat) (v : β) :
    Tab.get d (Tab.set d t k v) j = if j = k then v else Tab.get d t j := by
  split
  · subst_vars
    exact Tab.get_set_self d t _ v
  · exact Tab.get_set_other d t v ‹_›

@[simp] theorem Tab.get_upd_self (d : Nat → β) (t : Tab β) (k : Nat) (f : β → β) :
    Tab.get d (Tab.upd d t k f) k = f (Tab.get d t k) := Tab.get_set_self ..

theorem Tab.get_upd_other (d : Nat → β) (t : Tab β) {k j : Nat} (f : β → β) (h : j ≠ k) :
    Tab.get d (Tab.upd d t k f) j = Tab.get d t j := Tab.get_set_other d t _ h

/-! ### The canonical form -/

/-- The order of a table as the library states it. -/
theorem Tab.sorted_iff (t : Tab β) : Tab.sorted t = true ↔ t.Pairwise (fun a b => a.1 < b.1) := by
  induction t with
  | nil => simp [Tab.sorted]
  | cons a t ih =>
    cases t with
    | nil => simp [Tab.sorted]
    | cons b t =>
      simp only [Tab.sorted, Bool.and_eq_true, decide_eq_true_eq, ih, List.pairwise_cons]
      constructor
      · rintro ⟨h, hb, ht⟩
        refine ⟨?_, hb, ht⟩
        intro x hx
        rcases List.mem_cons.1 hx with rfl | hx
        · exact h
        · exact lt_trans h (hb x hx)
      · rintro ⟨h, hb, ht⟩
        exact ⟨h b (List.mem_cons_self ..), hb, ht⟩

theorem Tab.wf_iff (d : Nat → β) (t : Tab β) :
    Tab.wf d t = true ↔ t.Pairwise (fun a b => a.1 < b.1) ∧ ∀ e ∈ t, e.2 ≠ d e.1 := by
  simp [Tab.wf, Tab.sorted_iff]

theorem Tab.wf_filter (d : Nat → β) (t : Tab β) (p : Nat × β → Bool) (h : Tab.wf d t = true) :
    Tab.wf d (t.filter p) = true := by
  rw [Tab.wf_iff] at h ⊢
  exact ⟨h.1.filter p, fun e he => h.2 e (List.mem_filter.1 he).1⟩

theorem Tab.wf_erase (d : Nat → β) (t : Tab β) (k : Nat) (h : Tab.wf d t = true) : Tab.wf d (Tab.erase t k) = true :=
  Tab.wf_filter d t _ h

theorem Tab.mem_ins (t : Tab β) (k : Nat) (v : β) (e : Nat × β) : e ∈ Tab.ins k v t ↔ e = (k, v) ∨ e ∈ t := by
  induction t with
  | nil => simp [Tab.ins]
  | cons a t ih =>
    simp only [Tab.ins]
    split
    · simp
    · simp only [List.mem_cons, ih]
      tauto

theorem Tab.wf_ins (d : Nat → β) (t : Tab β) (k : Nat) (v : β) (h : Tab.wf d t = true) (hv : v ≠ d k)
    (hk : ∀ e ∈ t, e.1 ≠ k) : Tab.wf d (Tab.ins k v t) = true := by
  rw [Tab.wf_iff] at h ⊢
  refine ⟨?_, ?_⟩
  · obtain ⟨hs, -⟩ := h
    induction t with
    | nil => simp [Tab.ins]
    | cons a t ih =>
      simp only [Tab.ins]
      rw [List.pairwise_cons] at hs
      split
      · rename_i hlt
        rw [List.pairwise_cons, List.pairwise_cons]
        refine ⟨?_, hs⟩
        intro x hx
        rcases List.mem_cons.1 hx with rfl | hx
        · exact hlt
        · exact lt_trans hlt (hs.1 x hx)
      · rename_i hge
        rw [List.pairwise_cons]
        refine ⟨?_, ih (fun e he => hk e (List.mem_cons_of_mem _ he)) hs.2⟩
        intro x hx
        rcases (Tab.mem_ins t k v x).1 hx with rfl | hx
        · exact lt_of_le_of_ne (not_lt.1 hge) (hk a (List.mem_cons_self ..))
        · exact hs.1 x hx
  · intro e he
    rcases (Tab.mem_ins t k v e).1 he with rfl | he
    · exact hv
    · exact h.2 e he

/-- A write keeps the canonical form. -/
theorem Tab.wf_set (d : Nat → β) (t : Tab β) (k : Nat) (v : β) (h : Tab.wf d t = true) :
    Tab.wf d (Tab.set d t k v) = true := by
  unfold Tab.set
  split
  · exact Tab.wf_erase d t k h
  · refine Tab.wf_ins d _ k v (Tab.wf_erase d t k h) ‹_› ?_
    intro e he
    have := (List.mem_filter.1 he).2
    simpa using this

end Sys2Proof.Machine
end

