-- ==== Sys2Proof/Laws/State.lean ====
section
/-! SUPPORT. What each update of State and Plant leaves and sets, field by field, and reads after writes of a part's record, of an
object, of a DOMAIN, of a hub, of a cell and of a lane end. -/

namespace Sys2Proof.Machine

/-! ### Addresses -/

/-- The node address names the part (15 R399). -/
theorem node_inj {q r : Part} : q.node = r.node ↔ q = r := by
  refine ⟨?_, fun h => h ▸ rfl⟩
  cases q with
  | cvc => cases r <;> simp [Part.node] <;> omega
  | hub a => cases r with
    | cvc => simp [Part.node]
    | hub b =>
      simp only [Part.node]
      intro h
      have : a = b := Fin.ext (by omega)
      rw [this]
    | cell c =>
      have := a.isLt
      simp only [Part.node]
      omega
  | cell c => cases r with
    | cvc => simp [Part.node]
    | hub b =>
      have := b.isLt
      simp only [Part.node]
      omega
    | cell d =>
      obtain ⟨⟨s, hs⟩, ⟨k, hk⟩⟩ := c
      obtain ⟨⟨s', hs'⟩, ⟨k', hk'⟩⟩ := d
      simp only [Part.node, cellNum]
      intro h
      have h1 : s = s' := by omega
      have h2 : k = k' := by omega
      subst h1 h2
      rfl

/-- The cell identifier names the cell. -/
theorem cellNum_inj {c d : CellId} : cellNum c = cellNum d ↔ c = d := by
  refine ⟨fun h => ?_, fun h => h ▸ rfl⟩
  obtain ⟨⟨s, hs⟩, ⟨k, hk⟩⟩ := c
  obtain ⟨⟨s', hs'⟩, ⟨k', hk'⟩⟩ := d
  simp only [cellNum] at h
  have h1 : s = s' := by omega
  have h2 : k = k' := by omega
  subst h1 h2
  rfl

/-- A part's address leads back to the part (15 R399). -/
theorem partOf_node (q : Part) : partOf q.node = some q := by
  cases q with
  | cvc => rfl
  | hub h =>
    have := h.isLt
    simp [Part.node, partOf, this]
  | cell c =>
    obtain ⟨⟨s, hs⟩, ⟨k, hk⟩⟩ := c
    have hn : (Part.cell ⟨⟨s, hs⟩, ⟨k, hk⟩⟩).node = 4096 + (s * 64 + k) := rfl
    have h1 : (4096 + (s * 64 + k) - 4096) / 64 = s := by omega
    have h2 : (4096 + (s * 64 + k) - 4096) % 64 = k := by omega
    rw [hn]
    unfold partOf
    rw [if_neg (by omega), dif_neg (by omega), if_pos (by omega), h1, h2, cellAt, dif_pos ⟨hs, hk⟩]
    rfl

/-! ### State -/

@[simp] theorem State.on_eq (s : State) (f : Plant → Plant) : s.on f = .next { s with plant := f s.plant } := rfl

/-- A command at a part whose core runs. -/
theorem State.onUp_up {s : State} {q : Part} (f : Plant → Plant) (h : s.plant.up q = true) :
    s.onUp q f = .next { s with plant := f s.plant } := by simp [State.onUp, h]

/-- A command at a part held in reset does nothing (16 R434). -/
theorem State.onUp_down {s : State} {q : Part} (f : Plant → Plant) (h : s.plant.up q = false) : s.onUp q f = .next s := by
  simp [State.onUp, h]

@[simp] theorem State.idle_mem (s : State) : s.idle.mem = s.mem := rfl
@[simp] theorem State.idle_pending (s : State) : s.idle.pending = s.pending := rfl
@[simp] theorem State.idle_tick (s : State) : s.idle.plant.tick = s.plant.tick + 1 := rfl
@[simp] theorem State.idle_nodes (s : State) : s.idle.plant.nodes = s.plant.nodes := rfl
@[simp] theorem State.idle_cvc (s : State) : s.idle.plant.cvc = s.plant.cvc := rfl

/-! ### A part's record -/

variable (p : Plant) (q r : Part)

theorem Plant.node_setNode (n : Node) : (p.setNode q n).node r = if r = q then n else p.node r := by
  simp [Plant.node, Plant.setNode, Tab.get_set, node_inj]

@[simp] theorem Plant.node_setNode_self (n : Node) : (p.setNode q n).node q = n := by simp [Plant.node_setNode]
@[simp] theorem Plant.setNode_cvc (n : Node) : (p.setNode q n).cvc = p.cvc := rfl
@[simp] theorem Plant.setNode_hubs (n : Node) : (p.setNode q n).hubs = p.hubs := rfl
@[simp] theorem Plant.setNode_cells (n : Node) : (p.setNode q n).cells = p.cells := rfl
@[simp] theorem Plant.setNode_tick (n : Node) : (p.setNode q n).tick = p.tick := rfl
@[simp] theorem Plant.setNode_freeCtr (n : Node) : (p.setNode q n).freeCtr = p.freeCtr := rfl

theorem Plant.node_onNode (f : Node → Node) : (p.onNode q f).node r = if r = q then f (p.node q) else p.node r :=
  Plant.node_setNode ..

@[simp] theorem Plant.node_onNode_self (f : Node → Node) : (p.onNode q f).node q = f (p.node q) :=
  Plant.node_setNode_self ..
@[simp] theorem Plant.onNode_cvc (f : Node → Node) : (p.onNode q f).cvc = p.cvc := rfl
@[simp] theorem Plant.onNode_hubs (f : Node → Node) : (p.onNode q f).hubs = p.hubs := rfl
@[simp] theorem Plant.onNode_cells (f : Node → Node) : (p.onNode q f).cells = p.cells := rfl
@[simp] theorem Plant.onNode_tick (f : Node → Node) : (p.onNode q f).tick = p.tick := rfl
@[simp] theorem Plant.onNode_freeCtr (f : Node → Node) : (p.onNode q f).freeCtr = p.freeCtr := rfl
@[simp] theorem Plant.onNode_hub (f : Node → Node) (n : Fin 8) : (p.onNode q f).hub n = p.hub n := rfl
@[simp] theorem Plant.onNode_cell (f : Node → Node) (c : CellId) : (p.onNode q f).cell c = p.cell c := rfl

/-! ### The CVC's own record, hubs and cells -/

@[simp] theorem Plant.onCvc_cvc (f : Cvc → Cvc) : (p.onCvc f).cvc = f p.cvc := rfl
@[simp] theorem Plant.onCvc_nodes (f : Cvc → Cvc) : (p.onCvc f).nodes = p.nodes := rfl
@[simp] theorem Plant.onCvc_hubs (f : Cvc → Cvc) : (p.onCvc f).hubs = p.hubs := rfl
@[simp] theorem Plant.onCvc_cells (f : Cvc → Cvc) : (p.onCvc f).cells = p.cells := rfl
@[simp] theorem Plant.onCvc_tick (f : Cvc → Cvc) : (p.onCvc f).tick = p.tick := rfl
@[simp] theorem Plant.onCvc_freeCtr (f : Cvc → Cvc) : (p.onCvc f).freeCtr = p.freeCtr := rfl
@[simp] theorem Plant.onCvc_node (f : Cvc → Cvc) : (p.onCvc f).node q = p.node q := rfl
@[simp] theorem Plant.onCvc_up (f : Cvc → Cvc) : (p.onCvc f).up q = p.up q := rfl
@[simp] theorem Plant.onCvc_get (f : Cvc → Cvc) (key : Nat) : (p.onCvc f).get q key = p.get q key := rfl
@[simp] theorem Plant.onCvc_getN (f : Cvc → Cvc) (key : Nat) : (p.onCvc f).getN q key = p.getN q key := rfl
@[simp] theorem Plant.onCvc_c (f : Cvc → Cvc) (key : Nat) : (p.onCvc f).c key = p.c key := rfl
@[simp] theorem Plant.onCvc_hub (f : Cvc → Cvc) (n : Fin 8) : (p.onCvc f).hub n = p.hub n := rfl
@[simp] theorem Plant.onCvc_cell (f : Cvc → Cvc) (c : CellId) : (p.onCvc f).cell c = p.cell c := rfl

theorem Plant.hub_onHub (a b : Fin 8) (f : Hub → Hub) : (p.onHub a f).hub b = if b = a then f (p.hub a) else p.hub b := by
  simp only [Plant.hub, Plant.onHub, Tab.upd, Tab.get_set, Fin.ext_iff]

@[simp] theorem Plant.hub_onHub_self (a : Fin 8) (f : Hub → Hub) : (p.onHub a f).hub a = f (p.hub a) := by
  simp [Plant.hub_onHub]
@[simp] theorem Plant.onHub_cvc (a : Fin 8) (f : Hub → Hub) : (p.onHub a f).cvc = p.cvc := rfl
@[simp] theorem Plant.onHub_cells (a : Fin 8) (f : Hub → Hub) : (p.onHub a f).cells = p.cells := rfl
@[simp] theorem Plant.onHub_freeCtr (a : Fin 8) (f : Hub → Hub) : (p.onHub a f).freeCtr = p.freeCtr := rfl
@[simp] theorem Plant.onHub_tick (a : Fin 8) (f : Hub → Hub) : (p.onHub a f).tick = p.tick := rfl
@[simp] theorem Plant.onHub_node (a : Fin 8) (f : Hub → Hub) : (p.onHub a f).node q = p.node q := rfl
@[simp] theorem Plant.onHub_up (a : Fin 8) (f : Hub → Hub) : (p.onHub a f).up q = p.up q := rfl
@[simp] theorem Plant.onHub_get (a : Fin 8) (f : Hub → Hub) (key : Nat) : (p.onHub a f).get q key = p.get q key := rfl
@[simp] theorem Plant.onHub_getN (a : Fin 8) (f : Hub → Hub) (key : Nat) : (p.onHub a f).getN q key = p.getN q key := rfl
@[simp] theorem Plant.onHub_c (a : Fin 8) (f : Hub → Hub) (key : Nat) : (p.onHub a f).c key = p.c key := rfl
@[simp] theorem Plant.onHub_cell (a : Fin 8) (f : Hub → Hub) (c : CellId) : (p.onHub a f).cell c = p.cell c := rfl

theorem Plant.cell_onCell (a b : CellId) (f : Cell → Cell) :
    (p.onCell a f).cell b = if b = a then f (p.cell a) else p.cell b := by
  simp only [Plant.cell, Plant.onCell, Tab.upd, Tab.get_set, cellNum_inj]

@[simp] theorem Plant.cell_onCell_self (a : CellId) (f : Cell → Cell) : (p.onCell a f).cell a = f (p.cell a) := by
  simp [Plant.cell_onCell]
@[simp] theorem Plant.onCell_cvc (a : CellId) (f : Cell → Cell) : (p.onCell a f).cvc = p.cvc := rfl
@[simp] theorem Plant.onCell_hubs (a : CellId) (f : Cell → Cell) : (p.onCell a f).hubs = p.hubs := rfl
@[simp] theorem Plant.onCell_freeCtr (a : CellId) (f : Cell → Cell) : (p.onCell a f).freeCtr = p.freeCtr := rfl
@[simp] theorem Plant.onCell_tick (a : CellId) (f : Cell → Cell) : (p.onCell a f).tick = p.tick := rfl
@[simp] theorem Plant.onCell_node (a : CellId) (f : Cell → Cell) : (p.onCell a f).node q = p.node q := rfl
@[simp] theorem Plant.onCell_up (a : CellId) (f : Cell → Cell) : (p.onCell a f).up q = p.up q := rfl
@[simp] theorem Plant.onCell_get (a : CellId) (f : Cell → Cell) (key : Nat) : (p.onCell a f).get q key = p.get q key := rfl
@[simp] theorem Plant.onCell_getN (a : CellId) (f : Cell → Cell) (key : Nat) : (p.onCell a f).getN q key = p.getN q key := rfl
@[simp] theorem Plant.onCell_c (a : CellId) (f : Cell → Cell) (key : Nat) : (p.onCell a f).c key = p.c key := rfl
@[simp] theorem Plant.onCell_hub (a : CellId) (f : Cell → Cell) (n : Fin 8) : (p.onCell a f).hub n = p.hub n := rfl

/-! ### Objects -/

theorem Plant.get_put (key k : Nat) (v : Int) :
    (p.put q key v).get r k = if r = q ∧ k = key then v else p.get r k := by
  simp only [Plant.get, Plant.put, Plant.node_onNode]
  by_cases h : r = q
  · subst h
    simp [Tab.get_set]
  · simp [h]

@[simp] theorem Plant.get_put_self (key : Nat) (v : Int) : (p.put q key v).get q key = v := by simp [Plant.get_put]

theorem Plant.getN_put (key k : Nat) (v : Int) :
    (p.put q key v).getN r k = if r = q ∧ k = key then v.toNat else p.getN r k := by
  simp only [Plant.getN, Plant.get_put]
  split <;> rfl

@[simp] theorem Plant.getN_put_self (key : Nat) (v : Int) : (p.put q key v).getN q key = v.toNat := by simp [Plant.getN_put]

@[simp] theorem Plant.put_up (key : Nat) (v : Int) : (p.put q key v).up r = p.up r := by
  simp only [Plant.up, Plant.put, Plant.node_onNode]
  split
  · subst_vars
    rfl
  · rfl

@[simp] theorem Plant.put_power (key : Nat) (v : Int) : ((p.put q key v).node r).power = (p.node r).power := by
  simp only [Plant.put, Plant.node_onNode]
  split
  · subst_vars
    rfl
  · rfl

@[simp] theorem Plant.put_sched (key : Nat) (v : Int) : ((p.put q key v).node r).sched = (p.node r).sched := by
  simp only [Plant.put, Plant.node_onNode]
  split
  · subst_vars
    rfl
  · rfl

@[simp] theorem Plant.put_clock (key : Nat) (v : Int) : ((p.put q key v).node r).clock = (p.node r).clock := by
  simp only [Plant.put, Plant.node_onNode]
  split
  · subst_vars
    rfl
  · rfl

@[simp] theorem Plant.put_lane (key : Nat) (v : Int) (l : Nat) : (p.put q key v).lane r l = p.lane r l := by
  simp only [Plant.lane, Plant.put, Plant.node_onNode]
  split
  · subst_vars
    rfl
  · rfl

@[simp] theorem Plant.put_cvc (key : Nat) (v : Int) : (p.put q key v).cvc = p.cvc := rfl
@[simp] theorem Plant.put_hub (key : Nat) (v : Int) (n : Fin 8) : (p.put q key v).hub n = p.hub n := rfl
@[simp] theorem Plant.put_cell (key : Nat) (v : Int) (c : CellId) : (p.put q key v).cell c = p.cell c := rfl
@[simp] theorem Plant.put_tick (key : Nat) (v : Int) : (p.put q key v).tick = p.tick := rfl
@[simp] theorem Plant.put_hubs (key : Nat) (v : Int) : (p.put q key v).hubs = p.hubs := rfl
@[simp] theorem Plant.put_cells (key : Nat) (v : Int) : (p.put q key v).cells = p.cells := rfl
@[simp] theorem Plant.put_freeCtr (key : Nat) (v : Int) : (p.put q key v).freeCtr = p.freeCtr := rfl

@[simp] theorem Plant.cPut_cvc (key : Nat) (v : Int) : (p.cPut key v).cvc = p.cvc := rfl
@[simp] theorem Plant.cPut_tick (key : Nat) (v : Int) : (p.cPut key v).tick = p.tick := rfl
@[simp] theorem Plant.cPut_hub (key : Nat) (v : Int) (n : Fin 8) : (p.cPut key v).hub n = p.hub n := rfl
@[simp] theorem Plant.cPut_cell (key : Nat) (v : Int) (c : CellId) : (p.cPut key v).cell c = p.cell c := rfl
@[simp] theorem Plant.cPut_up (key : Nat) (v : Int) : (p.cPut key v).up r = p.up r := Plant.put_up ..
@[simp] theorem Plant.cPut_power (key : Nat) (v : Int) : ((p.cPut key v).node r).power = (p.node r).power := Plant.put_power ..
@[simp] theorem Plant.c_cPut_self (key : Nat) (v : Int) : (p.cPut key v).c key = v.toNat := Plant.getN_put_self ..

theorem Plant.c_cPut (key k : Nat) (v : Int) : (p.cPut key v).c k = if k = key then v.toNat else p.c k := by
  simp [Plant.c, Plant.cPut, Plant.getN_put]

@[simp] theorem Plant.bump_cvc (key n : Nat) : (p.bump q key n).cvc = p.cvc := rfl
@[simp] theorem Plant.bump_tick (key n : Nat) : (p.bump q key n).tick = p.tick := rfl
@[simp] theorem Plant.bump_hub (key n : Nat) (h : Fin 8) : (p.bump q key n).hub h = p.hub h := rfl
@[simp] theorem Plant.bump_cell (key n : Nat) (c : CellId) : (p.bump q key n).cell c = p.cell c := rfl
@[simp] theorem Plant.bump_freeCtr (key n : Nat) : (p.bump q key n).freeCtr = p.freeCtr := rfl
@[simp] theorem Plant.bump_clock (key n : Nat) : ((p.bump q key n).node r).clock = (p.node r).clock := Plant.put_clock ..
@[simp] theorem Plant.bump_up (key n : Nat) : (p.bump q key n).up r = p.up r := Plant.put_up ..
@[simp] theorem Plant.bump_power (key n : Nat) : ((p.bump q key n).node r).power = (p.node r).power := Plant.put_power ..
@[simp] theorem Plant.bump_sched (key n : Nat) : ((p.bump q key n).node r).sched = (p.node r).sched := Plant.put_sched ..
@[simp] theorem Plant.bump_lane (key n l : Nat) : (p.bump q key n).lane r l = p.lane r l := Plant.put_lane ..

theorem Plant.get_bump (key k n : Nat) : (p.bump q key n).get r k =
    if r = q ∧ k = key then satAdd (objWidth q key) (p.get q key) n else p.get r k := Plant.get_put ..

theorem Plant.getN_bump (key k n : Nat) : (p.bump q key n).getN r k =
    if r = q ∧ k = key then (satAdd (objWidth q key) (p.get q key) n).toNat else p.getN r k := by
  simp only [Plant.getN, Plant.get_bump]
  split <;> rfl

@[simp] theorem Plant.putBlob_cvc (key : Nat) (v : List Nat) : (p.putBlob q key v).cvc = p.cvc := rfl
@[simp] theorem Plant.putBlob_tick (key : Nat) (v : List Nat) : (p.putBlob q key v).tick = p.tick := rfl
@[simp] theorem Plant.putBlob_power (key : Nat) (v : List Nat) :
    ((p.putBlob q key v).node r).power = (p.node r).power := by
  simp only [Plant.putBlob, Plant.node_onNode]
  split
  · subst_vars
    rfl
  · rfl

@[simp] theorem Plant.blob_putBlob_self (key : Nat) (v : List Nat) : (p.putBlob q key v).blob q key = v := by
  simp [Plant.blob, Plant.putBlob]

/-! ### Lane ends -/

theorem Plant.lane_onLane (l m : Nat) (f : Lane → Lane) :
    (p.onLane q l f).lane r m = if r = q ∧ m = l then f (p.lane q l) else p.lane r m := by
  simp only [Plant.lane, Plant.onLane, Plant.node_onNode]
  by_cases h : r = q
  · subst h
    simp [Tab.upd, Tab.get_set]
  · simp [h]

@[simp] theorem Plant.lane_onLane_self (l : Nat) (f : Lane → Lane) : (p.onLane q l f).lane q l = f (p.lane q l) := by
  simp [Plant.lane_onLane]
@[simp] theorem Plant.onLane_cvc (l : Nat) (f : Lane → Lane) : (p.onLane q l f).cvc = p.cvc := rfl
@[simp] theorem Plant.onLane_hub (l : Nat) (f : Lane → Lane) (h : Fin 8) : (p.onLane q l f).hub h = p.hub h := rfl
@[simp] theorem Plant.onLane_cell (l : Nat) (f : Lane → Lane) (c : CellId) : (p.onLane q l f).cell c = p.cell c := rfl
@[simp] theorem Plant.onLane_tick (l : Nat) (f : Lane → Lane) : (p.onLane q l f).tick = p.tick := rfl
@[simp] theorem Plant.onLane_get (l : Nat) (f : Lane → Lane) (key : Nat) : (p.onLane q l f).get r key = p.get r key := by
  simp only [Plant.get, Plant.onLane, Plant.node_onNode]
  split
  · subst_vars
    rfl
  · rfl

@[simp] theorem Plant.onLane_getN (l : Nat) (f : Lane → Lane) (key : Nat) : (p.onLane q l f).getN r key = p.getN r key := by
  simp [Plant.getN]

@[simp] theorem Plant.onLane_c (l : Nat) (f : Lane → Lane) (key : Nat) : (p.onLane q l f).c key = p.c key := by
  simp [Plant.c]

@[simp] theorem Plant.onLane_laneUp (l m : Nat) (f : Lane → Lane) : (p.onLane q l f).laneUp r m = p.laneUp r m := by
  simp [Plant.laneUp, Plant.laneState]

@[simp] theorem Plant.onLane_up (l : Nat) (f : Lane → Lane) : (p.onLane q l f).up r = p.up r := by
  simp only [Plant.up, Plant.onLane, Plant.node_onNode]
  split
  · subst_vars
    rfl
  · rfl

/-! ### Free values -/

@[simp] theorem Plant.free_fst : p.free.1 = Config.freeNat p.freeCtr := rfl
@[simp] theorem Plant.free_cvc : p.free.2.cvc = p.cvc := rfl
@[simp] theorem Plant.free_node : p.free.2.node q = p.node q := rfl
@[simp] theorem Plant.free_freeCtr : p.free.2.freeCtr = p.freeCtr + 1 := rfl

end Sys2Proof.Machine
end

