-- ==== Sys2Proof/Laws/Raise.lean ====
section
/-! SUPPORT. What raising a fault, making a record, a trip decision and a transition of the converter never touch (12 R337–R350, 11 R306,
02 R43): they change objects, the Cave's queue, fault timers, frames that wait on lanes, the CVC's pending transitions, its Rind, and
the capture and the ledger's commitments of the raising cell, and nothing else. -/

namespace Sys2Proof.Machine

/-- What a raise may change of a part's record is left out. -/
def Node.still (n : Node) : Node :=
  { n with objs := [], blobs := [], cave := default, faults := default, lanes := [] }

/-- What a raise may change of the CVC's record is left out. -/
def Cvc.still (c : Cvc) : Cvc := { c with acqEv := [], conv := default, rind := default }

/-- What a raise may change of a cell controller is left out. -/
def Cell.still (c : Cell) : Cell := { c with cap := default, led := { c.led with holds := [] } }

/-- p' differs from p at most where a raise acts. -/
structure Plant.Quiet (p p' : Plant) : Prop where
  tick : p'.tick = p.tick
  freeCtr : p'.freeCtr = p.freeCtr
  hubs : p'.hubs = p.hubs
  node : ∀ r, (p'.node r).still = (p.node r).still
  cvc : p'.cvc.still = p.cvc.still
  cell : ∀ c, (p'.cell c).still = (p.cell c).still

namespace Plant.Quiet

variable {p p' p'' : Plant} {q : Part}

theorem refl (p : Plant) : Plant.Quiet p p := ⟨rfl, rfl, rfl, fun _ => rfl, rfl, fun _ => rfl⟩

theorem trans (h : Plant.Quiet p p') (h' : Plant.Quiet p' p'') : Plant.Quiet p p'' :=
  ⟨h'.tick.trans h.tick, h'.freeCtr.trans h.freeCtr, h'.hubs.trans h.hubs, fun r => (h'.node r).trans (h.node r),
   h'.cvc.trans h.cvc, fun c => (h'.cell c).trans (h.cell c)⟩

theorem onNode (h : Plant.Quiet p p') (f : Node → Node) (hf : ∀ n, (f n).still = n.still) :
    Plant.Quiet p (p'.onNode q f) := by
  refine h.trans ⟨rfl, rfl, rfl, fun r => ?_, rfl, fun _ => rfl⟩
  simp only [Plant.node_onNode]
  split
  · subst_vars
    exact hf _
  · rfl

theorem onCvc (h : Plant.Quiet p p') (f : Cvc → Cvc) (hf : ∀ c, (f c).still = c.still) : Plant.Quiet p (p'.onCvc f) :=
  h.trans ⟨rfl, rfl, rfl, fun _ => rfl, hf _, fun _ => rfl⟩

theorem onCell (h : Plant.Quiet p p') {c : CellId} (f : Cell → Cell) (hf : ∀ e, (f e).still = e.still) :
    Plant.Quiet p (p'.onCell c f) := by
  refine h.trans ⟨rfl, rfl, rfl, fun _ => rfl, rfl, fun d => ?_⟩
  simp only [Plant.cell_onCell]
  split
  · subst_vars
    exact hf _
  · rfl

theorem put (h : Plant.Quiet p p') (key : Nat) (v : Int) : Plant.Quiet p (p'.put q key v) := h.onNode _ (fun _ => rfl)
theorem cPut (h : Plant.Quiet p p') (key : Nat) (v : Int) : Plant.Quiet p (p'.cPut key v) := h.put key v
theorem bump (h : Plant.Quiet p p') (key n : Nat) : Plant.Quiet p (p'.bump q key n) := h.put key _
theorem putBlob (h : Plant.Quiet p p') (key : Nat) (v : List Nat) : Plant.Quiet p (p'.putBlob q key v) :=
  h.onNode _ (fun _ => rfl)
theorem onLane (h : Plant.Quiet p p') (l : Nat) (f : Lane → Lane) : Plant.Quiet p (p'.onLane q l f) :=
  h.onNode _ (fun _ => rfl)

theorem ite {c : Prop} [Decidable c] {a b : Plant} (ha : Plant.Quiet p a) (hb : Plant.Quiet p b) :
    Plant.Quiet p (if c then a else b) := by split <;> assumption

theorem send (h : Plant.Quiet p p') (l : Nat) (f : Frame) : Plant.Quiet p (p'.send q l f) := by
  unfold Plant.send
  exact ite h (ite (h.bump ..) (h.onLane ..))

theorem sendTimed (h : Plant.Quiet p p') (l : Nat) (f : Frame) : Plant.Quiet p (p'.sendTimed l f) := by
  unfold Plant.sendTimed
  exact ite h (h.send l f)

theorem foldl {α : Type} (l : List α) (g : Plant → α → Plant) (hg : ∀ x a, Plant.Quiet x (g x a)) (h : Plant.Quiet p p') :
    Plant.Quiet p (l.foldl g p') := by
  induction l generalizing p' with
  | nil => exact h
  | cons a t ih => exact ih (h.trans (hg _ _))

theorem sendUplinks (h : Plant.Quiet p p') (f : Frame) : Plant.Quiet p (p'.sendUplinks f) :=
  foldl _ _ (fun x l => (refl x).sendTimed l f) h

theorem acqEvent (h : Plant.Quiet p p') (code : Nat) : Plant.Quiet p (p'.acqEvent code) := by
  unfold Plant.acqEvent
  exact ite h (h.onCvc _ (fun _ => rfl))

theorem convEvent (h : Plant.Quiet p p') (ev src : Nat) : Plant.Quiet p (p'.convEvent ev src) := by
  unfold Plant.convEvent
  exact ite h (h.onCvc _ (fun _ => rfl))

theorem armBlockDue (h : Plant.Quiet p p') (m src : Nat) : Plant.Quiet p (p'.armBlockDue m src) := h.onCvc _ (fun _ => rfl)

theorem showOut (h : Plant.Quiet p p') : Plant.Quiet p p'.showOut := h.cPut ..

theorem channelTrip (h : Plant.Quiet p p') (ch : Nat) : Plant.Quiet p (p'.channelTrip ch) := by
  refine showOut (onCvc h _ ?_)
  intro c
  rfl

theorem caveQueue (h : Plant.Quiet p p') (r : CaveRec) : Plant.Quiet p (p'.caveQueue q r) := h.onNode _ (fun _ => rfl)

theorem recordRefused (h : Plant.Quiet p p') : Plant.Quiet p (p'.recordRefused q) := by
  unfold Plant.recordRefused
  split
  · exact ite h (h.bump ..)
  · exact h

theorem commit (h : Plant.Quiet p p') (c : CellId) (a : Nat) : Plant.Quiet p (p'.commit c a) := h.onCell _ (fun _ => rfl)

theorem recordAsked (h : Plant.Quiet p p') : Plant.Quiet p (p'.recordAsked q) := by
  unfold Plant.recordAsked
  split
  · exact ite (h.commit ..) (h.bump ..)
  · exact h

theorem capTake (h : Plant.Quiet p p') (c : CellId) : Plant.Quiet p (p'.capTake c) := by
  unfold Plant.capTake
  refine ite ?_ (ite (h.bump ..) h)
  refine (ite ?_ ?_ : Plant.Quiet p _).onCell _ (fun _ => rfl)
  · exact ((((h.put ..).put ..).put ..).put ..)
  · exact (((h.put ..).put ..).put ..)

theorem capEvent (h : Plant.Quiet p p') (c : CellId) (code : Nat) : Plant.Quiet p (p'.capEvent c code) := by
  unfold Plant.capEvent
  exact ite (h.capTake c) h

theorem holdRaise (h : Plant.Quiet p p') (s : Nat) : Plant.Quiet p (p'.holdRaise q s) := h.onNode _ (fun _ => rfl)

section
variable {raise : Raiser} (hr : ∀ x r s v m, Plant.Quiet x (raise x r s v m))
include hr

theorem call (h : Plant.Quiet p p') (s : Nat) (v : Int) (m : Nat) : Plant.Quiet p (raise p' q s v m) := h.trans (hr ..)

theorem recordWith (h : Plant.Quiet p p') (r : CaveRec) : Plant.Quiet p (recordWith raise p' q r) := by
  unfold Sys2Proof.Machine.recordWith
  refine ite (h.recordAsked.caveQueue r) ?_
  split
  · exact call hr (h.bump ..) ..
  · exact call hr (h.bump ..) ..
  · exact call hr (h.recordRefused.bump ..) ..

theorem rejectWith (h : Plant.Quiet p p') (n : Nat) : Plant.Quiet p (rejectWith raise p' n) := by
  unfold Sys2Proof.Machine.rejectWith
  refine call hr (onCvc (((((h.cPut ..).cPut ..).cPut ..).putBlob ..)) _ ?_) ..
  intro c
  rfl

theorem leaveStopped (h : Plant.Quiet p p') (n : Nat) : Plant.Quiet p (leaveStopped raise p' n) := by
  unfold Sys2Proof.Machine.leaveStopped
  exact ite (rejectWith hr h 8) h

theorem convGoWith (h : Plant.Quiet p p') (new ev src : Nat) : Plant.Quiet p (convGoWith raise p' new ev src) := by
  unfold Sys2Proof.Machine.convGoWith
  refine leaveStopped hr (recordWith hr ?_ _) _
  refine acqEvent (ite ?_ ?_) 5
  · exact (((((h.cPut ..).cPut ..).cPut ..).cPut ..).cPut ..)
  · exact ((((h.cPut ..).cPut ..).cPut ..).cPut ..)

theorem keptWith (h : Plant.Quiet p p') (ev what : Nat) : Plant.Quiet p (keptWith raise p' ev what) := recordWith hr h _

theorem tripEventWith (h : Plant.Quiet p p') (src : Nat) : Plant.Quiet p (tripEventWith raise p' src) := by
  unfold Sys2Proof.Machine.tripEventWith
  refine ite (keptWith hr h ..) (ite (keptWith hr (onCvc h _ ?_) ..) (ite h ((convGoWith hr h ..).bump ..)))
  intro c
  rfl

theorem tripWith (h : Plant.Quiet p p') (ch code src : Nat) : Plant.Quiet p (tripWith raise p' ch code src) := by
  unfold Sys2Proof.Machine.tripWith
  refine call hr (tripEventWith hr (acqEvent (bump (cPut (cPut (ite ?_ ?_) ..) ..) ..) 6) src) ..
  · exact h.channelTrip ch
  · exact ((h.channelTrip ch).cPut ..).sendUplinks _

theorem actionWith (h : Plant.Quiet p p') (s lvl mask : Nat) : Plant.Quiet p (actionWith raise p' s lvl mask) := by
  unfold Sys2Proof.Machine.actionWith
  refine recordWith hr ?_ _
  have h0 := h.cPut (K.faultState + s) ((p'.c (K.faultState + s)) ||| 0x40 : Nat)
  split
  · exact h0.convEvent ..
  · exact ite (h0.convEvent ..) (h0.armBlockDue ..)
  · exact h0.convEvent ..
  · exact ite h0 (tripWith hr h0 ..)
  · exact (ite h0 (tripWith hr h0 ..)).cPut ..
  · exact h0

theorem raiseRecordWith (h : Plant.Quiet p p') (s sev eff : Nat) (esc : Bool) (prm : Nat) :
    Plant.Quiet p (raiseRecordWith raise p' q s sev eff esc prm) := by
  unfold Sys2Proof.Machine.raiseRecordWith
  refine ite (h.holdRaise s) (recordWith hr (onNode h _ ?_) _)
  intro n
  rfl

end

/-- A raise is quiet, whatever it causes. -/
theorem raiseF (fuel : Nat) : ∀ (x : Plant) (q : Part) (s : Nat) (v : Int) (m : Nat), Plant.Quiet x (raiseF fuel x q s v m) := by
  induction fuel with
  | zero => exact fun x _ _ _ _ => refl x
  | succ n ih =>
    intro x q s v m
    have hr : ∀ x r s v m, Plant.Quiet x ((fun p q s x m => Machine.raiseF n p q s x m : Raiser) x r s v m) := ih
    unfold Machine.raiseF
    extract_lets raise prm p1 oldMask p2 new sev esc eff q1 q2 q3 q4 q5 grace
    have h1 : Plant.Quiet x p1 := ((refl x).bump ..).put ..
    have h2 : Plant.Quiet x p2 := onNode h1 _ (fun _ => rfl)
    have k1 : Plant.Quiet x q1 := h1.put ..
    have k2 : Plant.Quiet x q2 := onNode k1 _ (fun _ => rfl)
    have k3 : Plant.Quiet x q3 := raiseRecordWith hr k2 ..
    have k4 : Plant.Quiet x q4 := ite (k3.acqEvent 7) k3
    have k5 : Plant.Quiet x q5 := by
      cases q with
      | cell c => exact ite (k4.capEvent ..) k4
      | cvc => exact k4
      | hub _ => exact k4
    clear_value p1 p2 q1 q2 q3 q4 q5
    refine ite (ite (ite ?_ h2) (ite (h1.holdRaise s) h1)) (ite (ite ?_ ?_) k5)
    · exact recordWith hr (h2.armBlockDue ..) _
    · exact actionWith hr k5 ..
    · exact onNode k5 _ (fun _ => rfl)

theorem raise (h : Plant.Quiet p p') (s : Nat) (v : Int) : Plant.Quiet p (p'.raise q s v) := h.trans (raiseF ..)
theorem raiseArms (h : Plant.Quiet p p') (s m : Nat) : Plant.Quiet p (p'.raiseArms s m) := h.trans (raiseF ..)

theorem record (h : Plant.Quiet p p') (code p0 p1 p2 : Nat) (pl : List Nat) : Plant.Quiet p (p'.record q code p0 p1 p2 pl) :=
  recordWith (raiseF 4) h _

theorem convGo (h : Plant.Quiet p p') (new ev src : Nat) : Plant.Quiet p (p'.convGo new ev src) := convGoWith (raiseF 4) h ..
theorem kept (h : Plant.Quiet p p') (ev what : Nat) : Plant.Quiet p (p'.kept ev what) := keptWith (raiseF 4) h ..
theorem trip (h : Plant.Quiet p p') (ch code src : Nat) : Plant.Quiet p (p'.trip ch code src) := tripWith (raiseF 4) h ..

theorem power (h : Plant.Quiet p p') (r : Part) : (p'.node r).power = (p.node r).power := by
  have := congrArg Node.power (h.node r)
  exact this

theorem sched (h : Plant.Quiet p p') (r : Part) : (p'.node r).sched = (p.node r).sched := by
  have := congrArg Node.sched (h.node r)
  exact this

theorem up (h : Plant.Quiet p p') (r : Part) : p'.up r = p.up r := congrArg Power.core (h.power r)

theorem gdp (h : Plant.Quiet p p') : p'.cvc.gdp = p.cvc.gdp := by
  have := congrArg Cvc.gdp h.cvc
  exact this

theorem gates (h : Plant.Quiet p p') (c : CellId) : (p'.cell c).gates = (p.cell c).gates := by
  have := congrArg Cell.gates (h.cell c)
  exact this

theorem led (h : Plant.Quiet p p') (c : CellId) : { (p'.cell c).led with holds := [] } = { (p.cell c).led with holds := [] } := by
  have := congrArg Cell.led (h.cell c)
  exact this

theorem endFault (h : Plant.Quiet p p') (s : Nat) : Plant.Quiet p (p'.endFault q s) := onNode (h.put ..) _ (fun _ => rfl)

theorem graceEnds (h : Plant.Quiet p p') (s : Nat) : Plant.Quiet p (p'.graceEnds s) := by
  unfold Plant.graceEnds
  refine ite (actionWith (fun x r s v m => raiseF _ x r s v m) (onNode h _ ?_) ..) h
  exact fun _ => rfl

theorem ackOne (h : Plant.Quiet p p') (s : Nat) : Plant.Quiet p (p'.ackOne q s) := by
  unfold Plant.ackOne
  extract_lets p0 applied r p1
  have h0 : Plant.Quiet p p0 := ite (h.graceEnds s) h
  have h1 : Plant.Quiet p p1 := ite (onNode h0 _ (fun _ => rfl)) (h0.endFault s)
  clear_value p0 p1
  exact ite h (ite h (recordWith (raiseF 4) h1 _))

theorem ack (h : Plant.Quiet p p') (v : Nat) : Plant.Quiet p (p'.ack q v) := foldl _ _ (fun x s => (refl x).ackOne s) h

theorem endAcked (h : Plant.Quiet p p') : Plant.Quiet p (p'.endAcked q) :=
  foldl _ _ (fun x s => ite ((refl x).endFault s) (refl x)) h

end Plant.Quiet

end Sys2Proof.Machine
end

