-- ==== Sys2Proof/Laws/Cell.lean ====
section
/-! SUPPORT. What the operations of a cell's switching leave (06 R137–R160): its power record, and objects that are none of theirs. -/

namespace Sys2Proof.Machine

theorem Plant.setGates_node (p : Plant) (c : CellId) (t : Nat) (r : Part) : (p.setGates c t).node r = p.node r := by
  simp [Plant.setGates]

theorem Plant.showPending_power (p : Plant) (c : CellId) (r : Part) : ((p.showPending c).node r).power = (p.node r).power := by
  simp [Plant.showPending]

theorem Plant.leaveTrim_power (p : Plant) (c : CellId) (t : Nat) (r : Part) :
    ((p.leaveTrim c t).node r).power = (p.node r).power := by
  simp only [Plant.leaveTrim]
  split
  · simp only [Plant.showPending, Plant.cutPulse, Plant.put_power, Plant.onCell_node]
    split <;> simp
  · rfl

theorem Plant.holdLow_power (p : Plant) (c : CellId) (t : Nat) (r : Part) :
    ((p.holdLow c t).node r).power = (p.node r).power := by
  simp [Plant.holdLow, Plant.gatesLow, Plant.setGates_node, Plant.leaveTrim_power]

theorem Plant.setPlain_power (p : Plant) (c : CellId) (t : Nat) (r : Part) :
    ((p.setPlain c t).node r).power = (p.node r).power := by
  simp only [Plant.setPlain]
  split
  · rfl
  · simp [Plant.aimGates, Plant.setGates_node, Plant.leaveTrim_power]

/-- An object that the turn to low gates does not write. -/
theorem Plant.holdLow_getN (p : Plant) (c : CellId) (v k : Nat) (h : k ≠ K.swState) (h1 : k ≠ K.pwmCut) (h2 : k ≠ K.pwmPending) :
    (p.holdLow c v).getN (.cell c) k = p.getN (.cell c) k := by
  simp only [Plant.holdLow, Plant.gatesLow, Plant.setGates, Plant.onCell_getN, Plant.getN_put, h, and_false, if_false,
    Plant.leaveTrim, Plant.cutPulse, Plant.showPending]
  split
  · simp only [Plant.getN_put, h2, and_false, if_false, Plant.onCell_getN]
    split
    · simp [Plant.bump, Plant.getN_put, h1]
    · rfl
  · rfl

/-- An event that is not the capture's trigger. -/
theorem Plant.capEvent_off (p : Plant) (c : CellId) (n : Nat) (h : p.getN (.cell c) K.capTrig ≠ n) : p.capEvent c n = p := by
  simp [Plant.capEvent, h]

theorem Plant.fire_power (p : Plant) (c : CellId) (t : Nat) (r : Part) :
    ((p.fire c t).node r).power = (p.node r).power := by
  unfold Plant.fire
  extract_lets q p1 p2 p3 p4
  have h1 : (p1.node r).power = (p.node r).power := by simp [p1, Plant.holdLow_power]
  have h2 : (p2.node r).power = (p.node r).power :=
    ((((Plant.Quiet.refl p1).put (q := q) K.bypCause t).bump (q := q) K.bypFires 1).capEvent c 4 |>.power r).trans h1
  have h3 : (p3.node r).power = (p.node r).power := by simp [p3, h2]
  have h4 : (p4.node r).power = (p.node r).power := (((Plant.Quiet.refl p3).raise _ _).power r).trans h3
  split
  · rfl
  · split
    · split
      · exact (((Plant.Quiet.refl p4).raise _ _).power r).trans h4
      · exact h4
    · exact h3

end Sys2Proof.Machine
end

