-- ==== Sys2Proof/Laws/Heard.lean ====
section
/-! SUPPORT. What a part does with a frame and with an ordered set that it hears, as the statements say it (09 R246, R259; 08 R205). -/

namespace Sys2Proof.Machine

/-- A frame of the row's TYPE on a lane that carries frames is counted and handled. -/
theorem Plant.receive_hears {p : Plant} {port : Port} {f : Frame} {ty : Nat} (h : p.hears port f ty = true)
    (hty : 0 < ty ∧ ty < 7) (handle : Plant → Bool → Plant) :
    p.receive port f ty handle = handle (p.heard port f) (decide (chkState f = .good)) := by
  simp only [Plant.hears, Bool.and_eq_true, beq_iff_eq] at h
  obtain ⟨⟨h1, rfl⟩, h3⟩ := h
  have h4 : ¬ (f.ty = 0 ∨ 7 ≤ f.ty) := by omega
  unfold Plant.receive Plant.heard
  simp [h1, h3, h4]

/-- An ordered set of the row's code whose check passes acts as the row says, where its field is the row's. -/
theorem Plant.osTake_hears {p : Plant} {port : Port} {os : Header} {code : Nat} (h : p.hearsOs port os code = true)
    (field : Bool) (g : Plant → Plant) : p.osTake port os code field g = if field then g p else p := by
  simp only [Plant.hearsOs, Bool.and_eq_true, Bool.or_eq_true, beq_iff_eq, Bool.not_eq_true'] at h
  obtain ⟨⟨⟨h1, h2⟩, h3⟩, h4⟩ := h
  unfold Plant.osTake
  rcases h1 with h1 | h1 <;> simp [h1, h2, h3, h4]

end Sys2Proof.Machine
end

