-- ==== Sys2Proof/Laws/Num.lean ====
section
/-! SUPPORT. Bytes of a number and back (00_scope.md R3). -/

namespace Sys2Proof.Machine

theorem length_beBytes (n x : Nat) : (beBytes n x).length = n := by
  induction n with
  | zero => rfl
  | succ n ih => simp [beBytes, ih]

theorem foldl_be (l : List Nat) (a : Nat) : l.foldl (fun a b => a * 256 + b) a = a * 256 ^ l.length + ofBe l := by
  induction l generalizing a with
  | nil => simp [ofBe]
  | cons b t ih =>
    simp only [ofBe, List.foldl_cons, List.length_cons]
    rw [ih, ih (0 * 256 + b)]
    ring

/-- The bytes of a number, most significant first, read back. -/
theorem ofBe_beBytes (n x : Nat) : ofBe (beBytes n x) = x % 256 ^ n := by
  induction n with
  | zero => simp [beBytes, ofBe, Nat.mod_one]
  | succ n ih =>
    have : ofBe (beBytes (n + 1) x) = ((x >>> (8 * n)) % 256) * 256 ^ n + ofBe (beBytes n x) := by
      simp only [beBytes, ofBe, List.foldl_cons]
      rw [foldl_be, length_beBytes]
      simp [ofBe]
    rw [this, ih, Nat.shiftRight_eq_div_pow, show (2 : Nat) ^ (8 * n) = 256 ^ n by rw [pow_mul]; norm_num, pow_succ,
      Nat.mod_mul]
    ring

@[simp] theorem length_leBytes (n x : Nat) : (leBytes n x).length = n := by
  induction n generalizing x with
  | zero => rfl
  | succ n ih => simp [leBytes, ih]

/-- The bytes of a number, least significant first, read back. -/
theorem ofLe_leBytes (n x : Nat) : ofLe (leBytes n x) = x % 256 ^ n := by
  induction n generalizing x with
  | zero => simp [leBytes, ofLe, Nat.mod_one]
  | succ n ih =>
    rw [leBytes, ofLe, ih, Nat.shiftRight_eq_div_pow, show (2 : Nat) ^ 8 = 256 by norm_num,
      show 256 ^ (n + 1) = 256 * 256 ^ n by ring, Nat.mod_mul]

end Sys2Proof.Machine
end

