-- ==== Sys2Proof/Laws/Memory.lean ====
section
/-! SUPPORT. Laws of the memories: a write is read back, other bytes stand, and every operation keeps the canonical form. -/

namespace Sys2Proof.Machine

@[simp] theorem memByte_memSet_self (m : List Host.Cell) (k v : Nat) : memByte (memSet m k v) k = v % 256 := by
  simp [memByte, memSet]

theorem memByte_memSet_other (m : List Host.Cell) {k a : Nat} (v : Nat) (h : a ≠ k) : memByte (memSet m k v) a = memByte m a := by
  simp [memByte, memSet, Tab.get_set_other _ _ _ h]

/-- Bytes outside those written stand. -/
theorem memByte_memPut_other (bs : List Nat) : ∀ (m : List Host.Cell) (k a : Nat), (a < k ∨ k + bs.length ≤ a) →
    memByte (memPut m k bs) a = memByte m a := by
  induction bs with
  | nil => intro m k a _; rfl
  | cons b t ih =>
    intro m k a h
    simp only [List.length_cons] at h
    rw [memPut, ih _ _ _ (by omega), memByte_memSet_other _ _ (by omega)]

/-- Bytes written are read back. -/
theorem memByte_memPut_at (bs : List Nat) : ∀ (m : List Host.Cell) (k i : Nat), (h : i < bs.length) →
    memByte (memPut m k bs) (k + i) = bs[i] % 256 := by
  induction bs with
  | nil => intro m k i h; simp at h
  | cons b t ih =>
    intro m k i h
    rw [memPut]
    cases i with
    | zero => rw [Nat.add_zero, memByte_memPut_other _ _ _ _ (by omega)]; simp
    | succ i => rw [show k + (i + 1) = k + 1 + i by omega, ih _ _ _ (by simpa using h)]; simp

theorem memByte_memWrite_other (m : List Host.Cell) {k n a : Nat} (v : Nat) (h : a < k ∨ k + n ≤ a) :
    memByte (memWrite m k n v) a = memByte m a :=
  memByte_memPut_other _ _ _ _ (by rw [length_leBytes]; exact h)

theorem wf_memSet {m : List Host.Cell} (k v : Nat) (h : Memory.wf m = true) : Memory.wf (memSet m k v) = true :=
  Tab.wf_set _ _ _ _ h

theorem wf_memPut (bs : List Nat) : ∀ {m : List Host.Cell} (k : Nat), Memory.wf m = true → Memory.wf (memPut m k bs) = true := by
  induction bs with
  | nil => intro m k h; exact h
  | cons b t ih => intro m k h; exact ih _ (wf_memSet _ _ h)

theorem wf_memWrite {m : List Host.Cell} (k n v : Nat) (h : Memory.wf m = true) : Memory.wf (memWrite m k n v) = true := wf_memPut _ _ h

theorem wf_filter {m : List Host.Cell} (f : Host.Cell → Bool) (h : Memory.wf m = true) : Memory.wf (m.filter f) = true :=
  Tab.wf_filter _ _ _ h

theorem wf_memClear {m : List Host.Cell} (k n : Nat) (h : Memory.wf m = true) : Memory.wf (memClear m k n) = true := wf_filter _ h

end Sys2Proof.Machine
end

