-- ==== Sys2Proof/Laws/Riscv.lean ====
section
/-! SUPPORT. What one instruction of an engine can do to the memories: nothing, or one store that the address map allows
(05 R105); it leaves the queue. -/

namespace Sys2Proof.Machine

/-- A machine after an instruction of an engine: at most one store, and the queue stands. -/
def State.OneStore (s t : State) (e : Eng) : Prop :=
  t.pending = s.pending ∧
    (t.mem = s.mem ∨ ∃ a n v, (n = 1 ∨ n = 2 ∨ n = 4) ∧ storeCause a n = none ∧ t.mem = memWrite s.mem (engKey e.val a) n v)

theorem State.OneStore.plant (s : State) (p : Plant) (e : Eng) : s.OneStore { s with plant := p } e := ⟨rfl, .inl rfl⟩

theorem State.OneStore.store {s : State} {e : Eng} {a n : Nat} (v : Nat) (p : Plant) (hn : n = 1 ∨ n = 2 ∨ n = 4)
    (h : storeCause a n = none) : s.OneStore { s.engStore e a n v with plant := p } e := ⟨rfl, .inr ⟨a, n, v, hn, h, rfl⟩⟩

/-- Splits an instruction's cases: each is a trap, a plain change, or a store. -/
theorem State.rvStore_one {s t : State} {e : Eng} {w len : Nat} (h : s.rvStore e w len = .done t) : s.OneStore t e := by
  unfold State.rvStore at h
  split at h
  · cases h
  · dsimp only at h
    split at h
    · cases h
    · cases h
      refine .store _ _ ?_ ‹_›
      have : fF3 w = 0 ∨ fF3 w = 1 ∨ fF3 w = 2 := by omega
      rcases this with h | h | h <;> simp [h]

theorem State.rvFsw_one {s t : State} {e : Eng} {w len : Nat} (h : s.rvFsw e w len = .done t) : s.OneStore t e := by
  unfold State.rvFsw at h
  split at h
  · cases h
  · dsimp only at h
    split at h
    · cases h
    · cases h
      exact .store _ _ (by simp) ‹_›

theorem State.rvAmo_one {s t : State} {e : Eng} {w len : Nat} (h : s.rvAmo e w len = .done t) : s.OneStore t e := by
  unfold State.rvAmo at h
  dsimp only at h
  split at h
  · cases h
  · split at h
    · split at h
      · cases h
      · split at h
        · cases h
        · cases h
          exact .plant ..
    · split at h
      · split at h
        · cases h
        · cases h
          rename_i hc
          cases hh : decide ((s.plant.eng e).regs.resv = some (engKey e.val (s.plant.xReg e (fRs1 w)) / 4))
          · exact .plant ..
          · exact .store _ _ (by simp) hc
      · split at h
        · cases h
        · split at h
          · cases h
          · cases h
            exact .store _ _ (by simp) ‹_›

theorem State.rvLoad_one {s t : State} {e : Eng} {w len : Nat} (h : s.rvLoad e w len = .done t) : s.OneStore t e := by
  unfold State.rvLoad at h
  split at h
  · cases h
  · split at h
    · cases h
    · cases h
      exact .plant ..

theorem State.rvFlw_one {s t : State} {e : Eng} {w len : Nat} (h : s.rvFlw e w len = .done t) : s.OneStore t e := by
  unfold State.rvFlw at h
  split at h
  · cases h
  · split at h
    · cases h
    · cases h
      exact .plant ..

theorem State.rvSystem_one {s t : State} {e : Eng} {w len : Nat} (h : s.rvSystem e w len = .done t) : s.OneStore t e := by
  unfold State.rvSystem State.rvCsr at h
  repeat' first
    | (cases h; first | exact .plant .. | done)
    | (dsimp only at h; split at h)
    | split at h

theorem State.rvFma_one {s t : State} {e : Eng} {w len : Nat} {a b : Bool} (h : s.rvFma e w len a b = .done t) : s.OneStore t e := by
  unfold State.rvFma at h
  split at h
  · cases h
    exact .plant ..
  · cases h

theorem State.rvFOp_one {s t : State} {e : Eng} {w len : Nat} (h : s.rvFOp e w len = .done t) : s.OneStore t e := by
  unfold State.rvFOp State.rvFArith at h
  repeat' first
    | (cases h; first | exact .plant .. | done)
    | (dsimp only at h; split at h)
    | split at h

theorem State.rvCustom_one {s t : State} {e : Eng} {w : Nat} (h : s.rvCustom0 e w = .done t ∨ s.rvCustom1 e w = .done t) :
    s.OneStore t e := by
  rcases h with h | h
  · unfold State.rvCustom0 at h
    repeat' first
      | (cases h; first | exact .plant .. | done)
      | (dsimp only at h; split at h)
      | split at h
  · unfold State.rvCustom1 at h
    repeat' first
      | (cases h; first | exact .plant .. | done)
      | (dsimp only at h; split at h)
      | split at h

/-- A word that runs stores at most once, where the map lets it. -/
theorem State.rvRun_one {s t : State} {e : Eng} {w len : Nat} (h : s.rvRun e w len = .done t) : s.OneStore t e := by
  unfold State.rvRun State.rvOpImm State.rvOp at h
  repeat' first
    | exact State.rvLoad_one h
    | exact State.rvStore_one h
    | exact State.rvSystem_one h
    | exact State.rvAmo_one h
    | exact State.rvFlw_one h
    | exact State.rvFsw_one h
    | exact State.rvFma_one h
    | exact State.rvFOp_one h
    | exact State.rvCustom_one (.inl h)
    | exact State.rvCustom_one (.inr h)
    | (cases h; first | exact .plant .. | done)
    | (dsimp only at h; split at h)
    | split at h

/-- A store that the map lets lies in the engine's own data memory or in shared engine memory. -/
theorem storeCause_none {e : Eng} {a n : Nat} (hn : n = 1 ∨ n = 2 ∨ n = 4) (h : storeCause a n = none) :
    (tcmKey e.val 0x10000 ≤ engKey e.val a ∧ engKey e.val a + n ≤ tcmKey e.val 0x20000) ∨
      (0x10000000 ≤ engKey e.val a ∧ engKey e.val a + n ≤ 0x10800000) := by
  have hal : a % n = 0 := by
    unfold storeCause at h
    split at h
    · split at h
      · cases h
      · split at h
        · cases h
        · simpa using ‹¬ a % n ≠ 0›
    · cases h
  have hr : (0x10000 ≤ a ∧ a < 0x20000) ∨ (0x10000000 ≤ a ∧ a < 0x10800000) := by
    by_contra hne
    simp only [storeCause, regionOf] at h
    split_ifs at h <;> simp_all [Region.writable]
  unfold engKey tcmKey
  rcases hr with hr | hr
  · left
    rw [if_pos (by omega)]
    rcases hn with rfl | rfl | rfl <;> omega
  · right
    rw [if_neg (by omega)]
    rcases hn with rfl | rfl | rfl <;> omega

/-- One instruction of an engine stores at most once, where the map lets it. -/
theorem State.rvStep_one (s : State) (e : Eng) : s.OneStore (s.rvStep e) e := by
  unfold State.rvStep
  dsimp only
  split
  · exact .plant ..
  · split
    · exact State.rvRun_one ‹_›
    · exact .plant ..

end Sys2Proof.Machine
end

