-- ==== Sys2Proof/Laws/Keeps.lean ====
section
/-! SUPPORT. What the operations over the whole machine keep: the queue of waiting commands, and the canonical form of the memories. -/

namespace Sys2Proof.Machine

/-- The queue stands, and the memories keep their canonical form. -/
def State.Keeps (s t : State) : Prop := t.pending = s.pending ∧ (Memory.wf s.mem = true → Memory.wf t.mem = true)

theorem State.Keeps.refl (s : State) : s.Keeps s := ⟨rfl, id⟩
theorem State.Keeps.plant (s : State) (p : Plant) : s.Keeps { s with plant := p } := ⟨rfl, id⟩
theorem State.Keeps.trans {s t u : State} (h : s.Keeps t) (h' : t.Keeps u) : s.Keeps u := ⟨h'.1.trans h.1, fun x => h'.2 (h.2 x)⟩
theorem State.Keeps.withP {s t : State} (h : s.Keeps t) (p : Plant) : s.Keeps { t with plant := p } := h
theorem State.Keeps.ofP {s t : State} {p : Plant} (h : ({ s with plant := p } : State).Keeps t) : s.Keeps t := h
theorem State.Keeps.ite {s a b : State} {c : Prop} [Decidable c] (ha : s.Keeps a) (hb : s.Keeps b) : s.Keeps (if c then a else b) := by
  split <;> assumption

theorem State.OneStore.keeps {s t : State} {e : Eng} (h : s.OneStore t e) : s.Keeps t := by
  obtain ⟨h1, h2 | ⟨a, n, v, -, -, h2⟩⟩ := h
  · exact ⟨h1, fun h => h2 ▸ h⟩
  · exact ⟨h1, fun h => h2 ▸ wf_memWrite _ _ _ h⟩

/-! ### Packages and resets -/

theorem wf_foldlPut {α : Type} (l : List α) (f : α → Nat) (g : α → List Nat) {m : List Host.Cell} (h : Memory.wf m = true) :
    Memory.wf (l.foldl (fun m e => memPut m (f e) (g e)) m) = true := by
  induction l generalizing m with
  | nil => exact h
  | cons a t ih => exact ih (wf_memPut _ _ h)

theorem wf_placeSection {m : List Host.Cell} (x : Section) (h : Memory.wf m = true) : Memory.wf (placeSection m x) = true := by
  unfold placeSection
  split
  · exact wf_foldlPut _ (fun e : Eng => tcmKey e.val x.off) (fun _ => x.bytes) h
  · exact wf_foldlPut _ (fun e : Eng => tcmKey e.val (0x10000 + x.off)) (fun _ => x.bytes) h
  · exact wf_memPut _ _ h
  · exact h

theorem wf_placeAll (l : List Section) : ∀ {m : List Host.Cell}, Memory.wf m = true → Memory.wf (l.foldl placeSection m) = true := by
  induction l with
  | nil => intro m h; exact h
  | cons a t ih => intro m h; exact ih (wf_placeSection a h)

theorem State.Keeps.loadPackage (s : State) (b : List Nat) : s.Keeps (s.loadPackage b) := by
  unfold State.loadPackage
  split
  · exact .refl s
  · exact ⟨rfl, fun h => wf_placeAll _ (wf_memClear _ _ (wf_memClear _ _ h))⟩

theorem State.Keeps.loadSlots (s : State) (t : Tab Int) : s.Keeps (s.loadSlots t) := .ite ⟨rfl, id⟩ (.refl s)

theorem State.Keeps.packageBoundary (s : State) : s.Keeps s.packageBoundary := .ite (.loadPackage s _) (.refl s)

theorem State.Keeps.packageStart (s : State) (ok : Bool) : s.Keeps (s.packageStart ok) := by
  have h : s.Keeps (if s.plant.blob .cvc K.engPackage = [] then s
      else if s.plant.imageAccepted .cvc (s.plant.blob .cvc K.engPackage) ok && headerOk (s.plant.blob .cvc K.engPackage) 7200 2 &&
        (packageSections (s.plant.blob .cvc K.engPackage)).isSome then s.loadPackage (s.plant.blob .cvc K.engPackage)
      else { s with plant := (s.plant.verifyFailed .cvc).raise .cvc 40 0 }) :=
    .ite (.refl s) (.ite (.loadPackage s _) (.plant s _))
  exact .ite h (h.trans (.loadSlots _ _))

theorem State.Keeps.partDown (s : State) (q : Part) (sc : Scope) (cause : Nat) : s.Keeps (s.partDown q sc cause) := by
  cases q
  · refine ⟨rfl, fun h => ?_⟩
    simp only [State.partDown, State.cvcDown, memAfter]
    split
    · exact wf_filter _ h
    · rfl
  · exact .plant s _
  · exact .plant s _

theorem State.Keeps.cvcStart (s : State) : s.Keeps s.cvcStart := by
  unfold State.cvcStart
  dsimp only
  exact .ite (.plant s _) (((State.Keeps.packageStart _ _).ofP).withP _)

theorem State.Keeps.partStart (s : State) (q : Part) : s.Keeps (s.partStart q) := by
  cases q
  · exact .ite (.refl s) (.cvcStart s)
  · exact .ite (.refl s) (.plant s _)
  · exact .plant s _

theorem State.Keeps.coreReset (s : State) (q : Part) (cause : Nat) : s.Keeps (s.coreReset q cause) :=
  (State.Keeps.partDown s q .core cause).trans (.partStart _ q)

theorem State.Keeps.softAfter (s : State) (q : Part) : s.Keeps (s.softAfter q) := .ite (.coreReset s q 8) (.refl s)

theorem State.Keeps.supplyLost (s : State) (q : Part) : s.Keeps (s.supplyLost q) := (State.Keeps.partDown s q .por _).withP _

theorem State.Keeps.coreSupplyLost (s : State) (q : Part) : s.Keeps (s.coreSupplyLost q) := by
  cases q <;> exact (State.Keeps.partDown s _ .pin 1).withP _

/-! ### Acquisition -/

theorem State.Keeps.acqSample (s : State) (ch : Nat) (v : Option Int) (time : Int) : s.Keeps (s.acqSample ch v time) := by
  unfold State.acqSample
  dsimp only
  split
  · exact .refl s
  · split
    · exact .plant s _
    · exact ⟨rfl, wf_memWrite _ _ _⟩

theorem State.Keeps.foldl {α : Type} (l : List α) (g : State → α → State) (h : ∀ (s : State) (a : α), s.Keeps (g s a)) (s : State) :
    s.Keeps (l.foldl g s) := by
  induction l generalizing s with
  | nil => exact .refl s
  | cons a t ih => exact (h s a).trans (ih _)

theorem State.Keeps.acqCycle (s : State) (k : Nat) : s.Keeps (s.acqCycle k) := by
  unfold State.acqCycle
  refine .ite (.refl s) (.foldl _ _ (fun s ch => ?_) s)
  dsimp only
  split
  · exact .acqSample ..
  · exact .acqSample ..
  · exact .refl s

theorem State.Keeps.acqHeaderOut (s : State) (b : Bool) : s.Keeps (s.acqHeaderOut b) := by
  refine ⟨by simp only [State.acqHeaderOut], fun h => ?_⟩
  simp only [State.acqHeaderOut]
  exact wf_memPut _ _ h

theorem State.Keeps.acqBegin (s : State) (bank : Nat) : s.Keeps (s.acqBegin bank) := (State.Keeps.acqHeaderOut _ _).ofP

/-! ### Requests -/

theorem State.Keeps.readValue (s : State) (q : Part) (r : ObjRow) (key : Nat) : s.Keeps (s.readValue q r key).2 := by
  unfold State.readValue
  dsimp only
  split
  · exact .refl s
  · split
    · exact .plant s _
    · split
      · exact .plant s _
      · exact .refl s

theorem State.Keeps.readDomain (s : State) (q : Part) (key off n : Nat) : s.Keeps (s.readDomain q key off n).2 := by
  unfold State.readDomain
  split
  · exact .plant s _
  · exact .refl s

theorem State.Keeps.ownItem (s : State) (key : Nat) : s.Keeps (s.ownItem key).2 := by
  unfold State.ownItem
  split
  · exact .refl s
  · split
    · exact .refl s
    · split
      · exact .readDomain ..
      · exact .readValue ..

theorem State.Keeps.ownItems (l : List Nat) : ∀ (s : State) (n : Nat), s.Keeps (s.ownItems l n).2 := by
  induction l with
  | nil => intro s n; exact .refl s
  | cons k t ih =>
    intro s n
    simp only [State.ownItems]
    split
    · exact .refl s
    · exact (State.Keeps.ownItem s k).trans (ih _ _)

theorem State.Keeps.readOwn (s : State) (e : Echo) (key off maxLen : Nat) : s.Keeps (s.readOwn e key off maxLen) := by
  unfold State.readOwn
  dsimp only
  split
  · exact .plant s _
  · split
    · exact .plant s _
    · split
      · exact (State.Keeps.readDomain ..).withP _
      · exact (State.Keeps.readValue ..).withP _

theorem State.Keeps.blockOwn (s : State) (e : Echo) (key count off maxLen : Nat) : s.Keeps (s.blockOwn e key count off maxLen) := by
  unfold State.blockOwn
  dsimp only
  split
  · exact .plant s _
  · split
    · exact .plant s _
    · split
      · split
        · split
          · exact .plant s _
          · exact (State.Keeps.readDomain ..).withP _
        · exact (State.Keeps.ownItems ..).withP _
      · exact (State.Keeps.ownItems ..).withP _

theorem State.Keeps.perform (s : State) (e : Echo) (m : Msg) : s.Keeps (s.perform e m) := by
  cases m
  case read => exact .ite (.readOwn ..) (.plant s _)
  case block => exact .ite (.plant s _) (.ite (.blockOwn ..) (.plant s _))
  all_goals exact .plant s _

theorem State.Keeps.execute (s : State) (e : Echo) (m : Msg) : s.Keeps (s.execute e m) :=
  .ite (.plant s _) ((State.Keeps.perform _ _ _).ofP)

theorem State.Keeps.serve (s : State) (r : Req) (m : Msg) : s.Keeps (s.serve r m) := by
  unfold State.serve
  dsimp only
  split
  · exact .refl s
  · split
    · exact .plant s _
    · split
      · exact .plant s _
      · split
        · exact .plant s _
        · exact .plant s _
        · exact .plant s _
        · exact ((State.Keeps.execute _ _ _).trans (.softAfter _ _)).ofP

theorem State.Keeps.hostWrite (s : State) (r : Req) (key v : Nat) : s.Keeps (s.hostWrite r key v) := by
  unfold State.hostWrite
  split <;> exact .serve ..

theorem State.Keeps.hostBytes (s : State) (r : Req) (key : Nat) (bs : List Byte) : s.Keeps (s.hostBytes r key bs) := .serve ..

theorem State.Keeps.svcWrite (s : State) (q : Part) (key : Nat) (bs : List Nat) : s.Keeps (s.svcWrite q key bs) := by
  cases q
  · exact .refl s
  all_goals exact .ite ((State.Keeps.softAfter _ _).ofP) (.refl s)

theorem State.Keeps.rowWrite (s : State) (w : WSrc) (key v : Nat) : s.Keeps (s.rowWrite w key v) := by
  cases w
  · exact .hostWrite ..
  · exact .svcWrite ..

theorem State.Keeps.rowBytes (s : State) (w : WSrc) (key : Nat) (bs : List Byte) : s.Keeps (s.rowBytes w key bs) := by
  cases w
  · exact .hostBytes ..
  · exact .svcWrite ..

/-! ### Frames and the boundary -/

theorem State.Keeps.serviceFrame (s : State) (port : Port) (f : Frame) (op : Nat) : s.Keeps (s.serviceFrame port f op) := by
  unfold State.serviceFrame
  dsimp only
  split
  · exact .plant s _
  · exact (State.Keeps.softAfter _ _).ofP

theorem State.Keeps.mirrorFrame (s : State) (port : Port) (f : Frame) : s.Keeps (s.mirrorFrame port f) := by
  refine ⟨rfl, fun h => ?_⟩
  simp only [State.mirrorFrame]
  split
  · unfold mirrorMem
    split
    · exact wf_memPut _ _ h
    · exact h
  · exact h

theorem State.Keeps.cycleBoundary (s : State) : s.Keeps s.cycleBoundary := by
  unfold State.cycleBoundary
  dsimp only
  refine .ite (.refl s) (.ite (.refl s) ?_)
  exact ((State.Keeps.packageBoundary _).ofP).withP _

end Sys2Proof.Machine
end

