-- ==== Sys2Proof/Laws/OnlyCell.lean ====
section
/-! SUPPORT. The operations of a cell controller change nothing outside it: raising its faults, its records, its gates, its carrier and
its firing (06 R136–R161, 12 R337–R349). -/

namespace Sys2Proof.Machine

namespace Plant.OnlyCell

variable {c : CellId} {p p' p'' : Plant}

theorem refl (c : CellId) (p : Plant) : Plant.OnlyCell c p p := ⟨rfl, rfl, rfl, fun _ _ => rfl, fun _ _ => rfl⟩

theorem trans (h : Plant.OnlyCell c p p') (h' : Plant.OnlyCell c p' p'') : Plant.OnlyCell c p p'' :=
  ⟨h'.tick.trans h.tick, h'.cvc.trans h.cvc, h'.hubs.trans h.hubs, fun q hq => (h'.node q hq).trans (h.node q hq),
   fun d hd => (h'.cell d hd).trans (h.cell d hd)⟩

theorem onNode (h : Plant.OnlyCell c p p') (f : Node → Node) : Plant.OnlyCell c p (p'.onNode (.cell c) f) := by
  refine h.trans ⟨rfl, rfl, rfl, fun q hq => ?_, fun _ _ => rfl⟩
  simp [Plant.node_onNode, hq]

theorem onCell (h : Plant.OnlyCell c p p') (f : Cell → Cell) : Plant.OnlyCell c p (p'.onCell c f) := by
  refine h.trans ⟨rfl, rfl, rfl, fun _ _ => rfl, fun d hd => ?_⟩
  simp [Plant.cell_onCell, hd]

theorem put (h : Plant.OnlyCell c p p') (key : Nat) (v : Int) : Plant.OnlyCell c p (p'.put (.cell c) key v) := h.onNode _
theorem bump (h : Plant.OnlyCell c p p') (key n : Nat) : Plant.OnlyCell c p (p'.bump (.cell c) key n) := h.put key _

theorem ite {b : Prop} [Decidable b] {x y : Plant} (hx : Plant.OnlyCell c p x) (hy : Plant.OnlyCell c p y) :
    Plant.OnlyCell c p (if b then x else y) := by split <;> assumption

theorem recordRefused (h : Plant.OnlyCell c p p') : Plant.OnlyCell c p (p'.recordRefused (.cell c)) := by
  unfold Plant.recordRefused
  exact ite h (h.bump ..)

theorem recordAsked (h : Plant.OnlyCell c p p') : Plant.OnlyCell c p (p'.recordAsked (.cell c)) := by
  unfold Plant.recordAsked
  exact ite (h.onCell _) (h.bump ..)

theorem capTake (h : Plant.OnlyCell c p p') : Plant.OnlyCell c p (p'.capTake c) := by
  unfold Plant.capTake
  refine ite ?_ (ite (h.bump ..) h)
  refine (ite ?_ ?_ : Plant.OnlyCell c p _).onCell _
  · exact ((((h.put ..).put ..).put ..).put ..)
  · exact (((h.put ..).put ..).put ..)

theorem capEvent (h : Plant.OnlyCell c p p') (code : Nat) : Plant.OnlyCell c p (p'.capEvent c code) := by
  unfold Plant.capEvent
  exact ite h.capTake h

theorem capClose (h : Plant.OnlyCell c p p') (flag : Nat) : Plant.OnlyCell c p (p'.capClose c flag) := by
  unfold Plant.capClose
  exact ite ((((h.put ..).put ..).put ..).put ..) h

section
variable {raise : Raiser} (hr : ∀ x s v m, Plant.OnlyCell c x (raise x (.cell c) s v m))
include hr

theorem recordWith (h : Plant.OnlyCell c p p') (r : CaveRec) : Plant.OnlyCell c p (recordWith raise p' (.cell c) r) := by
  unfold Sys2Proof.Machine.recordWith
  refine ite (h.recordAsked.onNode _) ?_
  exact (h.recordRefused.bump ..).trans (hr ..)

theorem raiseRecordWith (h : Plant.OnlyCell c p p') (s sev eff : Nat) (esc : Bool) (prm : Nat) :
    Plant.OnlyCell c p (raiseRecordWith raise p' (.cell c) s sev eff esc prm) := by
  unfold Sys2Proof.Machine.raiseRecordWith
  exact ite (h.onNode _) (recordWith hr (h.onNode _) _)

end

/-- A raise at a cell stays in it, whatever it causes. -/
theorem raiseF (fuel : Nat) : ∀ (x : Plant) (s : Nat) (v : Int) (m : Nat), Plant.OnlyCell c x (raiseF fuel x (.cell c) s v m) := by
  induction fuel with
  | zero => exact fun x _ _ _ => refl c x
  | succ n ih =>
    intro x s v m
    have hr : ∀ x s v m, Plant.OnlyCell c x ((fun p q s x m => Machine.raiseF n p q s x m : Raiser) x (.cell c) s v m) := ih
    unfold Machine.raiseF
    extract_lets raise prm p1 oldMask p2 new sev esc eff q1 q2 q3 q4 q5 grace
    have h1 : Plant.OnlyCell c x p1 := ((refl c x).bump ..).put ..
    have k2 : Plant.OnlyCell c x q2 := (h1.put ..).onNode _
    have k3 : Plant.OnlyCell c x q3 := raiseRecordWith hr k2 ..
    have k4 : Plant.OnlyCell c x q4 := by
      simp only [q4, Part.kind, show (2 : Nat) = 0 ↔ False by decide, false_and, if_false]
      exact k3
    have k5 : Plant.OnlyCell c x q5 := ite (k4.capEvent 6) k4
    clear_value p1 q1 q2 q3 q4 q5
    simp only [Part.kind, show (2 : Nat) = 0 ↔ False by decide, false_and, if_false]
    exact ite (ite (h1.onNode _) h1) k5

theorem raise (h : Plant.OnlyCell c p p') (s : Nat) (v : Int) : Plant.OnlyCell c p (p'.raise (.cell c) s v) := h.trans (raiseF ..)

/-! ### Switching -/

theorem setGates (h : Plant.OnlyCell c p p') (g : Nat) : Plant.OnlyCell c p (p'.setGates c g) := h.onCell _
theorem aimGates (h : Plant.OnlyCell c p p') (g : Nat) : Plant.OnlyCell c p (p'.aimGates c g) := (h.setGates _).onCell _
theorem gatesLow (h : Plant.OnlyCell c p p') : Plant.OnlyCell c p (p'.gatesLow c) := (h.setGates _).onCell _
theorem showPending (h : Plant.OnlyCell c p p') : Plant.OnlyCell c p (p'.showPending c) := h.put ..
theorem cutPulse (h : Plant.OnlyCell c p p') (g : Nat) : Plant.OnlyCell c p (p'.cutPulse c g) := by
  unfold Plant.cutPulse
  exact ite (h.bump ..) h

theorem leaveTrim (h : Plant.OnlyCell c p p') (g : Nat) : Plant.OnlyCell c p (p'.leaveTrim c g) := by
  unfold Plant.leaveTrim
  exact ite ((h.cutPulse g).onCell _).showPending h

theorem setPlain (h : Plant.OnlyCell c p p') (st : Nat) : Plant.OnlyCell c p (p'.setPlain c st) := by
  unfold Plant.setPlain
  exact ite h (((h.leaveTrim _).put ..).aimGates _)

theorem holdLow (h : Plant.OnlyCell c p p') (st : Nat) : Plant.OnlyCell c p (p'.holdLow c st) :=
  ((h.leaveTrim 0xFF).put ..).gatesLow

theorem enterTrim (h : Plant.OnlyCell c p p') (neg ph : Bool) (prd cmp : Nat) : Plant.OnlyCell c p (p'.enterTrim c neg ph prd cmp) := by
  unfold Plant.enterTrim
  extract_lets q ty d b target p1 p2 p3 p4
  have h1 : Plant.OnlyCell c p p1 := h.leaveTrim _
  have h2 : Plant.OnlyCell c p p2 := ite (h1.bump ..) h1
  exact ((((((h2.put ..).put ..).put ..).put ..).onCell _).aimGates _).showPending

theorem insertOff (h : Plant.OnlyCell c p p') : Plant.OnlyCell c p (p'.insertOff c) := (h.aimGates _).onCell _

theorem valleyGap (h : Plant.OnlyCell c p p') (prd cmp j : Nat) : Plant.OnlyCell c p (p'.valleyGap c prd cmp j) := by
  unfold Plant.valleyGap
  exact ite h.insertOff (ite h (ite (h.bump ..) h.insertOff))

theorem loadRegs (h : Plant.OnlyCell c p p') : Plant.OnlyCell c p (p'.loadRegs c) := by
  unfold Plant.loadRegs
  extract_lets q e prd cmp p1 p2 p3
  have h1 : Plant.OnlyCell c p p1 := ite (h.put ..) h
  have h3 : Plant.OnlyCell c p p3 := ((h1.put ..).onCell _).showPending
  exact ite (h3.valleyGap ..) h3

theorem writePrd (h : Plant.OnlyCell c p p') (v : Nat) : Plant.OnlyCell c p (p'.writePrd c v) := by
  unfold Plant.writePrd
  exact ite ((h.onCell _).showPending.put ..) (h.onCell _).showPending

theorem writeCmp (h : Plant.OnlyCell c p p') (v : Nat) : Plant.OnlyCell c p (p'.writeCmp c v) := by
  unfold Plant.writeCmp
  exact ite (h.onCell _).showPending.loadRegs (h.onCell _).showPending

theorem takeUp (h : Plant.OnlyCell c p p') (m : Cmd) : Plant.OnlyCell c p (p'.takeUp c m) := by
  unfold Plant.takeUp
  exact ite (((h.bump ..).raise ..).setPlain _) (ite (ite ((h.writePrd _).writeCmp _) (h.enterTrim ..)) (h.setPlain _))

theorem leaveBench (h : Plant.OnlyCell c p p') : Plant.OnlyCell c p (p'.leaveBench c) := by
  unfold Plant.leaveBench
  exact ite (ite (h.put ..) ((h.put ..).setPlain _)) h

theorem fire (h : Plant.OnlyCell c p p') (cause : Nat) : Plant.OnlyCell c p (p'.fire c cause) := by
  unfold Plant.fire
  extract_lets q p1 p2 p3 p4
  have h4 : Plant.OnlyCell c p p3 := ((((((h.holdLow 5).put ..).put ..).bump ..).capEvent 4).onCell _)
  exact ite h (ite (ite ((h4.raise ..).raise ..) (h4.raise ..)) h4)

end Plant.OnlyCell

end Sys2Proof.Machine
end

