-- ==== Sys2Proof/Laws/Reset.lean ====
section
/-! SUPPORT. What a hub's reset leaves alone. -/

namespace Sys2Proof.Machine

/-- Strings that a hub's reset takes out of the station change nothing but the CVC's own record. -/
theorem Plant.forgetStrings_node (l : List Nat) (p : Plant) (q : Part) :
    ((l.foldl (fun p s => p.onStr s (fun i => { i with found := false })) p).node q) = p.node q ∧
    (l.foldl (fun p s => p.onStr s (fun i => { i with found := false })) p).tick = p.tick := by
  induction l generalizing p with
  | nil => exact ⟨rfl, rfl⟩
  | cons a t ih => exact ⟨(ih _).1.trans rfl, (ih _).2.trans rfl⟩

/-- A hub that resets changes no part's record but the CVC's, and no clock. -/
theorem Plant.forgetHub_node (p : Plant) (h : Fin 8) (q : Part) (hq : q ≠ .cvc) : (p.forgetHub h).node q = p.node q := by
  unfold Plant.forgetHub
  split
  · rfl
  · dsimp only
    rw [(Plant.forgetStrings_node _ _ q).1]
    simp only [Plant.onCvc_node, Plant.cPut]
    unfold Plant.put
    rw [Plant.node_onNode, if_neg hq]
    rfl

theorem Plant.forgetHub_tick (p : Plant) (h : Fin 8) : (p.forgetHub h).tick = p.tick := by
  unfold Plant.forgetHub
  split
  · rfl
  · dsimp only
    rw [(Plant.forgetStrings_node _ _ .cvc).2]
    rfl
end Sys2Proof.Machine
end

