-- ==== Sys2Proof/Laws/Server.lean ====
section
/-! SUPPORT. A request that is admitted is carried out, and an accepted write acts and is answered (15 R404). -/

namespace Sys2Proof.Machine

/-- An admitted request passes steps 1 to 5 and is carried out. -/
theorem State.serve_admits {s : State} {r : Req} {m : Msg} (h : s.plant.admits r m = true) :
    s.serve r m = (({ s with plant := s.plant.taken r m } : State).perform (echoOf r m) m).softAfter .cvc := by
  simp only [Plant.admits, Bool.and_eq_true, bne_iff_ne, ne_eq, beq_iff_eq, Bool.not_eq_true'] at h
  obtain ⟨⟨⟨⟨h1, h2⟩, h3⟩, h4⟩, -⟩ := h
  unfold State.serve
  simp only [h1, h2, Bool.not_true, Bool.false_eq_true, if_false]
  cases hs : (s.plant.dequeue (echoOf r m)).takeSession (echoOf r m).rid (echoOf r m).inc with
  | none => simp [hs] at h3
  | some x =>
    simp only [hs, decide_eq_true_eq] at h3
    have ht : (x.begin (echoOf r m)).notePort (echoOf r m) = s.plant.taken r m := by simp [Plant.taken, hs]
    simp only [h3, State.execute, ht, h4, ne_eq, not_true_eq_false, if_false]

/-- Nothing waits for the end of an admitted request. -/
theorem Plant.admits_soft {p : Plant} {r : Req} {m : Msg} (h : p.admits r m = true) :
    ((p.taken r m).node .cvc).power.softDue = false := by
  simp only [Plant.admits, Bool.and_eq_true, Bool.not_eq_true'] at h
  exact h.2

theorem State.softAfter_none {s : State} {q : Part} (h : (s.plant.node q).power.softDue = false) : s.softAfter q = s := by
  simp [State.softAfter, h]

/-- A service WRITE that is accepted acts, and a soft reset follows where one waits. -/
theorem State.svcWrite_accepts {s : State} {q : Part} {key : Nat} {bs : List Nat}
    (h : s.plant.acceptsAt q key bs = true) :
    s.svcWrite q key bs = ({ s with plant := (s.plant.applyWrite q 0 key bs).2 } : State).softAfter q := by
  simp only [Plant.acceptsAt, Bool.and_eq_true, decide_eq_true_eq, beq_iff_eq, Bool.not_eq_true'] at h
  obtain ⟨⟨⟨h1, h2⟩, h3⟩, h4⟩ := h
  cases q <;> simp_all [State.svcWrite, Plant.nodeWrite]

/-- No soft reset waits at a part that accepts a service WRITE. -/
theorem Plant.acceptsAt_soft {p : Plant} {q : Part} {key : Nat} {bs : List Nat}
    (h : p.acceptsAt q key bs = true) : (p.node q).power.softDue = false := by
  simp only [Plant.acceptsAt, Bool.and_eq_true, Bool.not_eq_true'] at h
  exact h.2

/-- A write of a write-only object acts. -/
theorem Plant.applyWrite_wo {p : Plant} {q : Part} {rid key : Nat} {bs : List Nat}
    (h : (rowOf q.kind key).any (fun r => !r.isBlob && r.acc == .wo) = true) :
    p.applyWrite q rid key bs = p.act q rid key (rawVal bs) := by
  unfold Plant.applyWrite
  cases hr : rowOf q.kind key with
  | none => simp [hr] at h
  | some r =>
    simp only [hr, Option.any_some, Bool.and_eq_true, Bool.not_eq_true', beq_iff_eq] at h
    simp [h.1, h.2]

/-- A write of a readable object of no coupled group puts its value into effect. -/
theorem Plant.applyWrite_put {p : Plant} {q : Part} {rid key : Nat} {bs : List Nat} {ty : ObjType}
    (h : (rowOf q.kind key).any (fun r => !r.isBlob && r.acc != .wo && r.acc != .rwc && r.ty == ty) = true) :
    p.applyWrite q rid key bs = (0, p.putWritten q key (decodeVal ty bs)) := by
  unfold Plant.applyWrite
  cases hr : rowOf q.kind key with
  | none => simp [hr] at h
  | some r =>
    simp only [hr, Option.any_some, Bool.and_eq_true, Bool.not_eq_true', bne_iff_ne, ne_eq, beq_iff_eq] at h
    obtain ⟨⟨⟨h1, h2⟩, h3⟩, h4⟩ := h
    simp [h1, h2, h3, h4]

/-- A write of a member of a coupled group reaches its shadow alone (00_scope.md R7). -/
theorem Plant.applyWrite_rwc {p : Plant} {q : Part} {rid key : Nat} {bs : List Nat} {ty : ObjType}
    (h : (rowOf q.kind key).any (fun r => !r.isBlob && r.acc == .rwc && r.ty == ty) = true) :
    p.applyWrite q rid key bs = (0, p.put q (key + 0x40) (decodeVal ty bs)) := by
  unfold Plant.applyWrite
  cases hr : rowOf q.kind key with
  | none => simp [hr] at h
  | some r =>
    simp only [hr, Option.any_some, Bool.and_eq_true, Bool.not_eq_true', beq_iff_eq] at h
    obtain ⟨⟨h1, h3⟩, h4⟩ := h
    simp [h1, h3, h4]

/-- A write of whole bytes is taken as such. -/
theorem Plant.applyWrite_bytes {p : Plant} {q : Part} {rid key : Nat} {bs : List Nat}
    (h : (rowOf q.kind key).any (fun r => r.isBlob) = true) : p.applyWrite q rid key bs = p.takeBytes q key bs := by
  unfold Plant.applyWrite
  cases hr : rowOf q.kind key with
  | none => simp [hr] at h
  | some r => simp_all

/-- The value that a number's bytes carry. -/
theorem rawVal_beBytes {n x : Nat} (hn : n ≤ 8) (hx : x < 256 ^ n) : rawVal (beBytes n x) = x := by
  rw [rawVal, List.take_of_length_le (by rw [length_beBytes]; exact hn), ofBe_beBytes, Nat.mod_eq_of_lt hx]

/-- A service WRITE of a number that is accepted and leaves no soft reset waiting. -/
theorem State.rowWrite_service {s : State} {q : Part} {key n v : Nat} {p' : Plant}
    (hb : (rowOf q.kind key).map (fun row => row.ty.size) = some n) (h : s.plant.acceptsAt q key (beBytes n v) = true)
    (ha : (s.plant.applyWrite q 0 key (beBytes n v)).2 = p') (hs : (p'.node q).power.softDue = false) :
    s.rowWrite (.service q) key v = { s with plant := p' } := by
  cases hr : rowOf q.kind key with
  | none => simp [hr] at hb
  | some row =>
    simp only [hr, Option.map_some, Option.some.injEq] at hb
    simp only [State.rowWrite, hr, hb]
    rw [State.svcWrite_accepts h, ha, State.softAfter_none hs]

/-- A service WRITE of bytes that is accepted and leaves no soft reset waiting. -/
theorem State.rowBytes_service {s : State} {q : Part} {key : Nat} {bs : List Byte} {p' : Plant}
    (h : s.plant.acceptsAt q key (bs.map BitVec.toNat) = true)
    (ha : (s.plant.applyWrite q 0 key (bs.map BitVec.toNat)).2 = p') (hs : (p'.node q).power.softDue = false) :
    s.rowBytes (.service q) key bs = { s with plant := p' } := by
  simp only [State.rowBytes]
  rw [State.svcWrite_accepts h, ha, State.softAfter_none hs]

/-- An accepted WRITE acts and is answered. -/
theorem State.serve_accepts {s : State} {r : Req} {key : Nat} {bs : List Nat} (h : s.plant.accepts r key bs = true) :
    s.serve r (writeReq key bs) =
      ({ s with plant := (s.plant.taken r (writeReq key bs)).writeNow (echoOf r (writeReq key bs)) key bs } : State).softAfter .cvc := by
  cases hr : rowOf 0 key with
  | none => simp [Plant.accepts, hr] at h
  | some row =>
    simp only [Plant.accepts, hr, Bool.and_eq_true, beq_iff_eq, bne_iff_ne, ne_eq] at h
    obtain ⟨⟨⟨⟨h1, h2⟩, h3⟩, h4⟩, h5⟩ := h
    have hn : r.node.toNat = 0 := by simp [h1]
    have hw : writeReq key bs = .write false key row.ty.code 0 true bs := by simp [writeReq, hr]
    have hq' : (partOf (echoOf r (writeReq key bs)).node).getD .cvc = .cvc := by
      change (partOf r.node.toNat).getD .cvc = .cvc
      rw [hn]
      rfl
    have he : (echoOf r (writeReq key bs)).rid = r.rid.toNat := rfl
    rw [State.serve_admits h2]
    have ha : writeAccess 0 key = 0 := by
      by_contra hne
      simp [Plant.writeStatus, hr, firstStatus, hne] at h5
    rw [hw] at hq' he h3 h5 ⊢
    simp only [State.perform, hq', Plant.writeMsg, Part.kind, ha, ne_eq, not_true_eq_false, if_false, he, h3]
    simp [Plant.writeOwn, hr, h4, h5]

/-- An accepted WRITE comes from the CVC's own node. -/
theorem Plant.accepts_node {p : Plant} {r : Req} {key : Nat} {bs : List Nat} (h : p.accepts r key bs = true) :
    (partOf r.node.toNat).getD .cvc = .cvc := by
  unfold Plant.accepts at h
  cases hr : rowOf 0 key with
  | none => simp [hr] at h
  | some row =>
    simp only [hr, Bool.and_eq_true, beq_iff_eq] at h
    rw [h.1.1.1.1]
    rfl

/-- A host's write of a number to the CVC is a WRITE of its bytes. -/
theorem State.hostWrite_serve {s : State} {r : Req} {key n v : Nat} (hb : (rowOf 0 key).map (fun row => row.ty.size) = some n)
    (hq : (partOf r.node.toNat).getD .cvc = .cvc) : s.hostWrite r key v = s.serve r (writeReq key (beBytes n v)) := by
  cases hr : rowOf 0 key with
  | none => simp [hr] at hb
  | some row =>
    simp only [hr, Option.map_some, Option.some.injEq] at hb
    simp [State.hostWrite, hq, Part.kind, writeReq, hr, hb]

/-- An accepted host WRITE of a number acts and is answered. -/
theorem State.hostWrite_accepts {s : State} {r : Req} {key n v : Nat} (hb : (rowOf 0 key).map (fun row => row.ty.size) = some n)
    (h : s.plant.accepts r key (beBytes n v) = true) :
    s.hostWrite r key v =
      ({ s with
        plant := (s.plant.taken r (writeReq key (beBytes n v))).writeNow (echoOf r (writeReq key (beBytes n v))) key (beBytes n v) } :
          State).softAfter .cvc := by
  rw [State.hostWrite_serve hb (Plant.accepts_node h), State.serve_accepts h]

/-- The answer leaves what waits for the end of the request. -/
theorem Plant.answer_soft (p : Plant) (e : Echo) (st : Nat) (more : Bool) (body : List Nat) (q : Part) :
    ((p.answer e st more body).node q).power = (p.node q).power := by
  simp [Plant.answer, Plant.sendMsg, Plant.onPortSt, Plant.onSession, Plant.onGdp]

/-- Nothing waits for the end of an accepted WRITE. -/
theorem Plant.accepts_soft {p : Plant} {r : Req} {key : Nat} {bs : List Nat} (h : p.accepts r key bs = true) :
    ((p.taken r (writeReq key bs)).node .cvc).power.softDue = false := by
  unfold Plant.accepts at h
  cases hr : rowOf 0 key with
  | none => simp [hr] at h
  | some row =>
    simp only [hr, Bool.and_eq_true] at h
    exact Plant.admits_soft h.1.1.1.2

/-- An accepted WRITE whose act answers 0 and leaves no soft reset waiting. -/
theorem State.serve_answered {s : State} {r : Req} {key : Nat} {bs : List Nat} {effect : Plant → Plant}
    (h : s.plant.accepts r key bs = true) (ha : ∀ p : Plant, p.applyWrite .cvc r.rid.toNat key bs = (0, effect p))
    (hs : ∀ p : Plant, (p.node .cvc).power.softDue = false → ((effect p).node .cvc).power.softDue = false) :
    s.serve r (writeReq key bs) = { s with plant := s.plant.answered r key bs effect } := by
  rw [State.serve_accepts h]
  have he : (echoOf r (writeReq key bs)).rid = r.rid.toNat := rfl
  rw [State.softAfter_none]
  · simp [Plant.writeNow, he, ha, Plant.answered]
  · simp [Plant.writeNow, he, ha, Plant.answer_soft, hs _ (Plant.accepts_soft h)]

/-- An accepted host WRITE of a number whose act answers 0 and leaves no soft reset waiting. -/
theorem State.hostWrite_answered {s : State} {r : Req} {key n v : Nat} {effect : Plant → Plant}
    (hb : (rowOf 0 key).map (fun row => row.ty.size) = some n) (h : s.plant.accepts r key (beBytes n v) = true)
    (ha : ∀ p : Plant, p.applyWrite .cvc r.rid.toNat key (beBytes n v) = (0, effect p))
    (hs : ∀ p : Plant, (p.node .cvc).power.softDue = false → ((effect p).node .cvc).power.softDue = false) :
    s.hostWrite r key v = { s with plant := s.plant.answered r key (beBytes n v) effect } := by
  rw [State.hostWrite_serve hb (Plant.accepts_node h), State.serve_answered h ha hs]

/-- A write-only number of the CVC, written by its owner: it acts and is answered. -/
theorem State.hostWrite_act {s : State} {r : Req} {key n v : Nat} {effect : Plant → Plant}
    (hb : (rowOf 0 key).map (fun row => row.ty.size) = some n)
    (hw : (rowOf Part.cvc.kind key).any (fun r => !r.isBlob && r.acc == .wo) = true) (hn : n ≤ 8) (hv : v < 256 ^ n)
    (h : s.plant.accepts r key (beBytes n v) = true) (ha : ∀ p : Plant, p.act .cvc r.rid.toNat key v = (0, effect p))
    (hs : ∀ p : Plant, (p.node .cvc).power.softDue = false → ((effect p).node .cvc).power.softDue = false) :
    s.hostWrite r key v = { s with plant := s.plant.answered r key (beBytes n v) effect } :=
  State.hostWrite_answered hb h (fun p => by
    rw [Plant.applyWrite_wo hw, rawVal_beBytes hn hv]
    exact ha p) hs

/-- A whole DOMAIN value of the CVC, written by its owner: it is taken and answered. -/
theorem State.hostBytes_answered {s : State} {r : Req} {key : Nat} {bs : List Byte} {effect : Plant → Plant}
    (hd : (rowOf 0 key).any (fun row => row.ty == .domain) = true) (h : s.plant.acceptsWhole r key (bs.map BitVec.toNat) = true)
    (ha : (s.plant.gathered r key (bs.map BitVec.toNat)).applyWrite .cvc r.rid.toNat key (bs.map BitVec.toNat) =
      (0, effect (s.plant.gathered r key (bs.map BitVec.toNat))))
    (hs : ∀ p : Plant, (p.node .cvc).power.softDue = false → ((effect p).node .cvc).power.softDue = false) :
    s.hostBytes r key bs = { s with plant := s.plant.answeredWhole r key (bs.map BitVec.toNat) effect } := by
  cases hr : rowOf 0 key with
  | none => simp [hr] at hd
  | some row =>
    simp only [hr, Option.any_some, beq_iff_eq] at hd
    simp only [Plant.acceptsWhole, hr, Bool.and_eq_true, beq_iff_eq, decide_eq_true_eq] at h
    obtain ⟨⟨⟨⟨⟨⟨⟨h1, h2⟩, h3⟩, h4⟩, h5⟩, h6⟩, h7⟩, h8⟩ := h
    have hn : r.node.toNat = 0 := by simp [h1]
    have hw : writeReq key (bs.map BitVec.toNat) = .write false key row.ty.code 0 true (bs.map BitVec.toNat) := by simp [writeReq, hr]
    have hq' : (partOf (echoOf r (writeReq key (bs.map BitVec.toNat))).node).getD .cvc = .cvc := by
      change (partOf r.node.toNat).getD .cvc = .cvc
      rw [hn]
      rfl
    have he : (echoOf r (writeReq key (bs.map BitVec.toNat))).rid = r.rid.toNat := rfl
    have ha' : writeAccess 0 key = 0 := by
      by_contra hne
      simp [Plant.writeStatus, hr, firstStatus, hne] at h8
    have hsoft := Plant.admits_soft h2
    unfold State.hostBytes
    rw [← hd, ← hw, State.serve_admits h2]
    have key' : (({ s with plant := s.plant.taken r (writeReq key (bs.map BitVec.toNat)) } : State).perform
        (echoOf r (writeReq key (bs.map BitVec.toNat))) (writeReq key (bs.map BitVec.toNat))) =
        { s with plant := s.plant.answeredWhole r key (bs.map BitVec.toNat) effect } := by
      rw [hw] at hq' he h3 h5 h6 hsoft
      rw [hw]
      simp only [State.perform, hq', Plant.writeMsg, Part.kind, ha', ne_eq, not_true_eq_false, if_false, he, h3]
      have hz : firstStatus [0, 0, must (row.ty.code == row.ty.code) 0x0301] = 0 := by simp [firstStatus, must]
      have hts : (s.plant.taken r (.write false key row.ty.code 0 true (bs.map BitVec.toNat))).takeSegment 0 key r.rid.toNat row.maxLen 0 true
          (bs.map BitVec.toNat) = (0, some (bs.map BitVec.toNat), s.plant.gathered r key (bs.map BitVec.toNat)) := by
        simp only [Plant.takeSegment, if_true, List.nil_append, not_lt.2 h7, if_false, Plant.gathered, hw]
      simp only [Plant.writeOwn, hr, h5, h6, hz, he, hts, h8]
      rw [if_pos h4]
      simp [Plant.writeNow, he, ha, Plant.answeredWhole, hw]
    rw [key', State.softAfter_none]
    simp only [Plant.answeredWhole, Plant.answer_soft]
    exact hs _ (by simpa [Plant.gathered, Plant.onGdp] using hsoft)

end Sys2Proof.Machine
end

