-- ==== Sys2Proof/WellFormed.lean ====
section
/-! DEFINITION. Which commands are well formed: what a command names exists in the station (01 R16, R18, 08 R225, 12 R333). -/

namespace Sys2Proof

/-- The part has the lane (08 R225). -/
def Port.wf (q : Port) : Bool := decide (q.lane.val < Machine.laneCount q.part.kind)

/-- The part has the fault source (12 R331, R333, R334). -/
def srcWf (q : Part) (s : Source) : Bool := decide (s.val < Machine.sourceCount q.kind)

/-- The lane an operand names exists; a path 09 R230 allows at most 96 data blocks in a frame. -/
def Frame.wf (f : Frame) : Bool := decide (f.data.length ≤ 96)

/-- A command names only what exists. -/
def Instr.wf : Instr → Bool
  | .command q f | .collect q f | .trip q f | .sync q f _ | .syncUp q f _ | .delayReq q f _ | .delayResp q f _
  | .serviceRead q f | .serviceWrite q f | .serviceReadSeg q f | .serviceWriteSeg q f | .discover q f
  | .idle q f => q.wf && f.wf
  | .collectLand _ f | .serviceResponse _ f => f.wf
  | .abortBlock q | .tripPreempt q | .arbiterGrant q | .delayReqSend q | .laneLost q _ | .trainTimeout q | .laneUp q
  | .lstateReqTimeout q | .lstateReqRetry q | .laneWake q | .eyeEstimate q _ _ | .mendCountReached q
  | .prbsSecond q _ | .blockLock q | .prbsSync q | .prbsSyncLoss q => q.wf
  | .lstateReq q _ | .lstateAck q _ | .lstateNak q _ | .lstateUp q _ | .lstateDown q _ | .noticeBreak q _
  | .noticeMend q _ | .noticePass q _ | .noticeServe q _ | .plan q _ => q.wf
  | .noteExpire q s => srcWf q s
  | _ => true

end Sys2Proof
end

