-- ==== Sys2Proof/Tests/Slice0.lean ====
section
/-! SUPPORT. Tests: commands that are not well formed, the worked numbers of the spec, and for every obligation of
Certificates/Slice0/Obligations.lean a concrete state and operands that meet its hypotheses. -/

namespace Sys2Proof.Tests

open Sys2Proof Sys2Proof.Machine

set_option maxRecDepth 100000

/-! Ill-formed commands, one for each check. -/

/-- Ill formed: a cell has two lanes (08 R225). -/
theorem test_wf_port : (Instr.laneUp ⟨.cell ⟨0, 0⟩, 2⟩).wf = false := by decide
/-- Ill formed: a hub has 48 sources (12 R333). -/
theorem test_wf_source : (Instr.noteExpire (.hub 0) 48).wf = false := by decide
/-- Ill formed: a frame has at most 96 data blocks (09 R230). -/
theorem test_wf_frame : (Instr.collectLand 0 ⟨0, List.replicate 97 0, 0, 0⟩).wf = false := by decide

/-! The spec's own numbers. Each expected value stands in the section its docstring names. -/

/-- The spec's PU32 words of 0.75 pu and −1.5 pu, and the saturated 150 pu (00, Worked example). -/
theorem test_pu : rdiv (75 * puOne) 100 = 0x00C00000 ∧ unsigned 32 (rdiv (-15 * puOne) 10) = 0xFE800000 ∧
    satPU (100 * puOne + 50 * puOne) = 0x7FFFFFFF ∧ satHit (100 * puOne + 50 * puOne) = true := by decide
/-- The gain and the limits of arm 0 (04, Worked example). -/
theorem test_loop_values : rdiv (12 * puOne) 10 = 0x01333333 ∧ unsigned 32 (rdiv (-12 * puOne) 10) = 0xFECCCCCD ∧
    rdiv (25 * puOne) 10000 = 0xA3D7 := by decide
/-- Parameters of the ramp table: i_max and i_rind, ramp_rate 0.0025 pu. -/
def rampPar (lim iRind : Int) : List Int :=
  (List.replicate 0x2E 0).set 5 lim |>.set 6 41943 |>.set 0x2B iRind |>.set 0x2C puMax
/-- A run of the ramp from r towards t. -/
def ramp (iRind r t : Int) : LoopOut := loopStep (rampPar puOne iRind) { (default : ArmLoop) with r := r, sPrev := r } ⟨t, 0, false, 0, 0, 0, 0⟩
/-- Cycles 1, 6 and 8 of the ramp table: a step of the rate, its end on the target, a Rind limit that wins (04 R86). -/
theorem test_ramp : ((ramp puOne 1677722 1845494).r, (ramp puOne 1635779 1593836).r, (ramp 1509949 1593836 1593836).r) =
    (1719665, 1593836, 1509949) := by decide
/-- Its flags: RAMP and RIND_LIM in cycle 8 (04 R84, R86). -/
theorem test_ramp_flags : bitOf (ramp 1509949 1593836 1593836).flags 11 = true ∧ bitOf (ramp 1509949 1593836 1593836).flags 13 = true ∧
    bitOf (ramp puOne 1635779 1593836).flags 11 = false := by decide
/-- The accumulator of 95 cells' squares (05, Worked example): 40 and 35 and 20 of the three voltages. -/
theorem test_pmac : [(40, 0x01020000), (35, 0x01000000), (20, 0x00FE0000)].foldl
    (fun (a : Int) (x : Nat × Int) => (List.range x.1).foldl (fun a _ => satPU (pmacX a x.2 x.2)) a) 0 = 0x5F50F000 := by decide
/-- PRD, CMP and the dithered half-widths of cell C6 (06, Worked example). -/
theorem test_trim : prdOf 5000 = 1000 ∧ cmpOf 19648 1000 = 307000 ∧ halfTaps false true 1000 307000 40 = 299 * 64 + 52 ∧
    halfTaps false true 1000 307000 41 = 299 * 64 + 51 := by decide
/-- The store of 1,000 µF at 24 V (07, Worked example). -/
theorem test_store : storeUnits 1000 24000 9000 = 24750 := by decide
/-- V_MEAS of a full report of 1,598 V (09, Worked example). -/
theorem test_v_meas : vMeas 159800000 1600000 = 0x00FFAE14 := by decide
/-- The check of the frame bytes and of ordered sets: the published check values of the two generators (09 R246, 08 R205). -/
theorem test_checks : crc32c [0x31, 0x32, 0x33, 0x34, 0x35, 0x36, 0x37, 0x38, 0x39] = 0xE3069283 ∧
    crc8 [0x31, 0x32, 0x33, 0x34, 0x35, 0x36, 0x37, 0x38, 0x39] = 0xF4 := by decide
/-- The path of the worst cell fed from both ends (02, Worked example). -/
theorem test_path : pathUp 178850 24 = 491810 ∧ pathDown 178850 24 = 495650 ∧ pathUp 237650 48 = 857810 ∧
    pathDown 237650 48 = 861650 := by decide
/-- A servo step of 946 units moves the rate by 2,887 ppb (10, Worked example). -/
theorem test_servo : ratePpb (servoClock (Inhabited.default : Clock) 0 946 5120 5000).1.rho = 2887 := by decide
/-- A rise of 3.0 pu per ms is above 2.0, and one of 1.5 is not (11, Worked example). -/
theorem test_sldr : sldrBreach [644245, 0, 0, 0, 0] 4 64 20 (2 * puOne) = true ∧ sldrBreach [322122, 0, 0, 0, 0] 4 64 20 (2 * puOne) = false := by decide
/-- The phase step of 1 kHz at Tc = 5,000 ns (04, Worked example). -/
theorem test_sweep : sweepStep 1000000 10000000 5000 0 2 false = 21474836 := by decide
/-- An authority epoch after a takeover (14, Worked example). -/
theorem test_epoch : epochNewer 8 7 = true ∧ epochNewer 7 8 = false ∧ epochNewer 0 0xFFFF = true := by decide
/-- The WRITE of harp.hyst as its 44 bytes (15, Worked example). -/
theorem test_datagram :
    (let m := [0x01, 0x02, 0x10, 0x00, 0, 0, 0, 3, 0, 0, 0, 0xA1, 0x7C, 0x30, 0, 0x42, 0, 3, 0, 0, 0, 0, 0, 0x10, 0x24, 0x10, 2, 4,
      0, 0, 0, 0, 0, 4, 0, 0, 0, 0, 0x1F, 0x40]
     datagramMsg (m ++ beBytes 4 (crc32c m))) = some (.write true 0x241002 4 0 false [0, 0, 0x1F, 0x40]) := by decide

/-! Witnesses: the states and operands named here meet the hypotheses of the obligation of the same name. -/

/-- The first cell of string 0. -/
def c0 : CellId := ⟨0, 0⟩
/-- A part whose core runs. -/
def start (p : Plant) (q : Part) : Plant :=
  p.onNode q (fun n => { n with power := { n.power with core := true, held := false, rails := true } })
/-- The CVC, hub 0 and cell c0 run. -/
def base : Plant := [.cvc, .hub 0, .cell c0].foldl start State.reset.plant
/-- A state of a plant. -/
def on (p : Plant) : State := { State.reset with plant := p }
/-- The request of RID 7 on port 0. -/
def r0 : Req := ⟨0, 1, 7, 1, 0⟩
/-- Port 0 serves, and RID 7 owns the station. -/
def hosted : Plant := base |>.put .cvc (hpKey 0 1) 1 |>.put .cvc (hpKey 0 8) 1 |>.put .cvc (hpKey 0 3) 0xC0A8640A |>.put .cvc K.gdpOwnerRid 7 |>.put .cvc K.convState 2
/-- An item of slot 5. -/
def item0 : Item := { slot := 5, inst := 0, critical := true, k := 1, sAt := 0, hAt := 0, epoch := 1, ops := [1, 2], startTick := 0, usedTicks := 0 }
/-- A plan. -/
def planV0 : PlanV := { a := 1, b := 1, brk := false, lh := 1, lt := 1, form := 1 }

/-- That plan as received. -/
def planRx0 : PlanRx := { (default : PlanRx) with a := 1, b := 1, lh := 1, lt := 1, form := 1 }

/-- A filed command, and one of INSERT_NEG's kind. -/
def filed0 : Filed := { k := 1, cmd := plainCmd 2 1, epoch := 0, stale := false }
def filedNeg : Filed := { k := 1, cmd := { plainCmd 4 1 with neg := true }, epoch := 0, stale := false }
/-- Engine 0 runs item0, with a word at its pc. -/
def engState (w : Nat) : State :=
  { on (base.onEng 0 (fun g => { g with item := some item0, regs := { g.regs with pc := 0x1000 } })) with
    mem := memWrite [] (tcmKey 0 0x1000) 4 w }
/-- Arm 0's loop runs; its target is a constant (0), or an operand that has not come (1); or the report of cell (1, 0) is its measurement,
which has not landed, with an alternate (2). -/
def loopState (n : Nat) : State :=
  on (base |>.put .cvc K.redRole 3 |>.put .cvc K.convState 5 |>.put .cvc K.stationStringArm 0 |>.put .cvc K.stationHubsExpected 1 |>.put .cvc
    (K.stringCells + 1) 1 |>.onLoop 0 (fun x => { x with
    par := if n = 0 then [0, 0, 0, 1] else if n = 1 then [] else [0x4040, 0, 0, 1] }))
/-- RUNNING, with arms of no strings; a side's power is above its limit in channel A, B or both. -/
def breachState (a b : Bool) : State :=
  let chan := fun (x : Bool) (c : Chan) => if x then { c with inputs := [(0, [puOne]), (1, [puOne])] } else c
  on ([(K.convState, 5), (K.rindSaState, 2), (K.rindSaState + 1, 2), (K.rindInRole, 1), (K.rindInRole + 1, 3), (K.rindInRole + 256, 1),
    (K.rindInRole + 257, 3), (K.rindPMax, 0), (K.rindSlpdCycles, 1)].foldl (fun p x => p.put .cvc x.1 x.2)
      ((base.onChan 0 (chan a)).onChan 1 (chan b)))
/-- Port 0 hears its best master. -/
def ptpState : State :=
  on (base |>.put .cvc K.timeSource 0 |>.put .cvc K.timePtpPort 0 |>.put .cvc K.timePtpActive 0 |>.onCvc (fun c => { c with ptp := { c.ptp with
    best := some ⟨1, 0, 0, 0, 0, 0, 0, 1, 0, false, 0⟩ } }))
/-- A master of domain 0. -/
def announce0 : Announce := ⟨1, 0, 0, 0, 0, 0, 0, 1, 0, false, 0⟩
/-- A cell in a power state, with 1 J to spend. -/
def richState (n : Nat) : State := on (base |>.put (.cell c0) K.nrgState n |>.put (.cell c0) K.nrgAvail 100000)
/-- Bytes of an entry of an image: its key, its length and its value, padded. -/
def imageEntry (k : Nat) (v : List Nat) : List Nat :=
  leBytes 2 (k / 256) ++ [k % 256, v.length] ++ v ++ List.replicate ((4 - v.length % 4) % 4) 0
/-- What a safety image must give beside the defaults: the roles of side A's inputs, and the bases. -/
def given0 : List (Nat × Int) :=
  [(K.rindInRole, 1), (K.rindInRole + 1, 3), (K.rindInRole + 256, 1), (K.rindInRole + 257, 3), (K.rindBaseV, 1000), (K.rindBaseI, 1000),
   (K.rindSlewN, 10), (K.rindBaseVcell, 1000)]
/-- A safety image of the defaults and these. -/
def safetyImage0 : List Nat :=
  let body := rsKeys.flatMap (fun k => imageEntry k (match rowOf 0 k with | some r => encodeVal r.ty (Tab.get (objDefault 0) given0 k) | none => []))
  leBytes 4 0x52494E44 ++ leBytes 2 rsKeys.length ++ leBytes 2 1 ++ leBytes 4 1 ++ leBytes 4 body.length ++ leBytes 4 (crc32c body) ++
    body ++ List.replicate 132 0
/-- It is staged and verified. -/
def safetyState : State := on (hosted |>.put .cvc K.rindImageStatus 1 |>.putBlob .cvc K.rindImageStage safetyImage0)
/-- Firmware of the CVC without a body is staged. -/
def fwState : State :=
  on (base |>.putBlob .cvc K.bootFwLoad (leBytes 4 0x484B5831 ++ leBytes 2 1 ++ leBytes 2 7200 ++ leBytes 4 2 ++ leBytes 4 0 ++ leBytes 4 0 ++
    List.replicate 132 0) |>.put .cvc K.bootKeys 3)
/-- The sequencer waits in state 0, and an event meets condition 0. -/
def seqState : State :=
  on (base |>.put .cvc K.acqState 2 |>.put .cvc K.acqCond 0x80614000 |>.onCvc (fun c => { c with acqEv := [(5, 0)] }))
/-- The owner has a batch open. -/
def opened : Plant :=
  hosted |>.put .cvc K.gdpBatchState 1 |>.put .cvc K.gdpBatchSeq 1 |>.onCvc (fun c => { c with gdp := { c.gdp with
    sessions := [freshSession 7 1] } })
/-- A CLAIM as 15 R408 lays it out. -/
def claimBytes : List Byte :=
  let m := [1, 7, 0, 0] ++ beBytes 4 1 ++ beBytes 8 7 ++ [0, 1, 0, 0, 0, 0, 0, 4] ++ [5, 0, 0, 0]
  (m ++ beBytes 4 (crc32c m)).map (BitVec.ofNat 8)
/-- A service request for a host. -/
def svcReq0 : SvcReq := { (default : SvcReq) with tag := 1, node := 4096, what := .host 0 7 1 1 1 }
/-- A record of the Cave. -/
def rec0 : CaveRec := { (default : CaveRec) with seq := 1 }
/-- A subscription. -/
def sub0 : Subscr := { (default : Subscr) with id := 1, rid := 7, mode := 2, period := 10, key := K.convState }
/-- What a loop takes in. -/
def loopIn0 : LoopIn := ⟨0, 0, false, 0, 0, 0, 0⟩
/-- Every clause of ConverterCompletes has a case that meets its hypotheses. -/
theorem witness_ConverterCompletes :
    (∃ (s : State), s.plant.up .cvc = true ∧ (s.plant.node .cvc).sched.valid = true) ∧
    (∃ (s : State), s.plant.up .cvc = true ∧ s.plant.conv = 3) ∧
    (∃ (r : Req) (s : State), s.plant.accepts r K.convRequest (beBytes 1 1) = true) ∧
    (∃ (r : Req) (s : State), s.plant.accepts r K.convRequest (beBytes 1 2) = true) ∧
    (∃ (r : Req) (s : State), s.plant.accepts r K.convRequest (beBytes 1 3) = true) ∧
    (∃ (r : Req) (s : State), s.plant.accepts r K.convRequest (beBytes 1 4) = true) ∧
    (∃ (r : Req) (s : State), s.plant.accepts r K.convRequest (beBytes 1 5) = true) :=
  ⟨⟨on (base |>.onNode .cvc (fun n => { n with sched := { n.sched with valid := true } })), by decide⟩,
    ⟨on (base |>.put .cvc K.convState 3), by decide⟩,
    ⟨r0, on hosted, by decide⟩,
    ⟨r0, on (hosted |>.put .cvc K.convState 4), by decide⟩,
    ⟨r0, on (hosted |>.put .cvc K.convState 5), by decide⟩,
    ⟨r0, on hosted, by decide⟩,
    ⟨r0, on (hosted |>.put .cvc K.convState 7), by decide⟩⟩

/-- Every clause of LoopRunsComplete has a case that meets its hypotheses. -/
theorem witness_LoopRunsComplete :
    (∃ (s : State), s.plant.up .cvc = true ∧ (s.plant.node .cvc).sched.valid = true ∧ s.plant.cvc.hLast ≤ s.plant.harpCycle) ∧
    (∃ (a : Arm) (s : State) (o : HarpOut), s.plant.up .cvc = true ∧ (s.plant.harpArm a.val).ready = true ∧ (s.plant.harpArm a.val).out =
      some o) ∧
    (∃ (a : Arm) (s : State), s.plant.up .cvc = true ∧ (s.plant.harpArm a.val).ready = true ∧ (s.plant.harpArm a.val).out = none) ∧
    (∃ (a : Arm) (s : State) (i : LoopIn × Bool), s.plant.loopInputs a.val (s.plant.loopCycle a.val) false = some i ∧ s.plant.up .cvc =
      true ∧ s.plant.loopRuns a.val = true ∧ (s.plant.loop a.val).lastK ≤ s.plant.loopCycle a.val) ∧
    (∃ (a : Arm) (s : State), s.plant.up .cvc = true ∧ (s.plant.loop a.val).waiting = true) ∧
    (∃ (a : Arm) (s : State), s.plant.up .cvc = true ∧ s.plant.loopRuns a.val = true ∧ (s.plant.loop a.val).lastK ≤ s.plant.loopCycle
      a.val ∧ s.plant.loopInputs a.val (s.plant.loopCycle a.val) false = none ∧ s.plant.loopInputs a.val (s.plant.loopCycle a.val) true =
      none) ∧
    (∃ (a : Arm) (s : State) (i : LoopIn × Bool), s.plant.loopInputs a.val (s.plant.loopCycle a.val) true = some i ∧ s.plant.up .cvc =
      true ∧ s.plant.loopRuns a.val = true ∧ (s.plant.loop a.val).lastK ≤ s.plant.loopCycle a.val ∧ s.plant.loopInputs a.val
      (s.plant.loopCycle a.val) false = none) :=
  ⟨⟨on (base |>.onNode .cvc (fun n => { n with sched := { n.sched with valid := true } })), by decide⟩,
    ⟨0, on (base |>.onHarpArm 0 (fun x => { x with ready := true, out := some default })), default, by decide⟩,
    ⟨0, on (base |>.onHarpArm 0 (fun x => { x with ready := true })), by decide⟩,
    ⟨0, loopState 0, _, rfl, by decide⟩,
    ⟨0, on (base |>.onLoop 0 (fun x => { x with waiting := true })), by decide⟩,
    ⟨0, loopState 1, by decide⟩,
    ⟨0, loopState 2, _, rfl, by decide⟩⟩

/-- Every clause of LoopWritesComplete has a case that meets its hypotheses. -/
theorem witness_LoopWritesComplete :
    (∃ (r : Req) (a : Arm) (s : State), s.plant.accepts r (K.loopApply + a.val) (beBytes 1 1) = true) ∧
    (∃ (r : Req) (a : Arm) (s : State), s.plant.accepts r (K.loopApply + a.val) (beBytes 1 2) = true) ∧
    (∃ (r : Req) (a : Arm) (s : State), s.plant.accepts r (K.loopApply + a.val) (beBytes 1 3) = true) ∧
    (∃ (r : Req) (side : Fin 2) (s : State), s.plant.accepts r (K.harpApplyA + side.val) (beBytes 1 1) = true) ∧
    (∃ (r : Req) (a : Arm) (m : BitVec 16) (s : State), s.plant.accepts r (K.harpFlagsClear + a.val) (beBytes 2 m.toNat) = true) ∧
    (∃ (r : Req) (a : Arm) (m : BitVec 16) (s : State), s.plant.accepts r (K.loopFlagsClear + a.val) (beBytes 2 m.toNat) = true) :=
  ⟨⟨r0, 0, on hosted, by decide⟩,
    ⟨r0, 0, on hosted, by decide⟩,
    ⟨r0, 0, on hosted, by decide⟩,
    ⟨r0, 0, on hosted, by decide⟩,
    ⟨r0, 0, 0, on hosted, by decide⟩,
    ⟨r0, 0, 0, on hosted, by decide⟩⟩

/-- Every clause of InjectionCompletes has a case that meets its hypotheses. -/
theorem witness_InjectionCompletes :
    (∃ (r : Req) (s : State), s.plant.accepts r K.loopInjCtrl (beBytes 1 1) = true) ∧
    (∃ (r : Req) (s : State), s.plant.accepts r K.loopInjCtrl (beBytes 1 2) = true) ∧
    (∃ (s : State) (j : Nat), j = s.plant.c K.loopInjStep + 1 ∧ s.plant.up .cvc = true ∧ s.plant.c K.loopInjState = 2 ∧ s.plant.c K.loopInjKind
      = 1 ∧ s.plant.injStepLen ≤ s.plant.cvc.inj.inStep ∧ j < s.plant.c K.loopInjSteps) ∧
    (∃ (s : State), s.plant.up .cvc = true ∧ s.plant.c K.loopInjState = 2 ∧ s.plant.injLength ≠ 0 ∧ s.plant.injLength ≤ s.plant.cvc.inj.cyc) :=
  ⟨⟨r0, on (hosted |>.put .cvc K.convState 5 |>.put .cvc K.stationStringArm 0 |>.put .cvc K.stationHubsExpected 1 |>.put .cvc K.loopInjArms 1
      |>.put .cvc K.loopInjKind 0 |>.put .cvc K.loopInjF0 1), by decide⟩,
    ⟨r0, on hosted, by decide⟩,
    ⟨on (base |>.put .cvc K.loopInjState 2 |>.put .cvc K.loopInjKind 1 |>.put .cvc K.loopInjSteps 2 |>.put .cvc K.loopInjSettle 0 |>.put .cvc
      K.loopInjMeasure 0), _, rfl, by decide⟩,
    ⟨on (base |>.put .cvc K.loopInjState 2 |>.put .cvc K.loopInjKind 0 |>.put .cvc K.loopInjLength 5 |>.onCvc (fun c =>
      { c with inj := { c.inj with cyc := 5 } })), by decide⟩⟩

/-- Every clause of EngineArithmeticCompletes has a case that meets its hypotheses. -/
theorem witness_EngineArithmeticCompletes :
    (∃ (e : Eng) (s : State), s.plant.up .cvc = true ∧ s.plant.engRuns e = true) ∧
    (∃ (e : Eng) (s : State), s.plant.up .cvc = true ∧ s.plant.engRuns e = true) ∧
    (∃ (e : Eng) (s : State), s.plant.up .cvc = true ∧ s.plant.engRuns e = true) ∧
    (∃ (e : Eng) (s : State), s.plant.up .cvc = true ∧ s.plant.engRuns e = true) :=
  ⟨⟨0, on (base |>.onEng 0 (fun g => { g with item := some item0 })), by decide⟩,
    ⟨0, on (base |>.onEng 0 (fun g => { g with item := some item0 })), by decide⟩,
    ⟨0, on (base |>.onEng 0 (fun g => { g with item := some item0 })), by decide⟩,
    ⟨0, on (base |>.onEng 0 (fun g => { g with item := some item0 })), by decide⟩⟩

/-- Every clause of EngineVatCompletes has a case that meets its hypotheses. -/
theorem witness_EngineVatCompletes :
    (∃ (e : Eng) (rs1 : RegNo) (rs2 : RegNo) (s : State) (it : Item) (d : Nat × Plant), d = s.plant.deposit (some it) 0 (bits (s.plant.xReg e
      rs1.val) 15 4) (bits (s.plant.xReg e rs1.val) 2 0) (bits (s.plant.xReg e rs1.val) 31 16) (s.plant.xReg e rs2.val) ∧ s.plant.up .cvc =
      true ∧ (s.plant.eng e).item = some it) ∧
    (∃ (e : Eng) (rs1 : RegNo) (rs2 : RegNo) (s : State) (it : Item) (d : Nat × Plant), d = s.plant.deposit (some it) 0 (bits (s.plant.xReg e
      rs1.val) 15 4) (bits (s.plant.xReg e rs1.val) 2 0) (bits (s.plant.xReg e rs1.val) 31 16) (s.plant.xReg e rs2.val) ∧ s.plant.up .cvc =
      true ∧ (s.plant.eng e).item = some it) ∧
    (∃ (e : Eng) (rs1 : RegNo) (s : State) (it : Item), s.plant.up .cvc = true ∧ (s.plant.eng e).item = some it ∧ s.plant.xReg e rs1.val % 8 <
      ctrlTags (s.plant.ctrlOf it.slot)) ∧
    (∃ (e : Eng) (s : State), s.plant.up .cvc = true ∧ s.plant.engRuns e = true) ∧
    (∃ (e : Eng) (s : State), s.plant.up .cvc = true ∧ s.plant.engRuns e = true) ∧
    (∃ (e : Eng) (s : State) (it : Item) (p : Plant), p = (s.plant.noteLate it).engIdle e ∧ s.plant.up .cvc = true ∧ (s.plant.eng e).item = some
      it ∧ p.epochOf it.slot = it.epoch ∧ ctrlCyclic (p.ctrlOf it.slot) = true) ∧
    (∃ (e : Eng) (s : State), s.plant.up .cvc = true ∧ s.plant.engRuns e = true) ∧
    (∃ (e : Eng) (s : State), s.plant.up .cvc = true ∧ s.plant.engRuns e = true) ∧
    (∃ (e : Eng) (s : State) (it : Item), s.plant.up .cvc = true ∧ (s.plant.eng e).item = some it) ∧
    (∃ (e : Eng) (s : State) (it : Item), s.plant.up .cvc = true ∧ (s.plant.eng e).item = some it) ∧
    (∃ (e : Eng) (s : State) (it : Item), s.plant.up .cvc = true ∧ (s.plant.eng e).item = some it) :=
  ⟨⟨0, 1, 1, on (base |>.onEng 0 (fun g => { g with item := some item0 })), item0, _, rfl, by decide⟩,
    ⟨0, 1, 1, on (base |>.onEng 0 (fun g => { g with item := some item0 })), item0, _, rfl, by decide⟩,
    ⟨0, 1, on (base |>.onEng 0 (fun g => { g with item := some item0 }) |>.onSlot 5 (fun x =>
      { x with ctrl := 0xE20F0000, tags := [0x20000001, 0x60000000] })), item0, by decide⟩,
    ⟨0, on (base |>.onEng 0 (fun g => { g with item := some item0 })), by decide⟩,
    ⟨0, on (base |>.onEng 0 (fun g => { g with item := some item0 })), by decide⟩,
    ⟨0, on (base |>.onEng 0 (fun g => { g with item := some item0 }) |>.onSlot 5 (fun x =>
      { x with ctrl := 0xE20F0000, tags := [0x20000001, 0x60000000] })), item0, _, rfl, by decide⟩,
    ⟨0, on (base |>.onEng 0 (fun g => { g with item := some item0 })), by decide⟩,
    ⟨0, on (base |>.onEng 0 (fun g => { g with item := some item0 })), by decide⟩,
    ⟨0, on (base |>.onEng 0 (fun g => { g with item := some item0 })), item0, by decide⟩,
    ⟨0, on (base |>.onEng 0 (fun g => { g with item := some item0 })), item0, by decide⟩,
    ⟨0, on (base |>.onEng 0 (fun g => { g with item := some item0 })), item0, by decide⟩⟩

/-- Every clause of RiscvCompletes has a case that meets its hypotheses. -/
theorem witness_RiscvCompletes :
    (∃ (e : Eng) (s : State) (w : Nat) (len : Nat) (t : State), s.engFetch e.val (s.plant.eng e).regs.pc = .ok (w, len) ∧ s.rvRun e w len =
      .done t ∧ s.plant.up .cvc = true ∧ s.plant.engRuns e = true) ∧
    (∃ (e : Eng) (s : State) (w : Nat) (len : Nat), s.engFetch e.val (s.plant.eng e).regs.pc = .ok (w, len) ∧ s.plant.up .cvc = true ∧
      s.plant.engRuns e = true ∧ w % 128 = 0x13 ∧ fF3 w = 0) ∧
    (∃ (e : Eng) (s : State) (w : Nat) (len : Nat) (c : Nat), s.engFetch e.val (s.plant.eng e).regs.pc = .ok (w, len) ∧ s.rvRun e w len = .trap
      c ∧ s.plant.up .cvc = true ∧ s.plant.engRuns e = true ∧ s.plant.rvMirrorStore e w = false) ∧
    (∃ (e : Eng) (s : State) (c : Nat), s.engFetch e.val (s.plant.eng e).regs.pc = .error c ∧ s.plant.up .cvc = true ∧ s.plant.engRuns e = true) :=
  ⟨⟨0, engState 0x00108093, 0x00108093, 4, _, rfl, rfl, by decide⟩,
    ⟨0, engState 0x00108093, 0x00108093, 4, rfl, by decide⟩,
    ⟨0, engState 0x00000073, 0x00000073, 4, 11, rfl, rfl, by decide⟩,
    ⟨0, on (base |>.onEng 0 (fun g => { g with item := some item0, regs := { g.regs with pc := 0x10000 } })), 1, rfl, by decide⟩⟩

/-- Every clause of ItemsComplete has a case that meets its hypotheses. -/
theorem witness_ItemsComplete :
    (∃ (s : State), s.plant.up .cvc = true) ∧
    (∃ (s : State), s.plant.up .cvc = true) ∧
    (∃ (s : State), s.plant.up .cvc = true) ∧
    (∃ (s : State), s.plant.up .cvc = true) ∧
    (∃ (slot : Sys2Proof.Slot) (inst : Fin 2) (e : Eng) (s : State) (c : Nat) (x : Inst) (it : Item) (r : Regs × Plant), c =
      s.plant.ctrlOf slot.toNat ∧ x = (s.plant.slot slot.toNat).inst inst.val ∧ it =
      { slot := slot.toNat, inst := inst.val, critical := true, k := x.k, sAt := s.plant.sOf x.k, hAt := s.plant.hPs x.k, epoch := s.plant.epochOf slot.toNat, ops := x.ops, startTick := s.plant.tick, usedTicks := 0 }
      ∧ r = s.plant.startRegs it (s.plant.slot slot.toNat).entry ∧ s.plant.up .cvc = true ∧ slot.toNat < 4032 ∧ ctrlEn c = true ∧
      ctrlCritical c = true ∧ ctrlCyclic c = true ∧ (s.plant.slot slot.toNat).fault = false ∧ s.plant.vatOn = true ∧ x.st = .ready ∧
      (s.plant.eng e).item = none ∧ bitOf (ctrlGroups c) (e.val / 4) = true) ∧
    (∃ (e : Eng) (s : State) (it : Item) (m : List Nat × Plant), m = Plant.freeWords 4 s.plant ∧ s.plant.up .cvc = true ∧ (s.plant.eng
      e).item = none ∧ (s.plant.eng e).saved = some it ∧ s.plant.criticalReady e = false) ∧
    (∃ (slot : Sys2Proof.Slot) (tag : Pin8) (s : State) (w : Nat), w = s.plant.tagOf slot.toNat tag.val ∧ s.plant.up .cvc = true ∧ tagKind
      w = 6 ∧ ctrlEn (s.plant.ctrlOf slot.toNat) = true ∧ tag.val < ctrlTags (s.plant.ctrlOf slot.toNat)) ∧
    (∃ (slot : Sys2Proof.Slot) (tag : Pin8) (s : State) (w : Nat), w = s.plant.tagOf slot.toNat tag.val ∧ s.plant.up .cvc = true ∧
      (tagKind w = 2 ∨ tagKind w = 3) ∧ tagParam w ≠ 0 ∧ ctrlEn (s.plant.ctrlOf slot.toNat) = true ∧ tag.val < ctrlTags (s.plant.ctrlOf
      slot.toNat) ∧ Tab.get (fun _ => 0) (s.plant.slot slot.toNat).tagDone tag.val ≤ s.plant.paramCycle w) ∧
    (∃ (slot : Sys2Proof.Slot) (tag : Pin8) (s : State), s.plant.up .cvc = true ∧ s.plant.paramCycle (s.plant.tagOf slot.toNat tag.val) <
      Tab.get (fun _ => 0) (s.plant.slot slot.toNat).tagDone tag.val) ∧
    (∃ (s : State), s.plant.up .cvc = true) :=
  ⟨⟨on base, by decide⟩,
    ⟨on base, by decide⟩,
    ⟨on base, by decide⟩,
    ⟨on base, by decide⟩,
    ⟨5, 0, 0, on (base |>.onSlot 5 (fun x => { x with ctrl := 0xE20F0000, tags := [0x20000001, 0x60000000] }) |>.put .cvc K.redRole 3
      |>.put .cvc K.convState 3 |>.onSlot 5 (fun x => { x with i0 := { x.i0 with st := .ready } })), _, _, _, _, rfl, rfl, rfl, rfl, by
      decide⟩,
    ⟨0, on (base |>.onEng 0 (fun g => { g with saved := some item0 })), item0, _, rfl, by decide⟩,
    ⟨5, 1, on (base |>.onSlot 5 (fun x => { x with ctrl := 0xE20F0000, tags := [0x20000001, 0x60000000] })), _, rfl, by decide⟩,
    ⟨5, 0, on (base |>.onSlot 5 (fun x => { x with ctrl := 0xE20F0000, tags := [0x20000001, 0x60000000] })), _, rfl, by decide⟩,
    ⟨5, 0, on (base |>.onSlot 5 (fun x => { x with ctrl := 0xE20F0000, tags := [0x20000001, 0x60000000] }) |>.onSlot 5 (fun x =>
      { x with tagDone := [(0, 1)] })), by decide⟩,
    ⟨on base, by decide⟩⟩

/-- Every clause of VatWritesComplete has a case that meets its hypotheses. -/
theorem witness_VatWritesComplete :
    (∃ (r : Req) (v : BitVec 32) (s : State), s.plant.accepts r K.vatMove (beBytes 4 v.toNat) = true) ∧
    (∃ (r : Req) (v : BitVec 16) (s : State), s.plant.accepts r K.vatRearm (beBytes 2 v.toNat) = true) ∧
    (∃ (r : Req) (v : BitVec 16) (s : State), s.plant.accepts r K.vatFlagsClear (beBytes 2 v.toNat) = true) ∧
    (∃ (r : Req) (bytes : List Byte) (s : State), s.plant.acceptsWhole r K.engPackage (bytes.map BitVec.toNat) = true) :=
  ⟨⟨r0, 0x10000, on hosted, by decide⟩,
    ⟨r0, 0, on hosted, by decide⟩,
    ⟨r0, 0, on hosted, by decide⟩,
    ⟨r0, [1, 2], on hosted, by decide⟩⟩

/-- Every clause of CellSwitchingCompletes has a case that meets its hypotheses. -/
theorem witness_CellSwitchingCompletes :
    (∃ (c : CellId) (f : Filed) (s : State), s.plant.up (.cell c) = true ∧ (s.plant.cell c).everLocked = true ∧ s.plant.getN (.cell c)
      K.pwrState = 0 ∧ s.plant.fired c = false ∧ s.plant.htHeld c = false ∧ ((s.plant.cell c).tripHold = false ∨ f.stale = false) ∧
      s.plant.getN (.cell c) K.swBench = 0 ∧ (s.plant.cell c).filed.find? (fun x => x.k == (s.plant.cell c).applied + 1) = some f) ∧
    (∃ (c : CellId) (s : State), s.plant.up (.cell c) = true ∧ (s.plant.cell c).everLocked = true ∧ s.plant.getN (.cell c) K.pwrState = 0
      ∧ s.plant.getN (.cell c) K.swBench = 0 ∧ (s.plant.cell c).filed.find? (fun x => x.k == (s.plant.cell c).applied + 1) = none) ∧
    (∃ (c : CellId) (s : State), s.plant.up (.cell c) = true ∧ (s.plant.cell c).everLocked = false ∧ s.plant.getN (.cell c) K.pwrState = 0
      ∧ s.plant.getN (.cell c) K.swBench = 0) ∧
    (∃ (c : CellId) (s : State), s.plant.up (.cell c) = true ∧ s.plant.getN (.cell c) K.cycleCmdLossCycles ≤ (s.plant.cell c).missRun ∧
      s.plant.getN (.cell c) K.pwrState = 0 ∧ (s.plant.fired c = true ∨ s.plant.htHeld c = true ∨ (s.plant.cell c).tripHold = true) ∧
      s.plant.getN (.cell c) K.swBench = 0) ∧
    (∃ (c : CellId) (s : State), s.plant.up (.cell c) = true ∧ s.plant.getN (.cell c) K.cycleCmdLossCycles ≤ (s.plant.cell c).missRun ∧
      s.plant.getN (.cell c) K.pwrState = 0 ∧ s.plant.fired c = false ∧ s.plant.htHeld c = false ∧ (s.plant.cell c).tripHold = false ∧
      s.plant.getN (.cell c) K.swBench = 0) ∧
    (∃ (c : CellId) (n : Pin8) (s : State), bitOf (s.plant.cell c).waiting n.val = true) ∧
    (∃ (c : CellId) (s : State), s.plant.up (.cell c) = true ∧ s.plant.getN (.cell c) K.swState = 4 ∧ (s.plant.cell c).car.armed = true ∧
      (s.plant.cell c).car.prdPend = true ∧ (s.plant.cell c).car.inserted = false ∧ ((s.plant.cell c).car.j + 1) % s.plant.getN (.cell c)
      K.pwmLoadEvery = 0) ∧
    (∃ (c : CellId) (s : State), s.plant.up (.cell c) = true ∧ s.plant.getN (.cell c) K.swState = 4 ∧ (s.plant.cell c).car.inserted =
      false ∧ s.plant.getN (.cell c) K.pwmCmp ≠ 0 ∧ (s.plant.pwmSet c).minTaps ≤ s.plant.pulseOn c (s.plant.pwmSet c).cbp (halfTaps
      (s.plant.pwmSet c).cbp (s.plant.pwmSet c).dither (s.plant.getN (.cell c) K.pwmPrd) (s.plant.getN (.cell c) K.pwmCmp) (s.plant.cell
      c).car.j) (s.plant.pwmSet c).dtIn) ∧
    (∃ (c : CellId) (s : State), s.plant.up (.cell c) = true ∧ s.plant.getN (.cell c) K.swState = 4 ∧ (s.plant.cell c).car.inserted = true
      ∧ s.plant.getN (.cell c) K.pwmExtreme ≠ 1 ∧ (s.plant.nextRegs c).2 = 0) :=
  ⟨⟨c0, filed0, on (base |>.onCell c0 (fun e => { e with everLocked := true, filed := [filed0] })), by decide⟩,
    ⟨c0, on (base |>.onCell c0 (fun e => { e with everLocked := true })), by decide⟩,
    ⟨c0, on base, by decide⟩,
    ⟨c0, on (base |>.onCell c0 (fun e => { e with missRun := 1000, tripHold := true })), by decide⟩,
    ⟨c0, on (base |>.onCell c0 (fun e => { e with missRun := 100 })), by decide⟩,
    ⟨c0, 0, on (base |>.onCell c0 (fun e => { e with waiting := 1 })), by decide⟩,
    ⟨c0, on (base |>.put (.cell c0) K.swState 4 |>.put (.cell c0) K.pwmLoadEvery 1 |>.onCell c0 (fun e => { e with
        car := { e.car with armed := true, prdPend := true } })), by decide⟩,
    ⟨c0, on (base |>.put (.cell c0) K.swState 4 |>.put (.cell c0) K.pwmPrd 1000 |>.put (.cell c0) K.pwmCmp 512000), by decide⟩,
    ⟨c0, on (base |>.put (.cell c0) K.swState 4 |>.onCell c0 (fun e => { e with car := { e.car with inserted := true } })), by decide⟩⟩

/-- Every clause of CellSamplesComplete has a case that meets its hypotheses. -/
theorem witness_CellSamplesComplete :
    (∃ (c : CellId) (s : State), s.plant.up (.cell c) = true ∧ s.plant.getN (.cell c) K.pwrState ≤ 1) ∧
    (∃ (c : CellId) (s : State), s.plant.up (.cell c) = true ∧ (s.plant.cell c).pendV ≠ 0 ∧ (s.plant.cell c).pendV ≠ 65535 ∧ (s.plant.cell
      c).pendI ≠ -32768 ∧ (s.plant.cell c).pendI ≠ 32767 ∧ (((s.plant.cell c).pendV : Int) - s.plant.get (.cell c) K.adcVOffset) *
      s.plant.get (.cell c) K.adcVGain < 50000000) ∧
    (∃ (c : CellId) (n : Pin8) (s : State), s.plant.up (.cell c) = true ∧ bitOf (s.plant.getN (.cell c) K.diFunc) n.val = false) ∧
    (∃ (c : CellId) (n : Pin8) (s : State), s.plant.up (.cell c) = true ∧ bitOf (gatesUsed (s.plant.getN (.cell c) K.swType)) n.val = true) ∧
    (∃ (c : CellId) (n : Pin8) (s : State), s.plant.up (.cell c) = true ∧ bitOf (s.plant.cell c).compared n.val = true) ∧
    (∃ (c : CellId) (m : BitVec 8) (s : State), s.plant.acceptsAt (.cell c) K.swFbClear (beBytes 1 m.toNat) = true) :=
  ⟨⟨c0, on base, by decide⟩,
    ⟨c0, on (base |>.onCell c0 (fun e => { e with pendV := 100, pendI := 5 })), by decide⟩,
    ⟨c0, 0, on (base |>.put (.cell c0) K.diFunc 0), by decide⟩,
    ⟨c0, 0, on base, by decide⟩,
    ⟨c0, 0, on (base |>.onCell c0 (fun e => { e with compared := 1 })), by decide⟩,
    ⟨c0, 1, on base, by decide⟩⟩

/-- Every clause of CellProtectionCompletes has a case that meets its hypotheses. -/
theorem witness_CellProtectionCompletes :
    (∃ (c : CellId) (n : Pin4) (s : State), s.plant.up (.cell c) = true ∧ bitOf (s.plant.getN (.cell c) K.tripEn) n.val = true ∧ bitOf
      (s.plant.cell c).blanked n.val = false ∧ bitOf (s.plant.getN (.cell c) K.tripLatch) n.val = false ∧ bitOf (s.plant.getN (.cell c)
      K.tripFire) n.val = false ∧ bitOf (s.plant.cell c).counted n.val = false ∧ s.plant.fired c = false ∧ s.plant.getN (.cell c) K.capTrig
      ≠ 3) ∧
    (∃ (c : CellId) (n : Pin4) (s : State), s.plant.up (.cell c) = true ∧ bitOf (s.plant.getN (.cell c) K.tripEn) n.val = true ∧ bitOf
      (s.plant.cell c).blanked n.val = false ∧ bitOf (s.plant.getN (.cell c) K.tripLatch) n.val = false ∧ bitOf (s.plant.getN (.cell c)
      K.tripFire) n.val = true ∧ bitOf (s.plant.cell c).counted n.val = true ∧ (s.plant.cell c).fireWait = false ∧ s.plant.getN (.cell c)
      K.tripFireDelay = 0 ∧ s.plant.fired c = false ∧ s.plant.getN (.cell c) K.capTrig ≠ 3) ∧
    (∃ (c : CellId) (n : Pin4) (s : State), s.plant.up (.cell c) = true ∧ bitOf (s.plant.getN (.cell c) K.tripLatch) n.val ≠ bitOf (s.plant.getN
      (.cell c) K.tripLatch) (n.val + 4)) ∧
    (∃ (c : CellId) (m : BitVec 8) (s : State), s.plant.acceptsAt (.cell c) K.tripClear (beBytes 1 m.toNat) = true) ∧
    (∃ (c : CellId) (s : State), (s.plant.cell c).fireWait = true) ∧
    (∃ (c : CellId) (v : BitVec 16) (s : State), s.plant.acceptsAt (.cell c) K.bypFire (beBytes 2 v.toNat) = true) ∧
    (∃ (c : CellId) (s : State), s.plant.fired c = true) ∧
    (∃ (c : CellId) (s : State), s.plant.fired c = false) ∧
    (∃ (c : CellId) (s : State), s.plant.fired c = true ∧ (s.plant.cell c).confirmed = false ∧ 0 < (s.plant.cell c).retries) ∧
    (∃ (c : CellId) (s : State), s.plant.fired c = true ∧ (s.plant.cell c).confirmed = false ∧ (s.plant.cell c).retries = 0) ∧
    (∃ (c : CellId) (v : BitVec 16) (s : State), s.plant.acceptsAt (.cell c) K.bypUnfire (beBytes 2 v.toNat) = true) :=
  ⟨⟨c0, 3, on (base |>.put (.cell c0) K.tripEn 15 |>.put (.cell c0) K.tripFire 0), by decide⟩,
    ⟨c0, 0, on (base |>.put (.cell c0) K.tripEn 15 |>.put (.cell c0) K.tripFire 1 |>.put (.cell c0) K.tripFireDelay 0 |>.onCell c0 (fun e =>
      { e with counted := 1 })), by decide⟩,
    ⟨c0, 3, on (base |>.put (.cell c0) K.tripLatch 8), by decide⟩,
    ⟨c0, 1, on base, by decide⟩,
    ⟨c0, on (base |>.onCell c0 (fun e => { e with fireWait := true })), by decide⟩,
    ⟨c0, 0x00F1, on base, by decide⟩,
    ⟨c0, on (base |>.put (.cell c0) K.bypStatus 2), by decide⟩,
    ⟨c0, on base, by decide⟩,
    ⟨c0, on (base |>.put (.cell c0) K.bypStatus 2 |>.onCell c0 (fun e => { e with retries := 1 })), by decide⟩,
    ⟨c0, on (base |>.put (.cell c0) K.bypStatus 2), by decide⟩,
    ⟨c0, 0x5AA5, on (base |>.put (.cell c0) K.bypStatus 2 |>.put .cvc K.convState 2), by decide⟩⟩

/-- Every clause of BenchCompletes has a case that meets its hypotheses. -/
theorem witness_BenchCompletes :
    (∃ (c : CellId) (s : State), s.plant.acceptsAt (.cell c) K.swBench (beBytes 1 1) = true) ∧
    (∃ (c : CellId) (s : State), s.plant.acceptsAt (.cell c) K.swBench (beBytes 1 0) = true ∧ s.plant.getN (.cell c) K.swBench = 1 ∧
      s.plant.fired c = false) ∧
    (∃ (c : CellId) (v : BitVec 16) (s : State), s.plant.acceptsAt (.cell c) K.pwmPrdWr (beBytes 2 v.toNat) = true ∧ (s.plant.cell
      c).car.loadTick = s.plant.tick + 1) ∧
    (∃ (c : CellId) (v : BitVec 16) (s : State), s.plant.acceptsAt (.cell c) K.pwmPrdWr (beBytes 2 v.toNat) = true ∧ (s.plant.cell
      c).car.loadTick ≠ s.plant.tick + 1) ∧
    (∃ (c : CellId) (v : BitVec 32) (s : State), s.plant.acceptsAt (.cell c) K.pwmCmpWr (beBytes 4 v.toNat) = true ∧ (s.plant.cell
      c).car.pointTick = s.plant.tick + 1) ∧
    (∃ (c : CellId) (v : BitVec 32) (s : State), s.plant.acceptsAt (.cell c) K.pwmCmpWr (beBytes 4 v.toNat) = true ∧ (s.plant.cell
      c).car.pointTick ≠ s.plant.tick + 1) :=
  ⟨⟨c0, on (base |>.put .cvc K.convState 2), by decide⟩,
    ⟨c0, on (base |>.put (.cell c0) K.swBench 1), by decide⟩,
    ⟨c0, 1000, on (base |>.put (.cell c0) K.swBench 1 |>.onCell c0 (fun e => { e with car := { e.car with loadTick := 1 } })), by decide⟩,
    ⟨c0, 1000, on (base |>.put (.cell c0) K.swBench 1), by decide⟩,
    ⟨c0, 307000, on (base |>.put (.cell c0) K.swBench 1 |>.onCell c0 (fun e => { e with car := { e.car with pointTick := 1 } })), by
      decide⟩,
    ⟨c0, 307000, on (base |>.put (.cell c0) K.swBench 1), by decide⟩⟩

/-- Every clause of EnergyLedgerCompletes has a case that meets its hypotheses. -/
theorem witness_EnergyLedgerCompletes :
    (∃ (c : CellId) (vin : BitVec 16) (shunt : BitVec 32) (s : State) (store : Nat) (ua : Nat) (draw : Nat), ua = 25 * shunt.toNat * 1000 /
      s.plant.getN (.cell c) K.nrgShuntMohm ∧ store = storeUnits (s.plant.getN (.cell c) K.nrgCHold) (8 * vin.toNat) (s.plant.getN (.cell c)
      K.nrgVMin) ∧ draw = drawUnits (8 * vin.toNat) ua ∧ (s.plant.node (.cell c)).power.rails = true ∧ (s.plant.node (.cell c)).power.held =
      false ∧ vin.toNat < 4095 ∧ shunt.toNat < 4095 ∧ s.plant.getN (.cell c) K.nrgState = 2 ∧ 0 < (store : Int) - s.plant.getN (.cell c)
      K.nrgReserve ∧ s.plant.get (.cell c) K.nrgDeferLevel ≤ (store : Int) - s.plant.getN (.cell c) K.nrgReserve ∧ (s.plant.cell
      c).led.laneWant = [] ∧ (s.plant.cell c).led.bootWant = false) ∧
    (∃ (c : CellId) (hz : BitVec 32) (s : State), s.plant.up (.cell c) = true ∧ 972800 ≤ hz.toNat ∧ hz.toNat ≤ 1075200) ∧
    (∃ (c : CellId) (hz : BitVec 32) (s : State), s.plant.up (.cell c) = true ∧ 1075200 < hz.toNat) ∧
    (∃ (c : CellId) (act : Fin 8) (s : State), (act.val = 5 ∨ act.val = 6) ∧ s.plant.getN (.cell c) K.nrgState = 2 ∧ (s.plant.getN (.cell c)
      K.nrgDeferLevel : Int) ≤ s.plant.freeEnergy c - s.plant.cost c act.val) ∧
    (∃ (c : CellId) (act : Fin 8) (s : State), (act.val = 5 ∨ act.val = 6) ∧ s.plant.getN (.cell c) K.nrgState = 3) ∧
    (∃ (c : CellId) (act : Fin 8) (s : State), 1 ≤ act.val ∧ act.val ≤ 4 ∧ s.plant.getN (.cell c) K.nrgState = 2 ∧ (s.plant.cost c act.val +
      s.plant.getN (.cell c) K.nrgMargin : Int) ≤ s.plant.freeEnergy c) ∧
    (∃ (c : CellId) (s : State), (s.plant.node (.cell c)).power.held = true ∧ (s.plant.cell c).led.timing = true) :=
  ⟨⟨c0, 3000, 100, on (base |>.put (.cell c0) K.nrgState 2), _, _, _, rfl, rfl, rfl, by decide⟩,
    ⟨c0, 972800, on base, by decide⟩,
    ⟨c0, 1075201, on base, by decide⟩,
    ⟨c0, 5, richState 2, by decide⟩,
    ⟨c0, 6, on (base |>.put (.cell c0) K.nrgState 3), by decide⟩,
    ⟨c0, 4, richState 2, by decide⟩,
    ⟨c0, on (base |>.onNode (.cell c0) (fun n => { n with power := { n.power with held := true } }) |>.onCell c0 (fun e =>
      { e with led := { e.led with timing := true } })), by decide⟩⟩

/-- Every clause of CellPowerCompletes has a case that meets its hypotheses. -/
theorem witness_CellPowerCompletes :
    (∃ (c : CellId) (s : State), s.plant.up (.cell c) = true ∧ s.plant.getN (.cell c) K.nrgState = 1 ∧ s.plant.laneUp (.cell c) 0 = true ∧
      s.plant.laneUp (.cell c) 1 = true ∧ s.plant.getN (.cell c) K.nrgDeferLevel + s.plant.getN (.cell c) K.nrgMargin ≤ s.plant.get (.cell
      c) K.nrgAvail) ∧
    (∃ (c : CellId) (s : State), s.plant.up (.cell c) = true ∧ s.plant.getN (.cell c) K.nrgState = 2) ∧
    (∃ (c : CellId) (lane : Fin 2) (s : State), s.plant.up (.cell c) = true ∧ s.plant.getN (.cell c) K.nrgState = 1 ∧ s.plant.laneUp
      (.cell c) lane.val = false ∧ s.plant.getN (.cell c) K.nrgDeferLevel + s.plant.getN (.cell c) K.nrgMargin ≤ s.plant.get (.cell c)
      K.nrgAvail) ∧
    (∃ (c : CellId) (s : State), (s.plant.node (.cell c)).power.rails = true ∧ s.plant.getN (.cell c) K.nrgState = 1) ∧
    (∃ (c : CellId) (s : State), s.plant.getN (.cell c) K.nrgState = 1 ∧ (s.plant.cell c).led.pg = false) ∧
    (∃ (c : CellId) (s : State), s.plant.up (.cell c) = true) ∧
    (∃ (c : CellId) (v : BitVec 8) (s : State), s.plant.acceptsAt (.cell c) K.pwrRequest (beBytes 1 v.toNat) = true ∧ 1 ≤ v.toNat ∧
      s.plant.laneUp (.cell c) 0 = true ∧ s.plant.laneUp (.cell c) 1 = true ∧ s.plant.getN (.cell c) K.pwrState ≠ 2) ∧
    (∃ (c : CellId) (v : Nat) (s : State), s.plant.up (.cell c) = true ∧ (s.plant.cell c).led.pwrWant = some v ∧ (v = 1 ∨ v = 2) ∧
      s.plant.laneState (.cell c) 0 = v + 2 ∧ s.plant.laneState (.cell c) 1 = v + 2) ∧
    (∃ (c : CellId) (s : State), s.plant.up (.cell c) = true ∧ (s.plant.cell c).led.pwrWant = some 0 ∧ s.plant.laneState (.cell c) 0 = 2 ∧
      s.plant.laneState (.cell c) 1 = 2 ∧ (s.plant.getN (.cell c) K.pwrState ≠ 2 ∨ s.plant.locked (.cell c) = true)) ∧
    (∃ (c : CellId) (s : State), s.plant.up (.cell c) = true ∧ (s.plant.cell c).led.pwrWant = some 3 ∧ s.plant.laneState (.cell c) 0 = 4 ∧
      s.plant.laneState (.cell c) 1 = 4) :=
  ⟨⟨c0, on (base |>.put (.cell c0) K.nrgState 1 |>.put (.cell c0) (laneKey 0 2) 2 |>.put (.cell c0) (laneKey 1 2) 2 |>.put (.cell c0)
      K.nrgAvail 1000000), by decide⟩,
    ⟨c0, on (base |>.put (.cell c0) K.nrgState 2), by decide⟩,
    ⟨c0, 0, on (base |>.put (.cell c0) K.nrgState 1 |>.put (.cell c0) K.nrgAvail 1000000), by decide⟩,
    ⟨c0, on (base |>.put (.cell c0) K.nrgState 1), by decide⟩,
    ⟨c0, on (base |>.put (.cell c0) K.nrgState 1), by decide⟩,
    ⟨c0, on base, by decide⟩,
    ⟨c0, 2, on (base |>.put (.cell c0) (laneKey 0 2) 2 |>.put (.cell c0) (laneKey 1 2) 2 |>.put .cvc K.convState 2), by decide⟩,
    ⟨c0, 2, on (base |>.onCell c0 (fun e => { e with led := { e.led with pwrWant := some 2 } }) |>.put (.cell c0) (laneKey 0 2) 4 |>.put
      (.cell c0) (laneKey 1 2) 4), by decide⟩,
    ⟨c0, on (base |>.onCell c0 (fun e => { e with led := { e.led with pwrWant := some 0 } }) |>.put (.cell c0) (laneKey 0 2) 2 |>.put
      (.cell c0) (laneKey 1 2) 2), by decide⟩,
    ⟨c0, on (base |>.onCell c0 (fun e => { e with led := { e.led with pwrWant := some 3 } }) |>.put (.cell c0) (laneKey 0 2) 4 |>.put
      (.cell c0) (laneKey 1 2) 4), by decide⟩⟩

/-- Every clause of CellCaptureCompletes has a case that meets its hypotheses. -/
theorem witness_CellCaptureCompletes :
    (∃ (c : CellId) (s : State), s.plant.acceptsAt (.cell c) K.capCtrl (beBytes 1 1) = true) ∧
    (∃ (c : CellId) (s : State), s.plant.acceptsAt (.cell c) K.capCtrl (beBytes 1 2) = true) ∧
    (∃ (c : CellId) (s : State), s.plant.acceptsAt (.cell c) K.capCtrl (beBytes 1 3) = true ∧ s.plant.getN (.cell c) K.capState = 1 ∧
      s.plant.getN (.cell c) K.capPre ≤ (s.plant.cell c).cap.total) ∧
    (∃ (c : CellId) (s : State), s.plant.up (.cell c) = true ∧ s.plant.getN (.cell c) K.capState = 1 ∧ s.plant.getN (.cell c) K.capTrig = 0) ∧
    (∃ (c : CellId) (s : State), s.plant.up (.cell c) = true ∧ s.plant.getN (.cell c) K.capState = 2 ∧ (s.plant.cell c).cap.after ≤ 1) :=
  ⟨⟨c0, on base, by decide⟩,
    ⟨c0, on base, by decide⟩,
    ⟨c0, on (base |>.put (.cell c0) K.capState 1 |>.put (.cell c0) K.capPre 0), by decide⟩,
    ⟨c0, on (base |>.put (.cell c0) K.capState 1 |>.put (.cell c0) K.capTrig 0), by decide⟩,
    ⟨c0, on (base |>.put (.cell c0) K.capState 2), by decide⟩⟩

/-- Every clause of LaneTrainingCompletes has a case that meets its hypotheses. -/
theorem witness_LaneTrainingCompletes :
    (∃ (port : Port) (cause : Fin 7) (s : State), s.plant.up port.part = true ∧ s.plant.laneUp port.part port.lane.val = true ∧ cause.val
      ≠ 5 ∧ (cause.val = 4 → stringLaneOf port.part port.lane.val = true)) ∧
    (∃ (port : Port) (s : State), port.part.kind ≠ 2 ∧ s.plant.laneState port.part port.lane.val = 1) ∧
    (∃ (port : Port) (s : State), port.part.kind = 2 ∧ s.plant.laneState port.part port.lane.val = 1) ∧
    (∃ (port : Port) (s : State), port.part.kind ≠ 2 ∧ s.plant.laneState port.part port.lane.val = 1 ∧ s.plant.endUp port.part
      port.lane.val = true) ∧
    (∃ (port : Port) (c : CellId) (s : State), port.part = .cell c ∧ s.plant.laneState (.cell c) port.lane.val = 1 ∧ s.plant.endUp (.cell
      c) port.lane.val = true) ∧
    (∃ (port : Port) (s : State), s.plant.laneState port.part port.lane.val = 1) ∧
    (∃ (port : Port) (os : Header) (s : State), s.plant.hearsOs port os 3 = true ∧ bits os.toNat 49 47 = 3 ∧ s.plant.laneState port.part
      port.lane.val = 1 ∧ s.plant.getN port.part (laneKey port.lane.val 3) = 1) ∧
    (∃ (port : Port) (os : Header) (s : State), s.plant.hearsOs port os 3 = true ∧ bits os.toNat 49 47 = 4) ∧
    (∃ (port : Port) (s : State), port.part.kind ≠ 2 ∧ s.plant.laneState port.part port.lane.val = 4) ∧
    (∃ (port : Port) (c : CellId) (s : State), port.part = .cell c ∧ (s.plant.cell c).led.aon = true) :=
  ⟨⟨⟨.cell c0, 0⟩, 4, on (base |>.put (.cell c0) (laneKey 0 2) 2), by decide⟩,
    ⟨⟨.cvc, 0⟩, on (base |>.put .cvc (laneKey 0 2) 1), by decide⟩,
    ⟨⟨.cell c0, 1⟩, on (base |>.put (.cell c0) (laneKey 1 2) 1), by decide⟩,
    ⟨⟨.cvc, 0⟩, on (base |>.put .cvc (laneKey 0 2) 1 |>.put .cvc (laneKey 0 3) 1 |>.onLane .cvc 0 (fun e =>
      { e with upSent := 4, upRecv := 4 })), by decide⟩,
    ⟨⟨.cell c0, 0⟩, c0, on (base |>.put (.cell c0) (laneKey 0 2) 1 |>.put (.cell c0) (laneKey 0 3) 1 |>.onLane (.cell c0) 0 (fun e =>
      { e with upSent := 4, upRecv := 4 })), by decide⟩,
    ⟨⟨.cell c0, 0⟩, on (base |>.put (.cell c0) (laneKey 0 2) 1), by decide⟩,
    ⟨⟨.cell c0, 0⟩, (osLstate 0 3 0), on (base |>.put (.cell c0) (laneKey 0 2) 1 |>.put (.cell c0) (laneKey 0 3) 1), by decide⟩,
    ⟨⟨.cell c0, 0⟩, (osLstate 0 4 0), on (base |>.put (.cell c0) (laneKey 0 2) 2), by decide⟩,
    ⟨⟨.cvc, 0⟩, on (base |>.put .cvc (laneKey 0 2) 4), by decide⟩,
    ⟨⟨.cell c0, 0⟩, c0, on (base |>.onCell c0 (fun e => { e with led := { e.led with aon := true } })), by decide⟩⟩

/-- Every clause of LanePowerCompletes has a case that meets its hypotheses. -/
theorem witness_LanePowerCompletes :
    (∃ (port : Port) (os : Header) (s : State), s.plant.hearsOs port os 3 = true ∧ bits os.toNat 49 47 = 0 ∧ bits os.toNat 51 50 < 2 ∧
      s.plant.laneUp port.part port.lane.val = true) ∧
    (∃ (port : Port) (os : Header) (s : State), s.plant.hearsOs port os 3 = true ∧ bits os.toNat 49 47 = 0 ∧ bits os.toNat 51 50 < 3 ∧
      s.plant.laneState port.part port.lane.val = 5) ∧
    (∃ (port : Port) (os : Header) (s : State) (st : Nat), s.plant.hearsOs port os 3 = true ∧ bits os.toNat 49 47 = 1 ∧ (s.plant.lane
      port.part port.lane.val).asked = true ∧ s.plant.laneUp port.part port.lane.val = true ∧ (s.plant.lane port.part port.lane.val).want =
      some st ∧ st ≠ 2) ∧
    (∃ (port : Port) (os : Header) (s : State), s.plant.hearsOs port os 3 = true ∧ bits os.toNat 49 47 = 2) ∧
    (∃ (port : Port) (s : State) (st : Nat), (s.plant.lane port.part port.lane.val).want = some st ∧ (s.plant.lane port.part
      port.lane.val).asked = false ∧ s.plant.laneUp port.part port.lane.val = true) ∧
    (∃ (port : Port) (eye : BitVec 16) (s : State), s.plant.getN port.part (laneKey port.lane.val 0x16) ≠ 1 ∧ s.plant.receiverOff
      port.part port.lane.val = false ∧ s.plant.laneState port.part port.lane.val ≠ 3 ∧ s.plant.getN port.part (laneKey port.lane.val 0x0C)
      = 0 ∧ s.plant.getN port.part (laneKey port.lane.val 8) ≤ eye.toNat + s.plant.getN port.part K.laneAdaptGuard) ∧
    (∃ (port : Port) (s : State), s.plant.getN port.part (laneKey port.lane.val 0x0C) ≠ 0) ∧
    (∃ (port : Port) (s : State), s.plant.getN port.part (laneKey port.lane.val 0x0D) = 1) ∧
    (∃ (port : Port) (errors : BitVec 32) (s : State), s.plant.getN port.part (laneKey port.lane.val 0x0D) = 1 ∧ errors ≠ 0) ∧
    (∃ (port : Port) (s : State), s.plant.getN port.part (laneKey port.lane.val 0x0D) = 1) ∧
    (∃ (q : Part) (lane : Fin 52) (v : BitVec 8) (s : State), lane.val < laneCount q.kind ∧ s.plant.acceptsAt q (laneKey lane.val 0x11)
      (beBytes 1 v.toNat) = true) ∧
    (∃ (r : Req) (lane : Fin 52) (v : BitVec 8) (s : State), s.plant.accepts r (laneKey lane.val 0x11) (beBytes 1 v.toNat) = true) :=
  ⟨⟨⟨.cell c0, 0⟩, (osLstate 1 0 0), on (base |>.put (.cell c0) (laneKey 0 2) 2), by decide⟩,
    ⟨⟨.cell c0, 0⟩, (osLstate 2 0 0), on (base |>.put (.cell c0) (laneKey 0 2) 5), by decide⟩,
    ⟨⟨.cell c0, 0⟩, (osLstate 1 1 0), on (base |>.put (.cell c0) (laneKey 0 2) 2 |>.onLane (.cell c0) 0 (fun e =>
      { e with asked := true, want := some 3 })), 3, by decide⟩,
    ⟨⟨.cell c0, 0⟩, (osLstate 1 2 0), on (base |>.put (.cell c0) (laneKey 0 2) 2), by decide⟩,
    ⟨⟨.cell c0, 0⟩, on (base |>.put (.cell c0) (laneKey 0 2) 2 |>.onLane (.cell c0) 0 (fun e => { e with want := some 3 })), 3, by
      decide⟩,
    ⟨⟨.cell c0, 0⟩, 0xFFFF, on (base |>.put (.cell c0) (laneKey 0 2) 2), by decide⟩,
    ⟨⟨.cell c0, 0⟩, on (base |>.put (.cell c0) (laneKey 0 0x0C) 1), by decide⟩,
    ⟨⟨.cell c0, 0⟩, on (base |>.put (.cell c0) (laneKey 0 0x0D) 1), by decide⟩,
    ⟨⟨.cell c0, 0⟩, 1, on (base |>.put (.cell c0) (laneKey 0 0x0D) 1), by decide⟩,
    ⟨⟨.cell c0, 0⟩, on (base |>.put (.cell c0) (laneKey 0 0x0D) 1), by decide⟩,
    ⟨.cell c0, 1, 1, on base, by decide⟩,
    ⟨r0, 17, 1, on hosted, by decide⟩⟩

/-- Every clause of NoticesComplete has a case that meets its hypotheses. -/
theorem witness_NoticesComplete :
    (∃ (port : Port) (c : CellId) (os : Header) (s : State), port.part = .cell c ∧ s.plant.hearsOs port os 1 = true ∧ bits os.toNat 51 50
      = 0 ∧ s.plant.noticeNew (.cell c) port.lane.val os = true ∧ s.plant.serving (.cell c) = true) ∧
    (∃ (port : Port) (h : Fin 8) (os : Header) (s : State), port.part = .hub h ∧ port.lane.val < 48 ∧ s.plant.hearsOs port os 1 = true ∧
      bits os.toNat 51 50 = 0 ∧ s.plant.noticeNew (.hub h) port.lane.val os = true) ∧
    (∃ (port : Port) (h : Fin 8) (os : Header) (s : State), port.part = .cvc ∧ port.lane.val / 2 = h.val ∧ s.plant.hearsOs port os 1 =
      true ∧ bits os.toNat 51 50 = 0 ∧ s.plant.noticeNew .cvc port.lane.val os = true) ∧
    (∃ (port : Port) (h : Fin 8) (os : Header) (s : State), port.part = .cvc ∧ port.lane.val / 2 = h.val ∧ s.plant.hearsOs port os 1 =
      true ∧ bits os.toNat 51 50 = 1 ∧ s.plant.noticeNew .cvc port.lane.val os = true) ∧
    (∃ (port : Port) (h : Fin 8) (os : Header) (s : State), port.part = .hub h ∧ port.lane.val < 48 ∧ s.plant.hearsOs port os 1 = true ∧
      bits os.toNat 51 50 = 2 ∧ s.plant.noticeNew (.hub h) port.lane.val os = true) ∧
    (∃ (port : Port) (h : Fin 8) (os : Header) (s : State), port.part = .hub h ∧ port.lane.val < 48 ∧ s.plant.hearsOs port os 1 = true ∧
      bits os.toNat 51 50 = 3 ∧ s.plant.noticeNew (.hub h) port.lane.val os = true) ∧
    (∃ (port : Port) (c : CellId) (s : State), port.part = .cell c ∧ s.plant.laneUp (.cell c) port.lane.val = true ∧ (s.plant.cell
      c).plan.own.contains (s.plant.stringLane (.cell c) port.lane.val) = true) ∧
    (∃ (c : CellId) (s : State), (s.plant.up (.cell c) = false ∨ (s.plant.cell c).halted = true)) ∧
    (∃ (c : CellId) (s : State), s.plant.up (.cell c) = true ∧ (s.plant.cell c).halted = false) :=
  ⟨⟨⟨.cell c0, 0⟩, c0, (osNotice 0 3 1), on (base |>.put (.cell c0) (laneKey 0 2) 2 |>.onCell c0 (fun e =>
      { e with plan := { e.plan with learned := [3] } })), by decide⟩,
    ⟨⟨.hub 0, 47⟩, 0, (osNotice 0 3 1), on (base |>.put (.hub 0) (laneKey 47 2) 2), by decide⟩,
    ⟨⟨.cvc, 15⟩, 7, (osNotice 0 3 1), on (base |>.put .cvc (laneKey 15 2) 2), by decide⟩,
    ⟨⟨.cvc, 15⟩, 7, (osNotice 1 3 1), on (base |>.put .cvc (laneKey 15 2) 2), by decide⟩,
    ⟨⟨.hub 0, 47⟩, 0, (osNotice 2 3 1), on (base |>.put (.hub 0) (laneKey 47 2) 2), by decide⟩,
    ⟨⟨.hub 0, 47⟩, 0, (osNotice 3 3 1), on (base |>.put (.hub 0) (laneKey 47 2) 2), by decide⟩,
    ⟨⟨.cell c0, 0⟩, c0, on (base |>.put (.cell c0) (laneKey 0 2) 2 |>.onCell c0 (fun e => { e with plan := { e.plan with own := [0] } })),
      by decide⟩,
    ⟨c0, State.reset, by decide⟩,
    ⟨c0, on base, by decide⟩⟩

/-- Every clause of PlansComplete has a case that meets its hypotheses. -/
theorem witness_PlansComplete :
    (∃ (port : Port) (c : CellId) (os : Header) (s : State), port.part = .cell c ∧ s.plant.hearsOs port os 2 = true ∧ s.plant.serving
      (.cell c) = true) ∧
    (∃ (h : Fin 8) (s : State), s.plant.up (.hub h) = true ∧ (s.plant.getN (.hub h) K.timeState = 2 ∨ s.plant.getN (.hub h) K.timeState =
      3)) ∧
    (∃ (c : CellId) (s : State) (n : Nat) (pos : Nat), n = s.plant.c (K.stringCells + c.str.val) ∧ pos = s.plant.getN (.cell c)
      K.stringPos ∧ s.plant.up (.cell c) = true ∧ (s.plant.getN (.cell c) K.timeState = 2 ∨ s.plant.getN (.cell c) K.timeState = 3) ∧
      (s.plant.cell c).posKnown = true ∧ (s.plant.cell c).plan.rx = [] ∧ (s.plant.cell c).plan.own = [] ∧ (s.plant.cell c).plan.learned = []
      ∧ pos < n) ∧
    (∃ (c : CellId) (s : State) (r : PlanRx) (pos : Nat), pos = s.plant.getN (.cell c) K.stringPos ∧ s.plant.up (.cell c) = true ∧
      (s.plant.getN (.cell c) K.timeState = 2 ∨ s.plant.getN (.cell c) K.timeState = 3) ∧ (s.plant.cell c).posKnown = true ∧ ((s.plant.cell
      c).plan.rx.filter (fun x => decide (((s.plant.schedNow (.cell c)).k % 256 + 256 - x.seq) % 256 < 128))).head? = some r ∧ r.brk = false
      ∧ (s.plant.cell c).plan.own = [] ∧ (s.plant.cell c).plan.learned = []) ∧
    (∃ (h : Fin 8) (s : State), s.plant.up (.hub h) = true) ∧
    (∃ (p : Plant) (h : Fin 8) (k : Nat) (v : PlanV), v = hubPlan (p.hubPort h k).plan (p.hubPort h k).passed (p.getN (.hub h)
      (K.stringCells + k)) (stringForm (p.hub h).form) ∧ p.getN (.hub h) (K.stringCells + k) ≠ 0 ∧ (p.hubPort h k).last = v) :=
  ⟨⟨⟨.cell c0, 0⟩, c0, (osPlan planV0 false 1 1), on (base |>.put (.cell c0) (laneKey 0 2) 2), by decide⟩,
    ⟨0, on (base |>.put (.hub 0) K.timeState 2), by decide⟩,
    ⟨c0, on (base |>.put (.cell c0) K.timeState 2 |>.onCell c0 (fun e => { e with posKnown := true }) |>.put .cvc K.stringCells 1), _, _,
      rfl, rfl, by decide⟩,
    ⟨c0, on (base |>.put (.cell c0) K.timeState 2 |>.onCell c0 (fun e => { e with
        posKnown := true, plan := { e.plan with rx := [planRx0] } })), planRx0, _, rfl, by decide⟩,
    ⟨0, on base, by decide⟩,
    ⟨(base |>.put (.hub 0) K.stringCells 1 |>.onPort 0 0 (fun e => { e with last := hubPlan e.plan e.passed 1 1 })), 0, 0, _, rfl, by
      decide⟩⟩

/-- Every clause of CellFramesComplete has a case that meets its hypotheses. -/
theorem witness_CellFramesComplete :
    (∃ (port : Port) (c : CellId) (f : Frame) (s : State) (x : Plant) (i : Nat) (k : Nat) (b : Block), x = s.plant.heard port f ∧
      port.part = .cell c ∧ s.plant.hears port f 1 = true ∧ chkState f = .good ∧ x.serving (.cell c) = true ∧ x.locked (.cell c) = true ∧
      (x.cell c).hasTgen = true ∧ (x.cell c).posKnown = true ∧ slotIndex (bitOf f.hdr.toNat 50) (bits f.hdr.toNat 15 10) (bits f.hdr.toNat 9
      4) (x.getN (.cell c) K.stringPos) = some i ∧ f.data[i]? = some b ∧ slotValid b.toNat (bits f.hdr.toNat 47 40) = true ∧ lastPos (bitOf
      f.hdr.toNat 50) (bits f.hdr.toNat 15 10) (bits f.hdr.toNat 9 4) ≠ (x.getN (.cell c) K.stringPos : Int) ∧ bits f.hdr.toNat 3 0 = x.getN
      (.cell c) K.tamTgenLatched % 16 ∧ x.getN (.cell c) K.redAepochLatched = bits f.hdr.toNat 39 24 ∧ bits f.hdr.toNat 39 24 ≠ 0 ∧
      x.seqCycle c (bits f.hdr.toNat 47 40) = some k ∧ 60 * 256 ≤ x.margin c k ∧ (x.cell c).filed.find? (fun g => g.k == k) = none) ∧
    (∃ (port : Port) (c : CellId) (f : Frame) (s : State) (x : Plant) (i : Nat), x = s.plant.heard port f ∧ port.part = .cell c ∧
      s.plant.hears port f 2 = true ∧ x.serving (.cell c) = true ∧ (x.cell c).posKnown = true ∧ (x.knowsCycle (.cell c) = true → bits
      f.hdr.toNat 47 40 = (x.schedNow (.cell c)).k % 256) ∧ slotIndex (!bitOf f.hdr.toNat 50) (bits f.hdr.toNat 31 26) (bits f.hdr.toNat 25
      20) (x.getN (.cell c) K.stringPos) = some i) ∧
    (∃ (port : Port) (c : CellId) (f : Frame) (s : State) (x : Plant) (y : Plant), x = (s.plant.heard port f).cellForward c port.lane.val
      f ∧ y = ((x.put (.cell c) K.tamTgenLatched (bits f.hdr.toNat 23 20)).onCell c (fun e => { e with tripRx := true })).capEvent c 5 ∧
      port.part = .cell c ∧ s.plant.hears port f 3 = true ∧ chkState f = .good ∧ x.serving (.cell c) = true ∧ (y.cell c).tripSeen ≠ some
      (bits f.hdr.toNat 23 20) ∧ y.fired c = false) ∧
    (∃ (c : CellId) (s : State) (pos : Nat), pos = s.plant.getN (.cell c) K.stringPos ∧ s.plant.serving (.cell c) = true ∧ s.plant.getN
      (.cell c) K.stringLaunch = 1 ∧ (s.plant.cell c).plan.latched = none) ∧
    (∃ (c : CellId) (s : State) (pos : Nat) (v : PlanV) (b : Bool), pos = s.plant.getN (.cell c) K.stringPos ∧ b = decide (2 ≤ v.form) ∧
      s.plant.serving (.cell c) = true ∧ s.plant.getN (.cell c) K.stringLaunch = 1 ∧ (s.plant.cell c).plan.latched = some v) ∧
    (∃ (c : CellId) (s : State) (pos : Nat) (n : Nat) (v : PlanV) (b : Bool), pos = s.plant.getN (.cell c) K.stringPos ∧ n = s.plant.c
      (K.stringCells + c.str.val) - pos ∧ b = decide (2 ≤ v.form) ∧ s.plant.serving (.cell c) = true ∧ s.plant.getN (.cell c) K.stringLaunch
      = 2 ∧ (s.plant.cell c).plan.latched = some v) ∧
    (∃ (port : Port) (c : CellId) (s : State), port.part = .cell c ∧ s.plant.laneUp (.cell c) port.lane.val = true ∧ s.plant.up (.cell c)
      = true) :=
  ⟨⟨⟨.cell c0, 0⟩, c0, (mkFrame (2 ^ 52 + 2 ^ 40 + 5 * 2 ^ 24 + 2 * 2 ^ 4) [cmdSlot 1 (plainCmd 2 1), cmdSlot 1 (plainCmd 0 1)]), on
      (base |>.put (.cell c0) (laneKey 0 2) 2 |>.put (.cell c0) K.timeState 2 |>.put (.cell c0) K.redAepochLatched 5 |>.onNode (.cell c0)
      (fun n => { n with sched := { n.sched with ta := 100 } }) |>.onCell c0 (fun e => { e with posKnown := true, hasTgen := true })), _, 0,
      1, (BitVec.ofNat 64 (cmdSlot 1 (plainCmd 2 1))), rfl, by decide⟩,
    ⟨⟨.cell c0, 0⟩, c0, (mkFrame (2 * 2 ^ 52 + 2 ^ 50 + 2 ^ 20) [0, 0]), on (base |>.put (.cell c0) (laneKey 0 2) 2 |>.onCell c0 (fun e =>
      { e with posKnown := true })), _, 0, rfl, by decide⟩,
    ⟨⟨.cell c0, 0⟩, c0, (mkFrame (3 * 2 ^ 52 + 3 * 2 ^ 20) []), on (base |>.put (.cell c0) (laneKey 0 2) 2), _, _, rfl, rfl, by decide⟩,
    ⟨c0, on (base |>.put (.cell c0) K.stringLaunch 1), _, rfl, by decide⟩,
    ⟨c0, on (base |>.put (.cell c0) K.stringLaunch 1 |>.onCell c0 (fun e => { e with plan := { e.plan with latched := some planV0 } })),
      _, planV0, _, rfl, rfl, by decide⟩,
    ⟨c0, on (base |>.put (.cell c0) K.stringLaunch 2 |>.onCell c0 (fun e => { e with plan := { e.plan with latched := some planV0 } })),
      _, _, planV0, _, rfl, rfl, rfl, by decide⟩,
    ⟨⟨.cell c0, 0⟩, c0, on (base |>.put (.cell c0) (laneKey 0 2) 2), by decide⟩⟩

/-- Every clause of HubFramesComplete has a case that meets its hypotheses. -/
theorem witness_HubFramesComplete :
    (∃ (port : Port) (h : Fin 8) (f : Frame) (s : State) (x : Plant) (v : PlanV), x = s.plant.heard port f ∧ port.part = .hub h ∧ 48 ≤
      port.lane.val ∧ s.plant.hears port f 1 = true ∧ x.hubTakes h port.lane.val = true ∧ x.hubCommandWindow h (bits f.hdr.toNat 47 40) =
      true ∧ bits f.hdr.toNat 23 16 / 24 = h.val ∧ bits f.hdr.toNat 23 16 < 192 ∧ (x.hubPort h (bits f.hdr.toNat 23 16 % 24)).plan.latched =
      some v ∧ v.a = v.b ∧ 0 < v.a ∧ v.a < f.data.length) ∧
    (∃ (port : Port) (h : Fin 8) (f : Frame) (s : State) (x : Plant), x = s.plant.heard port f ∧ port.part = .hub h ∧ port.lane.val < 48 ∧
      s.plant.hears port f 2 = true ∧ (x.knowsCycle (.hub h) = true → bits f.hdr.toNat 47 40 = (x.schedNow (.hub h)).k % 256) ∧ (x.hub
      h).form < 2) ∧
    (∃ (port : Port) (h : Fin 8) (f : Frame) (s : State) (x : Plant), x = (s.plant.heard port f).sendPair (.hub h) (hubPair (!decide (50 ≤
      port.lane.val))).1 (hubPair (!decide (50 ≤ port.lane.val))).2 f ∧ port.part = .hub h ∧ 48 ≤ port.lane.val ∧ s.plant.hears port f 3 =
      true ∧ chkState f = .good ∧ x.hubTakes h port.lane.val = true) ∧
    (∃ (h : Fin 8) (lane : Fin 48) (s : State), s.plant.up (.hub h) = true ∧ lane.val % 2 = 0 ∧ (s.plant.hub h).form < 2 ∧
      (s.plant.hubPort h (lane.val / 2)).begunHead = false) ∧
    (∃ (h : Fin 8) (lane : Fin 48) (s : State), s.plant.up (.hub h) = true ∧ lane.val % 2 = 1 ∧ (s.plant.hub h).form < 2 ∧
      (s.plant.hubPort h (lane.val / 2)).begunTail = false) ∧
    (∃ (port : Port) (h : Fin 8) (s : State), port.part = .hub h ∧ port.lane.val < 48 ∧ port.lane.val % 2 = 0 ∧ s.plant.laneUp (.hub h)
      port.lane.val = true ∧ s.plant.up (.hub h) = true ∧ (s.plant.hubPort h (port.lane.val / 2)).begunHead = false) :=
  ⟨⟨⟨.hub 0, 48⟩, 0, (mkFrame (2 ^ 52 + 2 ^ 40 + 5 * 2 ^ 24 + 2 * 2 ^ 4) [cmdSlot 1 (plainCmd 2 1), cmdSlot 1 (plainCmd 0 1)]), on (base
      |>.put (.hub 0) (laneKey 48 2) 2 |>.onPort 0 0 (fun e => { e with plan := { e.plan with latched := some planV0 } })), _, planV0, rfl,
      by decide⟩,
    ⟨⟨.hub 0, 0⟩, 0, (mkFrame (2 * 2 ^ 52) []), on (base |>.put (.hub 0) (laneKey 0 2) 2), _, rfl, by decide⟩,
    ⟨⟨.hub 0, 48⟩, 0, (mkFrame (3 * 2 ^ 52 + 3 * 2 ^ 20) []), on (base |>.put (.hub 0) (laneKey 48 2) 2), _, rfl, by decide⟩,
    ⟨0, 0, on base, by decide⟩,
    ⟨0, 47, on base, by decide⟩,
    ⟨⟨.hub 0, 0⟩, 0, on (base |>.put (.hub 0) (laneKey 0 2) 2), by decide⟩⟩

/-- Every clause of LaneTrafficCompletes has a case that meets its hypotheses. -/
theorem witness_LaneTrafficCompletes :
    (∃ (lane : Fin 16) (f : Frame) (s : State) (port : Port) (x : Plant) (k : Nat), x = s.plant.heard port f ∧ port.part = .cvc ∧
      port.lane.val = lane.val ∧ s.plant.up .cvc = true ∧ s.plant.hears port f 2 = true ∧ chkState f = .good ∧ x.landCycle (bits f.hdr.toNat
      47 40) = some k ∧ bits f.hdr.toNat 39 32 < 192 ∧ bitOf f.hdr.toNat 49 = false) ∧
    (∃ (port : Port) (f : Frame) (s : State) (x : Plant), x = ((s.plant.onLane port.part port.lane.val (fun e =>
      { e with tx := none, wire := none })).switchBanks port.part).dropLate port.part port.lane.val ∧ s.plant.laneUp port.part port.lane.val
      = true ∧ x.granted port.part port.lane.val = some f ∧ (x.lane port.part port.lane.val).txq.contains f = true ∧ (x.lane port.part
      port.lane.val).again = none) ∧
    (∃ (port : Port) (t : Frame) (f : Frame) (s : State), (s.plant.lane port.part port.lane.val).txq.find? (fun g => g.ty == 3) = some t ∧
      (s.plant.lane port.part port.lane.val).tx = some f ∧ f.ty ≠ 3) ∧
    (∃ (q : Part) (t : Fin 4) (v : BitVec 32) (s : State), (tablesOf q.kind).contains t.val = true ∧ s.plant.acceptsAt q ((0x3A10 + t.val)
      * 256 + 0x22) (beBytes 4 v.toNat) = true) ∧
    (∃ (r : Req) (v : BitVec 32) (s : State), s.plant.accepts r K.slotSwitchAt (beBytes 4 v.toNat) = true) :=
  ⟨⟨0, (mkFrame (2 * 2 ^ 52) []), on (base |>.put .cvc (laneKey 0 2) 2 |>.onNode .cvc (fun n =>
      { n with sched := { n.sched with valid := true } })), ⟨.cvc, 0⟩, _, 0, rfl, by decide⟩,
    ⟨⟨.cell c0, 0⟩, (mkFrame (3 * 2 ^ 52 + 3 * 2 ^ 20) []), on (base |>.put (.cell c0) (laneKey 0 2) 2 |>.onLane (.cell c0) 0 (fun e =>
      { e with txq := [(mkFrame (3 * 2 ^ 52 + 3 * 2 ^ 20) [])] })), _, rfl, by decide⟩,
    ⟨⟨.cell c0, 0⟩, (mkFrame (3 * 2 ^ 52 + 3 * 2 ^ 20) []), (mkFrame (2 ^ 52 + 2 ^ 40 + 5 * 2 ^ 24 + 2 * 2 ^ 4) [cmdSlot 1 (plainCmd 2 1),
      cmdSlot 1 (plainCmd 0 1)]), on (base |>.put (.cell c0) (laneKey 0 2) 2 |>.onLane (.cell c0) 0 (fun e => { e with
        txq := [(mkFrame (3 * 2 ^ 52 + 3 * 2 ^ 20) [])], tx := some (mkFrame (2 ^ 52 + 2 ^ 40 + 5 * 2 ^ 24 + 2 * 2 ^ 4) [cmdSlot 1 (plainCmd 2 1), cmdSlot 1 (plainCmd 0 1)]) })),
      by decide⟩,
    ⟨.cell c0, 3, 2, on (base |>.onNode (.cell c0) (fun n => { n with sched := { n.sched with tc := 100000, ta := 50000 } })), by decide⟩,
    ⟨r0, 0x7FFFFFFF, on (hosted |>.onNode .cvc (fun n => { n with sched := { n.sched with tc := 100000, ta := 50000 } })), by decide⟩⟩

/-- Every clause of ServiceFramesComplete has a case that meets its hypotheses. -/
theorem witness_ServiceFramesComplete :
    (∃ (port : Port) (c : CellId) (f : Frame) (s : State) (x : Plant) (row : ObjRow), x = s.plant.heard port f ∧ rowOf 2 (svcKey f) = some
      row ∧ port.part = .cell c ∧ s.plant.hears port f 5 = true ∧ chkState f = .good ∧ x.up (.cell c) = true ∧ x.halted (.cell c) = false ∧
      (x.node (.cell c)).power.softDue = false ∧ svcIsResponse f = false ∧ svcOp f = 0 ∧ (x.cell c).posKnown = true ∧ svcNode f = (Part.cell
      c).node ∧ row.isBlob = false ∧ readStatus 2 (svcKey f) = 0) ∧
    (∃ (port : Port) (c : CellId) (f : Frame) (s : State) (x : Plant) (y : Plant), x = s.plant.heard port f ∧ x.applyWrite (.cell c) 0
      (svcKey f) (svcValue f) = (0, y) ∧ port.part = .cell c ∧ s.plant.hears port f 5 = true ∧ chkState f = .good ∧ x.halted (.cell c) =
      false ∧ svcIsResponse f = false ∧ svcOp f = 1 ∧ (x.cell c).posKnown = true ∧ svcNode f = (Part.cell c).node ∧ x.acceptsAt (.cell c)
      (svcKey f) (svcValue f) = true ∧ (y.node (.cell c)).power.softDue = false) ∧
    (∃ (port : Port) (c : CellId) (f : Frame) (s : State) (x : Plant), x = s.plant.heard port f ∧ port.part = .cell c ∧ s.plant.hears port
      f 5 = true ∧ chkState f = .good ∧ x.up (.cell c) = true ∧ x.halted (.cell c) = false ∧ (x.node (.cell c)).power.softDue = false ∧
      svcIsResponse f = false ∧ svcOp f = 2 ∧ (x.cell c).posKnown = true ∧ svcNode f = (Part.cell c).node ∧ readStatus 2 (svcKey f) = 0 ∧
      svcKey f ≠ K.caveRec ∧ svcKey f ≠ K.capData) ∧
    (∃ (port : Port) (c : CellId) (f : Frame) (s : State) (x : Plant) (row : ObjRow), x = s.plant.heard port f ∧ rowOf 2 (svcKey f) = some
      row ∧ port.part = .cell c ∧ s.plant.hears port f 5 = true ∧ chkState f = .good ∧ x.up (.cell c) = true ∧ x.halted (.cell c) = false ∧
      (x.node (.cell c)).power.softDue = false ∧ svcIsResponse f = false ∧ svcOp f = 3 ∧ (x.cell c).posKnown = true ∧ svcNode f = (Part.cell
      c).node ∧ svcOffset f = 0 ∧ (svcValue f).length = 240 ∧ 240 ≤ row.maxLen) ∧
    (∃ (port : Port) (f : Frame) (s : State), port.part = .cvc ∧ 16 ≤ port.lane.val ∧ s.plant.hears port f 5 = true ∧ chkState f = .good ∧
      s.plant.up .cvc = true ∧ s.plant.c K.redRole = 2 ∧ svcOp f = 3 ∧ svcIsResponse f = false ∧ svcNode f = 0 ∧ svcKey f = K.redMirror) ∧
    (∃ (port : Port) (c : CellId) (f : Frame) (s : State) (x : Plant), x = s.plant.heard port f ∧ port.part = .cell c ∧ s.plant.hears port
      f 5 = true ∧ chkState f = .good ∧ x.up (.cell c) = true ∧ x.halted (.cell c) = false ∧ (x.node (.cell c)).power.softDue = false ∧
      svcIsResponse f = false ∧ svcOp f = 4 ∧ nth (svcValue f) 0 < 48) ∧
    (∃ (port : Port) (c : CellId) (f : Frame) (s : State) (x : Plant), x = s.plant.heard port f ∧ port.part = .cell c ∧ s.plant.hears port
      f 5 = true ∧ (x.node (.cell c)).power.softDue = false ∧ svcNode f ≠ (Part.cell c).node ∧ svcOp f = 0) ∧
    (∃ (port : Port) (c : CellId) (f : Frame) (s : State) (x : Plant), x = s.plant.heard port f ∧ port.part = .cell c ∧ s.plant.hears port
      f 5 = true ∧ (x.node (.cell c)).power.softDue = false ∧ x.halted (.cell c) = true ∧ svcOp f = 0) :=
  ⟨⟨⟨.cell c0, 0⟩, c0, (svcRequest 0 1 4096 K.nrgState 0 []), on (base |>.put (.cell c0) (laneKey 0 2) 2 |>.onCell c0 (fun e =>
      { e with posKnown := true })), _, _, rfl, rfl, by decide⟩,
    ⟨⟨.cell c0, 0⟩, c0, (svcRequest 1 1 4096 K.capPre 0 [0, 5]), on (base |>.put (.cell c0) (laneKey 0 2) 2 |>.onCell c0 (fun e =>
      { e with posKnown := true })), _, _, rfl, rfl, by decide⟩,
    ⟨⟨.cell c0, 0⟩, c0, (svcRequest 2 1 4096 K.nrgState 0 []), on (base |>.put (.cell c0) (laneKey 0 2) 2 |>.onCell c0 (fun e =>
      { e with posKnown := true })), _, rfl, by decide⟩,
    ⟨⟨.cell c0, 0⟩, c0, (svcRequest 3 1 4096 K.bootFwLoad 0 (List.replicate 240 1)), on (base |>.put (.cell c0) (laneKey 0 2) 2 |>.onCell
      c0 (fun e => { e with posKnown := true })), _, _, rfl, rfl, by decide⟩,
    ⟨⟨.cvc, 16⟩, (svcRequest 3 0 0 K.redMirror 0 [1, 2, 3, 4]), on (base |>.put .cvc (laneKey 16 2) 2 |>.put .cvc K.redRole 2), by
      decide⟩,
    ⟨⟨.cell c0, 0⟩, c0, (svcRequest 4 1 0 0 0 [0, 0, 0, 0, 0, 0, 0, 0]), on (base |>.put (.cell c0) (laneKey 0 2) 2), _, rfl, by decide⟩,
    ⟨⟨.cell c0, 0⟩, c0, (svcRequest 0 1 4097 K.nrgState 0 []), on (base |>.put (.cell c0) (laneKey 0 2) 2), _, rfl, by decide⟩,
    ⟨⟨.cell c0, 0⟩, c0, (svcRequest 0 1 4096 K.nrgState 0 []), on (base |>.put (.cell c0) (laneKey 0 2) 2 |>.onCell c0 (fun e =>
      { e with halted := true })), _, rfl, by decide⟩⟩

/-- Every clause of CvcServiceCompletes has a case that meets its hypotheses. -/
theorem witness_CvcServiceCompletes :
    (∃ (lane : Fin 18) (f : Frame) (s : State) (port : Port), port.part = .cvc ∧ port.lane.val = lane.val ∧ s.plant.up .cvc = true ∧
      s.plant.hears port f 5 = true ∧ chkState f = .good ∧ (s.plant.heard port f).up .cvc = true ∧ svcIsResponse f = true ∧ svcOp f = 4 ∧
      svcKey f % 256 < 192 ∧ (svcValue f).length = 20 ∧ nth (svcValue f) 13 = 0) ∧
    (∃ (lane : Fin 18) (f : Frame) (s : State) (port : Port) (x : Plant) (r : SvcReq), x = s.plant.heard port f ∧ port.part = .cvc ∧
      port.lane.val = lane.val ∧ s.plant.up .cvc = true ∧ s.plant.hears port f 5 = true ∧ chkState f = .good ∧ x.up .cvc = true ∧
      svcIsResponse f = true ∧ svcOp f ≠ 4 ∧ x.cvc.proxy.out.find? (fun r => r.tag == svcTag f && r.node == svcNode f && r.op == svcOp f) =
      some r ∧ r.sent ≠ 1) ∧
    (∃ (tag : Byte) (s : State) (r : SvcReq) (port : Nat) (rid : Nat) (seq : Nat) (inc : Nat) (msg : Nat), s.plant.up .cvc = true ∧
      s.plant.cvc.proxy.out.find? (fun r => r.tag == tag.toNat) = some r ∧ r.what = .host port rid seq inc msg) ∧
    (∃ (s : State), s.plant.up .cvc = true ∧ s.plant.misstrapped = false ∧ s.plant.c K.bootStatus ≠ 2) ∧
    (∃ (str : StringNo) (s : State), s.plant.up .cvc = true ∧ (s.plant.strInfo str.val).found = true) ∧
    (∃ (str : StringNo) (s : State), s.plant.up .cvc = true ∧ (s.plant.strInfo str.val).found = true) ∧
    (∃ (str : StringNo) (s : State), s.plant.up .cvc = true ∧ (s.plant.strInfo str.val).found = false) ∧
    (∃ (str : StringNo) (s : State), s.plant.up .cvc = true ∧ (s.plant.strInfo str.val).found = false) :=
  ⟨⟨0, (svcResponse 4 1 0 0 0 (List.replicate 20 0)), on (base |>.put .cvc (laneKey 0 2) 2), ⟨.cvc, 0⟩, by decide⟩,
    ⟨0, (svcResponse 0 1 4096 K.nrgState 0 [2]), on (base |>.put .cvc (laneKey 0 2) 2 |>.onCvc (fun c =>
      { c with proxy := { c.proxy with out := [svcReq0] } })), ⟨.cvc, 0⟩, _, svcReq0, rfl, by decide⟩,
    ⟨1, on (base |>.onCvc (fun c => { c with proxy := { c.proxy with out := [svcReq0] } })), svcReq0, 0, 7, 1, 1, 1, by decide⟩,
    ⟨on base, by decide⟩,
    ⟨0, on (base |>.onCvc (fun c => { c with strs := [(0, { (default : StrInfo) with found := true })] })), by decide⟩,
    ⟨0, on (base |>.onCvc (fun c => { c with strs := [(0, { (default : StrInfo) with found := true })] })), by decide⟩,
    ⟨191, on base, by decide⟩,
    ⟨191, on base, by decide⟩⟩

/-- Every clause of TimeFramesComplete has a case that meets its hypotheses. -/
theorem witness_TimeFramesComplete :
    (∃ (port : Port) (c : CellId) (f : Frame) (tap : Fin 64) (s : State) (x : Plant) (y : Plant) (rx : Int), x = s.plant.heard port f ∧ rx
      = x.arrival (.cell c) tap ∧ y = (x.put (.cell c) K.tamTgenLatched (bits f.hdr.toNat 39 36)).onCell c (fun e =>
      { e with hasTgen := true }) ∧ port.part = .cell c ∧ s.plant.hears port f 4 = true ∧ chkState f = .good ∧ timeKind f = 0 ∧ x.serving
      (.cell c) = true ∧ (x.locked (.cell c) = true → x.timeInWindow (.cell c) (bits f.hdr.toNat 47 40) = true) ∧ x.calibrated (.cell c)
      port.lane.val = true ∧ x.forwardsSync c port.lane.val = true ∧ y.primaryLane c port.lane.val = true ∧ y.hadPrimary (.cell c) (bits
      f.hdr.toNat 47 40) = false) ∧
    (∃ (port : Port) (h : Fin 8) (f : Frame) (s : State) (x : Plant), x = s.plant.heard port f ∧ port.part = .hub h ∧ 48 ≤ port.lane.val ∧
      port.lane.val % 2 = 0 ∧ s.plant.hears port f 4 = true ∧ chkState f = .good ∧ timeKind f = 1 ∧ x.getN (.hub h) K.hubAllegiance =
      (port.lane.val - 48) / 2 ∧ (x.locked (.hub h) = true → x.timeInWindow (.hub h) (bits f.hdr.toNat 47 40) = true) ∧ x.calibrated (.hub
      h) port.lane.val = true ∧ x.hadPrimary (.hub h) (bits f.hdr.toNat 47 40) = false) ∧
    (∃ (port : Port) (h : Fin 8) (f : Frame) (s : State) (x : Plant), x = s.plant.heard port f ∧ port.part = .hub h ∧ 48 ≤ port.lane.val ∧
      port.lane.val % 2 = 1 ∧ s.plant.hears port f 4 = true ∧ chkState f = .good ∧ timeKind f = 1 ∧ x.getN (.hub h) K.hubAllegiance =
      (port.lane.val - 48) / 2 ∧ (x.locked (.hub h) = true → x.timeInWindow (.hub h) (bits f.hdr.toNat 47 40) = true) ∧ x.calibrated (.hub
      h) port.lane.val = true ∧ x.hadPrimary (.hub h) (bits f.hdr.toNat 47 40) = false ∧ x.laneUp (.hub h) (port.lane.val - 1) = true ∧
      x.calibrated (.hub h) (port.lane.val - 1) = true ∧ (x.hub h).upBad ≠ bits f.hdr.toNat 47 40 + 1) ∧
    (∃ (s : State) (sc : Sched), sc = s.plant.schedAtS .cvc ∧ s.plant.up .cvc = true ∧ sc.valid = true) ∧
    (∃ (h : Fin 8) (s : State) (sc : Sched) (own : Int), sc = s.plant.schedAtS (.hub h) ∧ own = s.plant.ownNs (.hub h) sc.s ∧ s.plant.up
      (.hub h) = true ∧ sc.valid = true ∧ s.plant.locked (.hub h) = true) ∧
    (∃ (q : Part) (s : State) (h : Fin 8) (l : Nat) (f : Frame) (rx : Int), s.plant.lateHeld q = some (h, l, f, rx) ∧ s.plant.up q = true)
      ∧
    (∃ (q : Part) (s : State), q ≠ .cvc ∧ s.plant.up q = true ∧ s.plant.getN q K.timeState = 2 ∧ s.plant.lateHeld q = none) ∧
    (∃ (q : Part) (s : State), q ≠ .cvc ∧ s.plant.up q = true ∧ s.plant.getN q K.timeState = 3 ∧ s.plant.getN q K.timeHoldover ≤
      (s.plant.node q).sched.missRun) ∧
    (∃ (q : Part) (s : State), q ≠ .cvc ∧ s.plant.up q = true) :=
  ⟨⟨⟨.cell c0, 0⟩, c0, (timeFrame 0 1 0 0 0 0 []), 0, on (base |>.put (.cell c0) (laneKey 0 2) 2 |>.onLane (.cell c0) 0 (fun e =>
      { e with exch := { e.exch with results := List.replicate 16 0 } })), _, _, _, rfl, rfl, rfl, by decide⟩,
    ⟨⟨.hub 0, 48⟩, 0, (timeFrame 1 1 0 0 0 0 [0]), on (base |>.put (.hub 0) (laneKey 48 2) 2 |>.onLane (.hub 0) 48 (fun e => { e with
        exch := { e.exch with results := List.replicate 16 0 } })), _, rfl, by decide⟩,
    ⟨⟨.hub 0, 49⟩, 0, (timeFrame 1 1 0 0 0 0 [0]), on (base |>.put (.hub 0) (laneKey 49 2) 2 |>.put (.hub 0) (laneKey 48 2) 2 |>.onLane
      (.hub 0) 49 (fun e => { e with exch := { e.exch with results := List.replicate 16 0 } }) |>.onLane (.hub 0) 48 (fun e => { e with
        exch := { e.exch with results := List.replicate 16 0 } })), _, rfl, by decide⟩,
    ⟨on (base |>.onNode .cvc (fun n => { n with sched := { n.sched with valid := true } })), _, rfl, by decide⟩,
    ⟨0, on (base |>.onNode (.hub 0) (fun n => { n with sched := { n.sched with valid := true } }) |>.put (.hub 0) K.timeState 2), _, _,
      rfl, rfl, by decide⟩,
    ⟨.hub 0, on (base |>.onHub 0 (fun e => { e with heldUp := some (49, timeFrame 1 1 0 0 0 0 [], 0) })), _, _, _, _, rfl, by decide⟩,
    ⟨.cell c0, on (base |>.put (.cell c0) K.timeState 2), by decide⟩,
    ⟨.cell c0, on (base |>.put (.cell c0) K.timeState 3 |>.onNode (.cell c0) (fun n => { n with
        sched := { n.sched with missRun := 1000000000000 } })), by decide⟩,
    ⟨.hub 0, on base, by decide⟩⟩

/-- Every clause of LinkTimingCompletes has a case that meets its hypotheses. -/
theorem witness_LinkTimingCompletes :
    (∃ (port : Port) (s : State), s.plant.up port.part = true ∧ s.plant.laneUp port.part port.lane.val = true ∧ (port.part = .cvc →
      s.plant.serviceOnly port.lane.val = false)) ∧
    (∃ (port : Port) (f : Frame) (tap : Fin 64) (s : State) (x : Plant) (t2 : Int), x = s.plant.heard port f ∧ t2 = x.arrival port.part
      tap ∧ s.plant.up port.part = true ∧ s.plant.hears port f 4 = true ∧ chkState f = .good ∧ timeKind f = 2) ∧
    (∃ (port : Port) (f : Frame) (tap : Fin 64) (s : State) (x : Plant) (y : Plant), x = s.plant.heard port f ∧ y = ((x.onLane port.part
      port.lane.val (fun e => { e with
        exch := { e.exch with out := false, results := ((x.arrival port.part tap - (x.lane port.part port.lane.val).exch.t1 - corrOf f) :: e.exch.results).take 16 } })).bump
      port.part (timeKey port.lane.val 4) 1).showDelay port.part port.lane.val (x.lane port.part port.lane.val).exch.results.length ∧
      s.plant.up port.part = true ∧ s.plant.hears port f 4 = true ∧ chkState f = .good ∧ timeKind f = 3 ∧ (x.lane port.part
      port.lane.val).exch.out = true) ∧
    (∃ (str : StringNo) (s : State) (n : Nat) (a : CellId) (b : CellId), n = s.plant.c (K.stringCells + str.val) ∧ s.plant.up .cvc = true
      ∧ 2 ≤ n ∧ s.plant.c (K.stringLost + str.val) = 0 ∧ cellAt str.val ((n + 1) / 2 - 1) = some a ∧ cellAt str.val ((n + 1) / 2) = some b ∧
      s.plant.up (.cell a) = true ∧ s.plant.up (.cell b) = true ∧ s.plant.get (.cell a) K.timeClosureOwn ≠ 0x7FFFFFFF ∧ s.plant.get (.cell
      b) K.timeClosureOwn ≠ 0x7FFFFFFF) ∧
    (∃ (str : StringNo) (s : State), s.plant.up .cvc = true ∧ s.plant.c (K.stringLost + str.val) ≠ 0) :=
  ⟨⟨⟨.cell c0, 0⟩, on (base |>.put (.cell c0) (laneKey 0 2) 2), by decide⟩,
    ⟨⟨.cell c0, 0⟩, (timeFrame 2 0 0 0 0 0 []), 0, on (base |>.put (.cell c0) (laneKey 0 2) 2), _, _, rfl, rfl, by decide⟩,
    ⟨⟨.cell c0, 0⟩, (timeFrame 3 0 0 0 0 0 []), 0, on (base |>.put (.cell c0) (laneKey 0 2) 2 |>.onLane (.cell c0) 0 (fun e =>
      { e with exch := { e.exch with out := true } })), _, _, rfl, rfl, by decide⟩,
    ⟨0, on ((start base (.cell ⟨0, 1⟩)) |>.put .cvc K.stringCells 2 |>.put (.cell c0) K.timeClosureOwn 0 |>.put (.cell ⟨0, 1⟩)
      K.timeClosureOwn 0), _, c0, ⟨0, 1⟩, rfl, by decide⟩,
    ⟨191, on (base |>.put .cvc (K.stringLost + 191) 1), by decide⟩⟩

/-- Every clause of PtpCompletes has a case that meets its hypotheses. -/
theorem witness_PtpCompletes :
    (∃ (port : HostPort) (m : Announce) (s : State), s.plant.up .cvc = true ∧ m.domain.toNat = s.plant.c K.timePtpDomain ∧ s.plant.c
      K.timePtpPort = port.val ∧ s.plant.c K.timePtpActive = 0xFF ∧ s.plant.cvc.ptp.best = none ∧ m.utcValid = false ∧ s.plant.c
      K.timeSource ≠ 1) ∧
    (∃ (port : HostPort) (s : State), s.plant.up .cvc = true ∧ s.plant.ptpHears port = true ∧ s.plant.c K.timeSource ≠ 1) ∧
    (∃ (port : HostPort) (offset : BitVec 64) (s : State) (x : Plant), x = (((s.plant.cPut K.timePtpOffset (clampI (-2147483648)
      2147483647 offset.toInt)).cPut K.timePtpState 9).onCvc (fun v => { v with
        ptp := { v.ptp with waitFup := false, offsetSeen := true } })).cPut K.timeState 2 ∧ s.plant.up .cvc = true ∧ s.plant.ptpHears port =
      true ∧ s.plant.c K.timeSource = 1 ∧ s.plant.c K.redRole ≠ 2 ∧ 2 ≤ s.plant.conv ∧ offset.toInt.natAbs ≤ s.plant.c K.timePtpStepThr ∧
      (servoClock (s.plant.node .cvc).clock s.plant.tick (-offset.toInt * 256) (s.plant.c K.timeCvcSlew * 256 / 1000) s.plant.tc).2 = false)
      ∧
    (∃ (port : HostPort) (offset : BitVec 64) (s : State), s.plant.up .cvc = true ∧ s.plant.ptpHears port = true ∧ s.plant.c K.timeSource
      = 1 ∧ s.plant.c K.redRole ≠ 2 ∧ 2 ≤ s.plant.conv ∧ s.plant.c K.timePtpStepThr < offset.toInt.natAbs) ∧
    (∃ (port : HostPort) (s : State), s.plant.up .cvc = true ∧ s.plant.ptpHears port = true) ∧
    (∃ (port : HostPort) (s : State), s.plant.up .cvc = true ∧ s.plant.ptpHears port = true ∧ s.plant.cvc.ptp.waitFup = true ∧ s.plant.c
      K.timeSource ≠ 1) ∧
    (∃ (port : HostPort) (s : State), s.plant.up .cvc = true ∧ port.val = s.plant.ptpPort) ∧
    (∃ (s : State), s.plant.up .cvc = true) ∧
    (∃ (s : State), s.plant.up .cvc = true ∧ s.plant.c K.timeSource = 1 ∧ s.plant.c K.timeState = 2 ∧ s.plant.ptpPort = s.plant.c
      K.timePtpPort ∧ s.plant.c K.timePtpPort2 ≠ 0xFF) ∧
    (∃ (r : Req) (s : State), s.plant.accepts r K.timeCalApply (beBytes 1 1) = true) :=
  ⟨⟨4, announce0, on (base |>.put .cvc K.timePtpPort 4 |>.put .cvc K.timePtpActive 255 |>.put .cvc K.timePtpDomain 0 |>.put .cvc
      K.timeSource 0), by decide⟩,
    ⟨0, ptpState, by decide⟩,
    ⟨0, 100, on (ptpState.plant |>.put .cvc K.timeSource 1 |>.put .cvc K.convState 2), _, rfl, by decide⟩,
    ⟨0, 0x7FFFFFFFFFFFFFFF, on (ptpState.plant |>.put .cvc K.timeSource 1 |>.put .cvc K.convState 2), by decide⟩,
    ⟨0, ptpState, by decide⟩,
    ⟨0, { ptpState with plant := ptpState.plant.onCvc (fun c => { c with ptp := { c.ptp with waitFup := true } }) }, by decide⟩,
    ⟨0, on (base |>.put .cvc K.timePtpActive 0 |>.put .cvc K.timePtpPort 0), by decide⟩,
    ⟨on base, by decide⟩,
    ⟨on (base |>.put .cvc K.timeSource 1 |>.put .cvc K.timeState 2 |>.put .cvc K.timePtpPort 0 |>.put .cvc K.timePtpPort2 1 |>.put .cvc
      K.timePtpActive 0), by decide⟩,
    ⟨r0, on hosted, by decide⟩⟩

/-- Every clause of RindCompletes has a case that meets its hypotheses. -/
theorem witness_RindCompletes :
    (∃ (s : State), s.plant.up .cvc = true ∧ s.plant.chRuns 0 = false ∧ s.plant.chRuns 1 = false) ∧
    (∃ (s : State) (ca : Option Nat) (cb : Option Nat) (x : Plant) (y : Plant), ca = none ∧ cb = none ∧ s.plant.evalChan 0 s.plant.k =
      (ca, x) ∧ x.evalChan 1 x.k = (cb, y) ∧ s.plant.up .cvc = true) ∧
    (∃ (s : State) (a : Nat) (b : Nat) (x : Plant) (y : Plant), s.plant.evalChan 0 s.plant.k = (some a, x) ∧ x.evalChan 1 x.k = (some b,
      y) ∧ s.plant.up .cvc = true) ∧
    (∃ (s : State) (a : Nat) (x : Plant) (y : Plant), s.plant.evalChan 0 s.plant.k = (some a, x) ∧ x.evalChan 1 x.k = (none, y) ∧
      s.plant.up .cvc = true) ∧
    (∃ (s : State) (b : Nat) (x : Plant) (y : Plant), s.plant.evalChan 0 s.plant.k = (none, x) ∧ x.evalChan 1 x.k = (some b, y) ∧
      s.plant.up .cvc = true) ∧
    (∃ (input : Fin 16) (code : BitVec 32) (s : State), s.plant.up .cvc = true ∧ (s.plant.inRole (input.val / 8) (input.val % 8) = 3 ∨
      s.plant.inRole (input.val / 8) (input.val % 8) = 4) ∧ s.plant.chState (input.val / 8) ≠ 0 ∧ code.toInt ≠ puOne ∧ code.toInt ≠ -puOne)
      ∧
    (∃ (ch : Fin 2) (s : State), s.plant.up .cvc = true ∧ (s.plant.chan (1 - ch.val)).trip = true) ∧
    (∃ (ch : Fin 2) (s : State), s.plant.up .cvc = true ∧ s.plant.chRuns ch.val = true) ∧
    (∃ (s : State), s.plant.up .cvc = true) ∧
    (∃ (ch : Fin 2) (s : State), s.plant.up .cvc = true ∧ s.plant.chState ch.val ≠ 0) ∧
    (∃ (ch : Fin 2) (s : State), s.plant.up .cvc = true ∧ s.plant.chState ch.val = 3 ∧ (s.plant.conv = 2 ∨ s.plant.conv = 7) ∧
      s.plant.chClear ch.val = true) ∧
    (∃ (ch : Fin 2) (s : State), s.plant.up .cvc = true ∧ s.plant.conv = 7 ∧ s.plant.chState ch.val = 2 ∧ (s.plant.chan ch.val).breach =
      false ∧ s.plant.c K.rindTripCause % 64 ≠ 8 ∧ s.plant.c K.rindTripCause % 64 ≠ 9) ∧
    (∃ (s : State), s.plant.up .cvc = true ∧ s.plant.conv = 6) ∧
    (∃ (ch : Fin 2) (crc : BitVec 32) (s : State), s.plant.up .cvc = true ∧ s.plant.chRuns ch.val = true ∧ crc.toNat ≠ s.plant.c
      K.rindImageCrc) ∧
    (∃ (input : Fin 16) (s : State), s.plant.up .cvc = true ∧ s.plant.inRole (input.val / 8) (input.val % 8) ≠ 0) :=
  ⟨⟨on base, by decide⟩,
    ⟨on base, none, none, _, _, rfl, rfl, rfl, rfl, by decide⟩,
    ⟨breachState true true, 7, 7, _, _, rfl, rfl, by decide⟩,
    ⟨breachState true false, 7, _, _, rfl, rfl, by decide⟩,
    ⟨breachState false true, 7, _, _, rfl, rfl, by decide⟩,
    ⟨8, 0, on (base |>.put .cvc (K.rindInRole + 256) 3 |>.put .cvc (K.rindSaState + 1) 2), by decide⟩,
    ⟨1, on (base |>.onChan 0 (fun x => { x with trip := true })), by decide⟩,
    ⟨1, on (base |>.put .cvc (K.rindSaState + 1) 2), by decide⟩,
    ⟨on base, by decide⟩,
    ⟨0, on (base |>.put .cvc K.rindSaState 2), by decide⟩,
    ⟨0, on (base |>.put .cvc K.rindSaState 3 |>.put .cvc K.convState 2), by decide⟩,
    ⟨0, on (base |>.put .cvc K.rindSaState 2 |>.put .cvc K.convState 7), by decide⟩,
    ⟨on (base |>.put .cvc K.convState 6), by decide⟩,
    ⟨0, 1, on (base |>.put .cvc K.rindSaState 2), by decide⟩,
    ⟨15, on (base |>.put .cvc (K.rindInRole + 256 + 7) 1), by decide⟩⟩

/-- Every clause of SafetyImageCompletes has a case that meets its hypotheses. -/
theorem witness_SafetyImageCompletes :
    (∃ (r : Req) (bytes : List Byte) (s : State), s.plant.acceptsWhole r K.rindImageStage (bytes.map BitVec.toNat) = true) ∧
    (∃ (r : Req) (v : BitVec 32) (s : State) (x : Plant), x = s.plant.taken r (writeReq K.rindImageArm (beBytes 4 v.toNat)) ∧
      s.plant.accepts r K.rindImageArm (beBytes 4 v.toNat) = true ∧ crc32c (imageBody x.safetyImage) = v.toNat ∧ le32 x.safetyImage 0x10 =
      v.toNat ∧ x.safetyContentOk x.safetyImage = true) ∧
    (∃ (r : Req) (v : BitVec 16) (s : State) (x : Plant), x = s.plant.taken r (writeReq K.rindImageCommit (beBytes 2 v.toNat)) ∧
      s.plant.accepts r K.rindImageCommit (beBytes 2 v.toNat) = true ∧ x.cvc.rind.armedBy = r.rid.toNat ∧ v.toNat = (x.c
      K.rindImageChallenge) ^^^ (le32 x.safetyImage 8 % 65536)) ∧
    (∃ (s : State), s.plant.up .cvc = true ∧ s.plant.c K.rindImageStatus = 2 ∧ s.plant.cvc.rind.commitDue = false) ∧
    (∃ (q : Part) (u : Fin 4) (result : BitVec 32) (s : State) (v : Nat), v = scanValue s.mem (q.kind == 0) (s.plant.getN q ((0x5A00 +
      u.val) * 256 + 1)) (s.plant.getN q ((0x5A00 + u.val) * 256 + 2)) (s.plant.getN q ((0x5A00 + u.val) * 256 + 3)) result.toNat ∧
      s.plant.up q = true ∧ s.plant.unitScans q u.val = true ∧ v = s.plant.getN q ((0x5A00 + u.val) * 256 + 4)) ∧
    (∃ (u : Fin 4) (s : State), s.plant.up .cvc = true ∧ s.plant.unitOn .cvc u.val = true) ∧
    (∃ (c : CellId) (s : State), s.plant.up (.cell c) = true ∧ s.plant.unitOn (.cell c) 0 = true) :=
  ⟨⟨r0, [1, 2], on hosted, by decide⟩,
    ⟨r0, (BitVec.ofNat 32 (le32 safetyImage0 0x10)), safetyState, _, rfl, by decide⟩,
    ⟨r0, 5, on (hosted |>.put .cvc K.rindImageStatus 2 |>.onCvc (fun c => { c with rind := { c.rind with armedBy := 7 } }) |>.put .cvc
      K.rindImageChallenge 5 |>.putBlob .cvc K.rindImageStage [1]), _, rfl, by decide⟩,
    ⟨on (base |>.put .cvc K.rindImageStatus 2), by decide⟩,
    ⟨.cvc, 3, 0, on (base |>.put .cvc (0x5A0301) 1), _, rfl, by decide⟩,
    ⟨3, on (base |>.put .cvc (0x5A0301) 1), by decide⟩,
    ⟨c0, on (base |>.put (.cell c0) (0x5A0001) 1), by decide⟩⟩

/-- Every clause of FaultsComplete has a case that meets its hypotheses. -/
theorem witness_FaultsComplete :
    (∃ (src : Source) (s : State), s.plant.up .cvc = true ∧ s.plant.pendingSrc .cvc src.val = true ∧ Tab.get (fun _ => 0) (s.plant.node
      .cvc).faults.deadline src.val ≠ 0) ∧
    (∃ (q : Part) (src : Source) (s : State), s.plant.up q = true ∧ s.plant.pendingSrc q src.val = true ∧ s.plant.effSev q src.val = 0) ∧
    (∃ (q : Part) (v : BitVec 16) (s : State), s.plant.acceptsAt q K.faultAck (beBytes 2 v.toNat) = true) ∧
    (∃ (r : Req) (v : BitVec 16) (s : State), s.plant.accepts r K.faultAck (beBytes 2 v.toNat) = true) ∧
    (∃ (r : Req) (v : BitVec 16) (s : State), s.plant.accepts r K.faultEmergClear (beBytes 2 v.toNat) = true) ∧
    (∃ (s : State), s.plant.up .cvc = true) ∧
    (∃ (p : Plant) (h : Fin 8), p.hubServes h.val = true ∧ p.hubUnlocked h = false) :=
  ⟨⟨0, on (base |>.raise .cvc 0 0 |>.onNode .cvc (fun n => { n with faults := { n.faults with deadline := [(0, 5)] } })), by decide⟩,
    ⟨.cell c0, 23, on (base |>.put (.cell c0) (K.faultSev + 23) 0 |>.raise (.cell c0) 23 0), by decide⟩,
    ⟨.cell c0, 0xFFFF, on base, by decide⟩,
    ⟨r0, 0, on hosted, by decide⟩,
    ⟨r0, 0x7E7E, on hosted, by decide⟩,
    ⟨on base, by decide⟩,
    ⟨(base |>.onCvc (fun c => { c with hubs := [(0, { (default : HubInfo) with found := true })] })), 0, by decide⟩⟩

/-- Every clause of CaveCompletes has a case that meets its hypotheses. -/
theorem witness_CaveCompletes :
    (∃ (q : Part) (s : State) (r : CaveRec) (rest : List CaveRec), s.plant.up q = true ∧ (s.plant.node q).cave.clearing = false ∧
      (s.plant.node q).cave.queue = r :: rest ∧ (q.kind = 2 → s.plant.getN q K.nrgState = 2)) ∧
    (∃ (q : Part) (s : State) (r : CaveRec) (rest : List CaveRec), s.plant.up q = true ∧ (s.plant.node q).cave.clearing = false ∧
      (s.plant.node q).cave.queue = r :: rest ∧ (q.kind = 2 → s.plant.getN q K.nrgState = 2)) ∧
    (∃ (q : Part) (v : BitVec 32) (s : State), s.plant.acceptsAt q K.caveClear (beBytes 4 v.toNat) = true) ∧
    (∃ (r : Req) (v : BitVec 32) (s : State), s.plant.accepts r K.caveClear (beBytes 4 v.toNat) = true) ∧
    (∃ (q : Part) (s : State), s.plant.up q = true ∧ (s.plant.node q).cave.clearing = true) ∧
    (∃ (q : Part) (s : State) (r : CaveRec), q ≠ .cvc ∧ s.plant.up q = true ∧ (s.plant.node q).cave.recs.find? (fun x => decide
      (s.plant.getN q K.caveSel ≤ x.seq)) = some r) :=
  ⟨⟨.cvc, on (base |>.onNode .cvc (fun n => { n with cave := { n.cave with queue := [rec0] } })), rec0, [], by decide⟩,
    ⟨.cvc, on (base |>.onNode .cvc (fun n => { n with cave := { n.cave with queue := [rec0] } })), rec0, [], by decide⟩,
    ⟨.hub 0, 0xC1EA2C1E, on (base |>.put .cvc K.convState 2), by decide⟩,
    ⟨r0, 5, on (hosted |>.put .cvc K.rindCaveToken 5), by decide⟩,
    ⟨.hub 0, on (base |>.onNode (.hub 0) (fun n => { n with cave := { n.cave with clearing := true } })), by decide⟩,
    ⟨.hub 0, on (base |>.onNode (.hub 0) (fun n => { n with cave := { n.cave with recs := [rec0] } })), rec0, by decide⟩⟩

/-- Every clause of AcquisitionControlCompletes has a case that meets its hypotheses. -/
theorem witness_AcquisitionControlCompletes :
    (∃ (r : Req) (s : State), s.plant.accepts r K.acqCtrl (beBytes 1 1) = true) ∧
    (∃ (r : Req) (s : State), s.plant.accepts r K.acqCtrl (beBytes 1 2) = true) ∧
    (∃ (r : Req) (s : State), s.plant.accepts r K.acqCtrl (beBytes 1 3) = true) ∧
    (∃ (r : Req) (s : State), s.plant.accepts r K.acqCtrl (beBytes 1 4) = true) :=
  ⟨⟨r0, on hosted, by decide⟩,
    ⟨r0, on hosted, by decide⟩,
    ⟨r0, on hosted, by decide⟩,
    ⟨r0, on hosted, by decide⟩⟩

/-- Every clause of SequencerCompletes has a case that meets its hypotheses. -/
theorem witness_SequencerCompletes :
    (∃ (s : State), s.plant.up .cvc = true ∧ s.plant.cvc.acq.stopDue = false ∧ s.plant.c K.acqState = 2 ∧ s.plant.cvc.acq.beginDue = true) ∧
    (∃ (s : State) (n : Nat), n = s.plant.cvc.acq.steps + 1 ∧ s.plant.up .cvc = true ∧ s.plant.cvc.acq.stopDue = false ∧ s.plant.c K.acqState =
      2 ∧ s.plant.cvc.acq.beginDue = false ∧ s.plant.cvc.acq.closing = false ∧ s.plant.cvc.acq.forceDue = false ∧ n ≤ s.plant.c
      (K.acqStDelay + s.plant.c K.acqSeqState)) ∧
    (∃ (s : State) (n : Nat) (i : Nat) (rest : List Nat), n = s.plant.cvc.acq.steps + 1 ∧ s.plant.up .cvc = true ∧ s.plant.cvc.acq.stopDue =
      false ∧ s.plant.c K.acqState = 2 ∧ s.plant.cvc.acq.beginDue = false ∧ s.plant.cvc.acq.closing = false ∧ s.plant.cvc.acq.forceDue =
      false ∧ s.plant.c (K.acqStDelay + s.plant.c K.acqSeqState) < n ∧ s.plant.acqReady.1 = i :: rest) ∧
    (∃ (s : State), s.plant.up .cvc = true ∧ s.plant.c K.acqState = 2 ∧ s.plant.cvc.acq.beginDue = false ∧ s.plant.cvc.acq.closing = false ∧
      s.plant.c (K.acqStTimeout + s.plant.c K.acqSeqState) ≠ 0 ∧ s.plant.c (K.acqStTimeout + s.plant.c K.acqSeqState) ≤
      s.plant.cvc.acq.steps) ∧
    (∃ (edge : Bool) (s : State), s.plant.up .cvc = true ∧ s.plant.cvc.acq.trigIn = !edge) ∧
    (∃ (s : State), s.plant.up .cvc = true) :=
  ⟨⟨on (base |>.put .cvc K.acqState 2 |>.onCvc (fun c => { c with acq := { c.acq with beginDue := true } })), by decide⟩,
    ⟨on (base |>.put .cvc K.acqState 2 |>.put .cvc K.acqStDelay 1), _, rfl, by decide⟩,
    ⟨seqState, _, 0, [], rfl, by decide⟩,
    ⟨on (base |>.put .cvc K.acqState 2 |>.put .cvc K.acqStTimeout 1 |>.onCvc (fun c => { c with acq := { c.acq with steps := 1 } })), by decide⟩,
    ⟨true, on (base |>.onCvc (fun c => { c with acq := { c.acq with trigIn := false } })), by decide⟩,
    ⟨on base, by decide⟩⟩

/-- Every clause of AcquisitionSamplesComplete has a case that meets its hypotheses. -/
theorem witness_AcquisitionSamplesComplete :
    (∃ (s : State), s.plant.up .cvc = true) ∧
    (∃ (ch : Fin 64) (val : BitVec 32) (s : State) (c : AcqCh), c = (s.plant.acqCh ch.val).seen (some val.toInt) ∧ s.plant.up .cvc = true ∧
      (srcKind (s.plant.acqSrc ch.val) = 1 ∨ srcKind (s.plant.acqSrc ch.val) = 2) ∧ s.plant.acqRecords = true ∧ c.left = none) ∧
    (∃ (s : State), s.plant.up .cvc = true ∧ s.plant.acqCycleDue s.plant.k = true) ∧
    (∃ (s : State), s.plant.up .cvc = true ∧ s.plant.acqRecords = true ∧ s.plant.c K.acqState = 3 ∧ s.plant.acqStopped = true ∧ s.plant.c
      K.acqMode = 0) ∧
    (∃ (s : State), s.plant.up .cvc = true ∧ s.plant.acqRecords = true ∧ s.plant.c K.acqState = 3 ∧ s.plant.acqStopped = true ∧ s.plant.c
      K.acqMode = 1 ∧ s.plant.cvc.acq.bank = 0) :=
  ⟨⟨on base, by decide⟩,
    ⟨63, 0, on (base |>.put .cvc K.acqState 2 |>.put .cvc (K.acqChSrc + 63) 0x10000000), _, rfl, by decide⟩,
    ⟨on (base |>.put .cvc K.acqState 2), by decide⟩,
    ⟨on (base |>.put .cvc K.acqState 3), by decide⟩,
    ⟨on (base |>.put .cvc K.acqState 3 |>.put .cvc K.acqMode 1), by decide⟩⟩

/-- Every clause of PairCompletes has a case that meets its hypotheses. -/
theorem witness_PairCompletes :
    (∃ (port : Port) (h : Fin 8) (f : Frame) (s : State) (x : Plant), x = s.plant.heard port f ∧ port.part = .hub h ∧ 48 ≤ port.lane.val ∧
      s.plant.up (.hub h) = true ∧ s.plant.hears port f 6 = true ∧ chkState f = .good ∧ x.idleInWindow (.hub h) f = true ∧ idlePart f = 0) ∧
    (∃ (port : Port) (f : Frame) (s : State) (x : Plant), x = s.plant.heard port f ∧ port.part = .cvc ∧ port.lane.val < 16 ∧ s.plant.up .cvc =
      true ∧ s.plant.hears port f 6 = true ∧ chkState f = .good ∧ x.idleInWindow .cvc f = true ∧ idlePart f = 1) ∧
    (∃ (s : State), s.plant.up .cvc = true ∧ s.plant.misstrapped = false ∧ s.plant.paired = false) ∧
    (∃ (h : Fin 8) (s : State), s.plant.up (.hub h) = true) ∧
    (∃ (path : Fin 2) (s : State), s.plant.up .cvc = true ∧ s.plant.paired = true ∧ s.plant.pathIsLost path.val = true ∧ (if path.val = 0 then
      s.plant.cvc.red.missHub else s.plant.cvc.red.missPeer) = 0) ∧
    (∃ (s : State), s.plant.up .cvc = true ∧ s.plant.paired = true ∧ s.plant.active = true ∧ s.plant.c K.redPeerSilence ≤
      s.plant.cvc.red.noUplink) ∧
    (∃ (h : Fin 8) (s : State), s.plant.up (.hub h) = true ∧ s.plant.getN (.hub h) K.redHubSilence ≤ (s.plant.hub h).silentRun ∧ ((s.plant.hub
      h).cvc (!s.plant.allegB h)).heardPrev = true) ∧
    (∃ (h : Fin 8) (s : State), s.plant.up (.hub h) = true ∧ s.plant.getN (.hub h) K.redOverlapLeft = 1) ∧
    (∃ (s : State), s.plant.up .cvc = true ∧ s.plant.paired = true ∧ s.plant.takeoverDue = true) :=
  ⟨⟨⟨.hub 0, 48⟩, 0, (idleFrame 0 0 0 0 0 3), on (base |>.put (.hub 0) (laneKey 48 2) 2), _, rfl, by decide⟩,
    ⟨⟨.cvc, 0⟩, (idleFrame 1 0 0 0 0 1), on (base |>.put .cvc (laneKey 0 2) 2), _, rfl, by decide⟩,
    ⟨on base, by decide⟩,
    ⟨0, on base, by decide⟩,
    ⟨1, on (base |>.put .cvc K.stationPair 1 |>.onCvc (fun c => { c with red := { c.red with missHub := 100000 } })), by decide⟩,
    ⟨on (base |>.put .cvc K.stationPair 1 |>.put .cvc K.redRole 3 |>.onCvc (fun c => { c with red := { c.red with noUplink := 100000 } })), by
      decide⟩,
    ⟨0, on (base |>.onHub 0 (fun u => { u with silentRun := 100000, b := { u.b with heardPrev := true } })), by decide⟩,
    ⟨0, on (base |>.put (.hub 0) K.redOverlapLeft 1), by decide⟩,
    ⟨on (base |>.put .cvc K.stationPair 1 |>.put .cvc K.redRole 2 |>.put .cvc K.redHubsAlleg 255 |>.onCvc (fun c =>
      { c with red := { c.red with missPeer := 100000, missHub := 100000 } })), by decide⟩⟩

/-- Every clause of HostPortsComplete has a case that meets its hypotheses. -/
theorem witness_HostPortsComplete :
    (∃ (port : HostPort) (s : State), s.plant.up .cvc = true ∧ s.plant.c (hpKey port.val 1) = 1 ∧ s.plant.c (hpKey port.val 8) ≠ 1) ∧
    (∃ (port : HostPort) (s : State), s.plant.up .cvc = true ∧ s.plant.c (hpKey port.val 1) = 1 ∧ s.plant.c (hpKey port.val 8) = 1) ∧
    (∃ (s : State), s.plant.up .cvc = true ∧ (∀ n < 5, s.plant.portUp n = false)) ∧
    (∃ (port : HostPort) (sport : BitVec 16) (src : BitVec 32) (bytes : List Byte) (s : State) (f : HostFrame), f = .udp 47120 sport src true
      false false bytes ∧ s.plant.up .cvc = true ∧ s.plant.portServes port.val = true ∧ (s.plant.portSt port.val).queue.length < 32 ∧
      (datagramMsg (bytes.map BitVec.toNat)).isSome = true) ∧
    (∃ (port : HostPort) (target : BitVec 32) (vlan : BitVec 16) (s : State), s.plant.up .cvc = true ∧ s.plant.portUp port.val = true ∧
      s.plant.vlanOk port.val vlan = true ∧ target.toNat ≠ 0 ∧ s.plant.c (hpKey port.val 3) = target.toNat) ∧
    (∃ (port : HostPort) (target : BitVec 32) (vlan : BitVec 16) (data : List Byte) (s : State), s.plant.up .cvc = true ∧ s.plant.portUp
      port.val = true ∧ s.plant.vlanOk port.val vlan = true ∧ target.toNat ≠ 0 ∧ s.plant.c (hpKey port.val 3) = target.toNat ∧ data.length ≤
      1472) :=
  ⟨⟨0, on (base |>.put .cvc (hpKey 0 1) 1 |>.put .cvc (hpKey 0 8) 0), by decide⟩,
    ⟨0, on (base |>.put .cvc (hpKey 0 1) 1 |>.put .cvc (hpKey 0 8) 1), by decide⟩,
    ⟨on base, by decide⟩,
    ⟨0, 0, 0, claimBytes, on hosted, _, rfl, by decide⟩,
    ⟨0, 0xC0A8640A, 0xFFFF, on (hosted |>.put .cvc (hpKey 0 3) 0xC0A8640A), by decide⟩,
    ⟨0, 0xC0A8640A, 0xFFFF, [1, 2], on (hosted |>.put .cvc (hpKey 0 3) 0xC0A8640A), by decide⟩⟩

/-- Every clause of ReadsComplete has a case that meets its hypotheses. -/
theorem witness_ReadsComplete :
    (∃ (r : Req) (idx : BitVec 16) (sub : Byte) (off : BitVec 32) (maxLen : BitVec 16) (s : State) (key : Nat) (m : Msg) (row : ObjRow) (x :
      Plant), key = idx.toNat * 256 + sub.toNat ∧ m = .read key off.toNat maxLen.toNat ∧ x = s.plant.taken r m ∧ rowOf 0 key = some row ∧
      r.node = 0 ∧ s.plant.admits r m = true ∧ readStatus 0 key = 0 ∧ row.isBlob = false ∧ key ≠ K.timeCalS ∧ key ≠ K.timeCalNs) ∧
    (∃ (r : Req) (idx : BitVec 16) (sub : Byte) (off : BitVec 32) (maxLen : BitVec 16) (s : State) (key : Nat) (m : Msg) (row : ObjRow) (x :
      State) (v : List Nat × Bool), key = idx.toNat * 256 + sub.toNat ∧ m = .read key off.toNat maxLen.toNat ∧ x =
      { s with plant := s.plant.taken r m } ∧ rowOf 0 key = some row ∧ v = x.blobPart .cvc key off.toNat (min 240 (readMax maxLen.toNat)) ∧
      r.node = 0 ∧ s.plant.admits r m = true ∧ readStatus 0 key = 0 ∧ row.ty = .domain ∧ key ≠ K.caveRec) ∧
    (∃ (r : Req) (s : State) (m : Msg) (x : Plant), m = .read K.timeCalS 0 0 ∧ x = s.plant.taken r m ∧ r.node = 0 ∧ s.plant.admits r m = true) ∧
    (∃ (r : Req) (idx : BitVec 16) (sub : Byte) (s : State) (key : Nat) (m : Msg) (q : Part) (row : ObjRow), key = idx.toNat * 256 + sub.toNat ∧
      m = .desc key ∧ rowOf q.kind key = some row ∧ s.plant.admits r m = true ∧ partOf r.node.toNat = some q ∧ hasIndex q.kind (key / 256) =
      true) ∧
    (∃ (r : Req) (idx : BitVec 16) (sub : Byte) (count : Byte) (off : BitVec 32) (maxLen : BitVec 16) (s : State) (key : Nat) (m : Msg) (row :
      ObjRow) (x : State) (y : (List Nat × Bool) × State), key = idx.toNat * 256 + sub.toNat ∧ m = .block key count.toNat off.toNat
      maxLen.toNat ∧ x = { s with plant := s.plant.taken r m } ∧ rowOf 0 key = some row ∧ y = x.ownItems (blockKeys key count.toNat) (min
      maxLen.toNat 1408) ∧ r.node = 0 ∧ count ≠ 0 ∧ s.plant.admits r m = true ∧ hasIndex 0 (key / 256) = true ∧ row.ty ≠ .domain) :=
  ⟨⟨r0, (BitVec.ofNat 16 (K.convState / 256)), (BitVec.ofNat 8 (K.convState % 256)), 0, 0, on hosted, _, _, _, _, rfl, rfl, rfl, rfl, by
      decide⟩,
    ⟨r0, (BitVec.ofNat 16 (K.rindImageStage / 256)), (BitVec.ofNat 8 (K.rindImageStage % 256)), 0, 0, on hosted, _, _, _, _, _, rfl, rfl, rfl,
      rfl, rfl, by decide⟩,
    ⟨r0, on hosted, _, _, rfl, rfl, by decide⟩,
    ⟨r0, (BitVec.ofNat 16 (K.convState / 256)), (BitVec.ofNat 8 (K.convState % 256)), on hosted, _, _, .cvc, _, rfl, rfl, rfl, by decide⟩,
    ⟨r0, (BitVec.ofNat 16 (K.convState / 256)), (BitVec.ofNat 8 (K.convState % 256)), 255, 0, 1408, on hosted, _, _, _, _, _, rfl, rfl, rfl,
      rfl, rfl, by decide⟩⟩

/-- Every clause of WritesComplete has a case that meets its hypotheses. -/
theorem witness_WritesComplete :
    (∃ (r : Req) (idx : BitVec 16) (sub : Byte) (ty : Byte) (val : List Byte) (s : State) (key : Nat) (row : ObjRow) (bs : List Nat), key =
      idx.toNat * 256 + sub.toNat ∧ bs = val.map BitVec.toNat ∧ rowOf 0 key = some row ∧ ty.toNat = row.ty.code ∧ row.isBlob = false ∧
      (row.acc = .rw ∨ row.acc = .rws) ∧ (key / 256 < 0x3800 ∨ 0x3840 ≤ key / 256) ∧ (key < K.vatSlotCtrl ∨ K.vatSlotTag + 8 ≤ key) ∧
      s.plant.accepts r key bs = true) ∧
    (∃ (r : Req) (idx : BitVec 16) (sub : Byte) (ty : Byte) (val : List Byte) (s : State) (key : Nat) (row : ObjRow) (bs : List Nat), key =
      idx.toNat * 256 + sub.toNat ∧ bs = val.map BitVec.toNat ∧ rowOf 0 key = some row ∧ ty.toNat = row.ty.code ∧ row.isBlob = false ∧
      row.acc = .rwc ∧ s.plant.accepts r key bs = true) ∧
    (∃ (r : Req) (idx : BitVec 16) (sub : Byte) (ty : Byte) (val : List Byte) (s : State) (key : Nat) (row : ObjRow) (bs : List Nat) (m : Msg)
      (x : Plant), key = idx.toNat * 256 + sub.toNat ∧ bs = val.map BitVec.toNat ∧ m = .write false key ty.toNat 0 false bs ∧ x =
      s.plant.taken r m ∧ rowOf 0 key = some row ∧ r.node = 0 ∧ s.plant.admits r m = true ∧ x.owner = r.rid.toNat ∧ writeAccess 0 key = 0 ∧
      row.ty = .domain ∧ ty.toNat = row.ty.code ∧ x.stateStatus .cvc key row 0 = 0 ∧ x.ownCond .cvc key 0 = 0 ∧ bs.length ≤ row.maxLen) ∧
    (∃ (r : Req) (idx : BitVec 16) (sub : Byte) (ty : Byte) (val : List Byte) (s : State) (key : Nat) (m : Msg) (row : ObjRow) (bs : List Nat)
      (x : Plant), key = idx.toNat * 256 + sub.toNat ∧ bs = val.map BitVec.toNat ∧ m = .write true key ty.toNat 0 true bs ∧ x =
      s.plant.taken r m ∧ rowOf 0 key = some row ∧ r.node = 0 ∧ s.plant.admits r m = true ∧ x.owner = r.rid.toNat ∧ row.ty ≠ .domain ∧
      x.writeStatus key ty.toNat bs = 0 ∧ (x.session r.rid.toNat).any (fun (y : Session) => !y.lostBatch) = true ∧ x.batchOpen = true ∧
      x.cvc.gdp.batch.length < 64 ∧ x.batchBytes + bs.length ≤ 4096) ∧
    (∃ (r : Req) (s : State) (x : Plant) (n : Nat), x = s.plant.taken r .batchOpen ∧ n = (x.c K.gdpBatchSeq + 1) % 2 ^ 32 ∧ s.plant.admits r
      .batchOpen = true ∧ x.owner = r.rid.toNat ∧ x.c K.gdpBatchState ≠ 1) ∧
    (∃ (r : Req) (bseq : BitVec 32) (s : State) (m : Msg) (x : Plant) (y : Plant), m = .batchCommit bseq.toNat ∧ x = s.plant.taken r m ∧ y =
      (x.markBusy (echoOf r m)).onGdp (fun g =>
      { g with committing := true, commitSeq := r.seq.toNat, commitPort := r.port.val, commitRid := r.rid.toNat, commitInc := r.inc.toNat })
      ∧ s.plant.admits r m = true ∧ x.owner = r.rid.toNat ∧ (x.session r.rid.toNat).any (fun (z : Session) => !z.lostBatch) = true ∧
      x.batchOpen = true ∧ x.c K.gdpBatchSeq = bseq.toNat ∧ x.batchFailure.1 = 0) ∧
    (∃ (r : Req) (bseq : BitVec 32) (s : State) (m : Msg) (x : Plant), m = .batchAbort bseq.toNat ∧ x = s.plant.taken r m ∧ s.plant.admits r m =
      true ∧ x.owner = r.rid.toNat ∧ (x.session r.rid.toNat).any (fun (z : Session) => !z.lostBatch) = true ∧ x.batchOpen = true ∧ x.c
      K.gdpBatchSeq = bseq.toNat) :=
  ⟨⟨r0, (BitVec.ofNat 16 (K.convChargeTimeout / 256)), (BitVec.ofNat 8 (K.convChargeTimeout % 256)), 4, [0, 0, 3, 232], on hosted, _, _, _,
      rfl, rfl, rfl, by decide⟩,
    ⟨r0, (BitVec.ofNat 16 (K.loopKp / 256)), (BitVec.ofNat 8 (K.loopKp % 256)), 9, [0, 0, 0, 1], on hosted, _, _, _, rfl, rfl, rfl, by decide⟩,
    ⟨r0, (BitVec.ofNat 16 (K.rindImageStage / 256)), (BitVec.ofNat 8 (K.rindImageStage % 256)), 12, [1, 2], on hosted, _, _, _, _, _, rfl, rfl,
      rfl, rfl, rfl, by decide⟩,
    ⟨r0, (BitVec.ofNat 16 (K.convChargeTimeout / 256)), (BitVec.ofNat 8 (K.convChargeTimeout % 256)), 4, [0, 0, 3, 232], on opened, _, _, _, _,
      _, rfl, rfl, rfl, rfl, rfl, by decide⟩,
    ⟨r0, on hosted, _, _, rfl, rfl, by decide⟩,
    ⟨r0, 1, on opened, _, _, _, rfl, rfl, rfl, by decide⟩,
    ⟨r0, 1, on opened, _, _, rfl, rfl, by decide⟩⟩

/-- Every clause of OwnershipCompletes has a case that meets its hypotheses. -/
theorem witness_OwnershipCompletes :
    (∃ (r : Req) (prio : Byte) (s : State) (m : Msg) (x : Plant) (y : Plant), m = .claim prio.toNat ∧ x = s.plant.taken r m ∧ y = (x.setOwner
      r.rid.toNat prio.toNat r.port.val).newLease ∧ prio ≠ 0 ∧ s.plant.admits r m = true ∧ x.owner ≠ r.rid.toNat ∧ (x.owner = 0 ∨ x.c
      K.gdpOwnerPrio < prio.toNat) ∧ x.batchOpen = false) ∧
    (∃ (r : Req) (prio : Byte) (s : State) (m : Msg) (x : Plant) (y : Plant), m = .claim prio.toNat ∧ x = s.plant.taken r m ∧ y = (x.cPut
      K.gdpOwnerPrio prio.toNat).newLease ∧ prio ≠ 0 ∧ s.plant.admits r m = true ∧ x.owner = r.rid.toNat) ∧
    (∃ (r : Req) (s : State) (x : Plant) (y : Plant), x = s.plant.taken r .renew ∧ y = x.newLease ∧ s.plant.admits r .renew = true ∧ x.owner =
      r.rid.toNat ∧ x.tick < x.cvc.gdp.leaseEnd) ∧
    (∃ (s : State), s.plant.up .cvc = true ∧ s.plant.owner ≠ 0 ∧ s.plant.batchOpen = false) :=
  ⟨⟨r0, 1, on (hosted |>.put .cvc K.gdpOwnerRid 0), _, _, _, rfl, rfl, rfl, by decide⟩,
    ⟨r0, 255, on hosted, _, _, _, rfl, rfl, rfl, by decide⟩,
    ⟨r0, on (hosted |>.onCvc (fun c => { c with gdp := { c.gdp with leaseEnd := 1 } })), _, _, rfl, rfl, by decide⟩,
    ⟨on hosted, by decide⟩⟩

/-- Every clause of SubscriptionsComplete has a case that meets its hypotheses. -/
theorem witness_SubscriptionsComplete :
    (∃ (r : Req) (idx : BitVec 16) (sub : Byte) (mode : Byte) (period : BitVec 16) (s : State) (key : Nat) (m : Msg) (row : ObjRow) (x : Plant)
      (others : List Subscr) (id : Nat), key = idx.toNat * 256 + sub.toNat ∧ m = .subscribe key mode.toNat period.toNat ∧ x = s.plant.taken
      r m ∧ rowOf 0 key = some row ∧ others = x.cvc.gdp.subs.filter (fun y => !(y.rid == r.rid.toNat && y.key == key)) ∧ id =
      x.cvc.gdp.nextSub % 65535 + 1 ∧ s.plant.admits r m = true ∧ readStatus 0 key = 0 ∧ row.ty ≠ .domain ∧ (mode = 1 ∨ ((mode = 2 ∨ mode =
      3) ∧ 10 ≤ period.toNat ∧ period.toNat ≤ 60000)) ∧ others.length < 64 ∧ (others.filter (fun y => y.rid == r.rid.toNat)).length < 16) ∧
    (∃ (r : Req) (idx : BitVec 16) (sub : Byte) (period : BitVec 16) (s : State) (key : Nat) (m : Msg) (row : ObjRow) (x : Plant), key =
      idx.toNat * 256 + sub.toNat ∧ m = .subscribe key 0 period.toNat ∧ x = s.plant.taken r m ∧ rowOf 0 key = some row ∧ s.plant.admits r m
      = true ∧ readStatus 0 key = 0 ∧ row.ty ≠ .domain) ∧
    (∃ (s : State), s.plant.up .cvc = true) ∧
    (∃ (s : State) (due : List (Subscr × List Nat)), due = (s.plant.cvc.gdp.subs.map (fun x => (x, s.sampleBytes x.key))).filter (fun y =>
      noteDue s.plant.tick y.1 y.2) ∧ s.plant.up .cvc = true) ∧
    (∃ (subid : BitVec 16) (s : State) (x : Subscr), s.plant.up .cvc = true ∧ s.plant.cvc.gdp.subs.find? (fun y => y.id == subid.toNat && decide
      (2 ≤ y.mode)) = some x) ∧
    (∃ (s : State), s.plant.up .cvc = true) :=
  ⟨⟨r0, (BitVec.ofNat 16 (K.convState / 256)), (BitVec.ofNat 8 (K.convState % 256)), 3, 60000, on hosted, _, _, _, _, _, _, rfl, rfl, rfl, rfl,
      rfl, rfl, by decide⟩,
    ⟨r0, (BitVec.ofNat 16 (K.convState / 256)), (BitVec.ofNat 8 (K.convState % 256)), 0, on hosted, _, _, _, _, rfl, rfl, rfl, rfl, by decide⟩,
    ⟨on base, by decide⟩,
    ⟨on base, _, rfl, by decide⟩,
    ⟨1, on (base |>.onCvc (fun c => { c with gdp := { c.gdp with subs := [sub0] } })), sub0, by decide⟩,
    ⟨on base, by decide⟩⟩

/-- Every clause of ResetsComplete has a case that meets its hypotheses. -/
theorem witness_ResetsComplete :
    (∃ (q : Part) (s : State), (s.plant.node q).power.held = false) ∧
    (∃ (h : Fin 8) (s : State), (s.plant.node (.hub h)).power.held = true ∧ (s.plant.node (.hub h)).power.rails = true ∧ (s.plant.node
      (.hub h)).power.core = false) ∧
    (∃ (s : State), (s.plant.node .cvc).power.held = true ∧ (s.plant.node .cvc).power.rails = true ∧ (s.plant.node .cvc).power.core =
      false) ∧
    (∃ (c : CellId) (s : State), (s.plant.node (.cell c)).power.held = true) ∧
    (∃ (q : Part) (s : State), (s.plant.node q).power.held = true) ∧
    (∃ (q : Part) (s : State), s.plant.up q = true) ∧
    (∃ (q : Part) (v : BitVec 16) (s : State), s.plant.acceptsAt q K.rstSoft (beBytes 2 v.toNat) = true ∧ (s.plant.node q).power.storing =
      false ∧ (s.plant.node q).power.fwWriting = false) ∧
    (∃ (q : Part) (v : BitVec 16) (s : State), s.plant.acceptsAt q K.rstSoft (beBytes 2 v.toNat) = true ∧ (s.plant.node q).power.storing =
      true) ∧
    (∃ (r : Req) (v : BitVec 16) (s : State), s.plant.accepts r K.rstSoft (beBytes 2 v.toNat) = true) ∧
    (∃ (s : State), s.plant.up .cvc = true ∧ 2 ≤ s.plant.conv) ∧
    (∃ (by_ : BitVec 2) (s : State), s.plant.up .cvc = true ∧ 2 ≤ s.plant.conv ∧ by_ ≠ 0 ∧ by_ ≠ 3) :=
  ⟨⟨.cvc, on base, by decide⟩,
    ⟨0, on (base |>.onNode (.hub 0) (fun n => { n with power := { n.power with held := true, core := false } })), by decide⟩,
    ⟨on (base |>.onNode .cvc (fun n => { n with power := { n.power with held := true, core := false } })), by decide⟩,
    ⟨c0, State.reset, by decide⟩,
    ⟨.cell c0, State.reset, by decide⟩,
    ⟨.cvc, on base, by decide⟩,
    ⟨.hub 0, 0x50F7, on (base |>.put .cvc K.convState 2), by decide⟩,
    ⟨.hub 0, 0x50F7, on (base |>.put .cvc K.convState 2 |>.onNode (.hub 0) (fun n =>
      { n with power := { n.power with storing := true } })), by decide⟩,
    ⟨r0, 0x50F7, on hosted, by decide⟩,
    ⟨on (base |>.put .cvc K.convState 2), by decide⟩,
    ⟨1, on (base |>.put .cvc K.convState 2), by decide⟩⟩

/-- Every clause of StartupCompletes has a case that meets its hypotheses. -/
theorem witness_StartupCompletes :
    (∃ (s : State), s.plant.up .cvc = true ∧ s.plant.conv = 1 ∧ s.plant.getN .cvc K.bootStatus ≠ 2 ∧ (s.plant.node .cvc).sched.valid =
      true ∧ s.plant.hubsDone = true ∧ s.plant.discoveryDone = true) ∧
    (∃ (s : State), s.plant.up .cvc = true ∧ s.plant.conv = 1) ∧
    (∃ (s : State), s.plant.up .cvc = true ∧ s.plant.conv = 1) ∧
    (∃ (s : State), s.plant.up .cvc = true ∧ s.plant.paired = true ∧ s.plant.cvc.red.sameId = false ∧ s.plant.conv = 1 ∧ s.plant.c
      K.redRole = 1 ∧ s.plant.cvc.red.everHeard = false) ∧
    (∃ (s : State), s.plant.up .cvc = true ∧ s.plant.paired = true ∧ s.plant.cvc.red.sameId = false ∧ s.plant.conv = 1 ∧ s.plant.c
      K.redRole = 1 ∧ s.plant.cvc.red.everHeard = true) :=
  ⟨⟨on (base |>.put .cvc K.convState 1 |>.onNode .cvc (fun n => { n with sched := { n.sched with valid := true } }) |>.onCvc (fun c =>
      { c with conv := { c.conv with hubWaited := true } })), by decide⟩,
    ⟨on (base |>.put .cvc K.convState 1), by decide⟩,
    ⟨on (base |>.put .cvc K.convState 1), by decide⟩,
    ⟨on (base |>.put .cvc K.convState 1 |>.put .cvc K.stationPair 1 |>.put .cvc K.redRole 1), by decide⟩,
    ⟨on (base |>.put .cvc K.convState 1 |>.put .cvc K.stationPair 1 |>.put .cvc K.redRole 1 |>.onCvc (fun c =>
      { c with red := { c.red with everHeard := true } })), by decide⟩⟩

/-- Every clause of StoresComplete has a case that meets its hypotheses. -/
theorem witness_StoresComplete :
    (∃ (h : Fin 8) (v : BitVec 16) (s : State), s.plant.acceptsAt (.hub h) K.storeSave (beBytes 2 v.toNat) = true) ∧
    (∃ (c : CellId) (v : BitVec 16) (s : State), s.plant.acceptsAt (.cell c) K.storeSave (beBytes 2 v.toNat) = true ∧ s.plant.grants c 5 =
      true) ∧
    (∃ (q : Part) (s : State), s.plant.up q = true ∧ (s.plant.node q).power.storing = true ∧ (s.plant.node q).power.softDue = false) ∧
    (∃ (q : Part) (v : BitVec 16) (s : State), s.plant.acceptsAt q K.storeRestore (beBytes 2 v.toNat) = true) ∧
    (∃ (q : Part) (bytes : List Byte) (s : State), s.plant.acceptsAt q K.storeImage (bytes.map BitVec.toNat) = true ∧ s.plant.imageEntries
      q (bytes.map BitVec.toNat) = 0) ∧
    (∃ (q : Part) (bytes : List Byte) (s : State), s.plant.acceptsAt q K.bootFwLoad (bytes.map BitVec.toNat) = true) ∧
    (∃ (q : Part) (slot : Fin 2) (hash : List Byte) (s : State), s.plant.acceptsAt q (K.bootKeyProg + slot.val) (hash.map BitVec.toNat) =
      true) ∧
    (∃ (q : Part) (v : BitVec 8) (s : State), s.plant.acceptsAt q K.bootKeyRevoke (beBytes 1 v.toNat) = true) ∧
    (∃ (r : Req) (v : BitVec 16) (s : State), s.plant.accepts r K.storeSave (beBytes 2 v.toNat) = true) ∧
    (∃ (r : Req) (v : BitVec 16) (s : State), s.plant.accepts r K.storeRestore (beBytes 2 v.toNat) = true) ∧
    (∃ (r : Req) (bytes : List Byte) (s : State), s.plant.acceptsWhole r K.storeImage (bytes.map BitVec.toNat) = true ∧ (s.plant.gathered
      r K.storeImage (bytes.map BitVec.toNat)).imageEntries .cvc (bytes.map BitVec.toNat) = 0) ∧
    (∃ (r : Req) (bytes : List Byte) (s : State), s.plant.acceptsWhole r K.bootFwLoad (bytes.map BitVec.toNat) = true) ∧
    (∃ (r : Req) (slot : Fin 2) (hash : List Byte) (s : State), s.plant.acceptsWhole r (K.bootKeyProg + slot.val) (hash.map BitVec.toNat)
      = true) ∧
    (∃ (r : Req) (v : BitVec 8) (s : State), s.plant.accepts r K.bootKeyRevoke (beBytes 1 v.toNat) = true) ∧
    (∃ (q : Part) (s : State), s.plant.up q = true ∧ (s.plant.node q).power.fwWriting = true ∧ (s.plant.node q).power.softDue = false ∧
      s.plant.getN q K.bootFwSlot = 1) ∧
    (∃ (q : Part) (s : State) (image : List Nat), image = s.plant.blob q K.bootFwLoad ∧ s.plant.up q = true ∧ image ≠ [] ∧ imageWhole
      image = true ∧ imageCrcOk image = true ∧ headerOk image (partNumber q.kind) 1 = true ∧ keySlot image < 2 ∧ (s.plant.putBlob q
      K.bootFwLoad []).keyOk q (keySlot image) = true) ∧
    (∃ (s : State), s.plant.up .cvc = true ∧ s.plant.cvc.package.staged ≠ [] ∧ s.plant.cvc.package.verified = false) :=
  ⟨⟨0, 0x5A7E, on base, by decide⟩,
    ⟨c0, 0x5A7E, richState 2, by decide⟩,
    ⟨.cvc, on (base |>.onNode .cvc (fun n => { n with power := { n.power with storing := true } })), by decide⟩,
    ⟨.hub 0, 0xFAC7, on base, by decide⟩,
    ⟨.hub 0, [1, 2], on (base |>.put .cvc K.convState 2), by decide⟩,
    ⟨.hub 0, [1, 2], on (base |>.put .cvc K.convState 2), by decide⟩,
    ⟨.hub 0, 1, (List.replicate 32 1), on (base |>.put .cvc K.convState 2), by decide⟩,
    ⟨.hub 0, 1, on (base |>.put .cvc K.convState 2 |>.onNode (.hub 0) (fun n => { n with power := { n.power with sigFw0 := some 0 } })),
      by decide⟩,
    ⟨r0, 0x5A7E, on hosted, by decide⟩,
    ⟨r0, 0xFAC7, on hosted, by decide⟩,
    ⟨r0, [1, 2], on hosted, by decide⟩,
    ⟨r0, [1, 2], on hosted, by decide⟩,
    ⟨r0, 1, (List.replicate 32 1), on hosted, by decide⟩,
    ⟨r0, 1, on (hosted |>.onNode .cvc (fun n => { n with power := { n.power with sigFw0 := some 0 } })), by decide⟩,
    ⟨.cvc, on (base |>.onNode .cvc (fun n => { n with power := { n.power with fwWriting := true } }) |>.put .cvc K.bootFwSlot 1), by
      decide⟩,
    ⟨.cvc, fwState, _, rfl, by decide⟩,
    ⟨on (base |>.onCvc (fun c => { c with package := { c.package with staged := [1] } })), by decide⟩⟩

/-- Every clause of SuppliesComplete has a case that meets its hypotheses. -/
theorem witness_SuppliesComplete :
    (∃ (q : Part) (rail : Fin 8), hasRail q.kind rail.val = false) ∧
    (∃ (q : Part) (rail : Fin 8) (s : State), hasRail q.kind rail.val = true ∧ rail.val ≠ 5 ∧ rail.val ≠ 6 ∧ bitOf (s.plant.getN q
      K.pwrRails) rail.val = true) ∧
    (∃ (q : Part) (rail : Fin 8) (s : State), hasRail q.kind rail.val = true ∧ rail.val ≤ 3 ∧ s.plant.up q = true ∧ bitOf (s.plant.getN q
      K.pwrRails) rail.val = false) ∧
    (∃ (q : Part) (rail : Fin 8) (s : State), hasRail q.kind rail.val = true ∧ rail.val ≠ 5 ∧ rail.val ≠ 6 ∧ (3 < rail.val ∨ s.plant.up q
      = false) ∧ bitOf (s.plant.getN q K.pwrRails) rail.val = false) ∧
    (∃ (ch : Fin 2) (rail : Fin 8) (s : State), rail.val = 5 + ch.val ∧ bitOf (s.plant.getN .cvc K.pwrRails) rail.val = false) ∧
    (∃ (ch : Fin 2) (rail : Fin 8), rail.val = 5 + ch.val) ∧
    (∃ (q : Part) (rail : Fin 8), hasRail q.kind rail.val = true ∧ rail.val ≤ 3) ∧
    (∃ (q : Part) (rail : Fin 8), hasRail q.kind rail.val = true ∧ (rail.val = 4 ∨ rail.val = 7)) ∧
    (∃ (q : Part) (rail : Fin 8), hasRail q.kind rail.val = false) ∧
    (∃ (rail : Fin 8), hasRail 2 rail.val = true) ∧
    (∃ (q : Part) (rail : Fin 8) (s : State), hasRail q.kind rail.val = true ∧ rail.val ≤ 4 ∧ q.kind ≠ 2 ∧ setBit (s.plant.getN q
      K.pwrRails) rail.val false % 128 ≠ 0) ∧
    (∃ (q : Part) (rail : Fin 8) (s : State), hasRail q.kind rail.val = true ∧ rail.val ≤ 4 ∧ q.kind ≠ 2 ∧ setBit (s.plant.getN q
      K.pwrRails) rail.val false % 128 = 0) ∧
    (∃ (ch : Fin 2) (rail : Fin 8) (s : State) (p : Plant), p = (s.plant.put .cvc K.pwrRails (setBit (s.plant.getN .cvc K.pwrRails)
      rail.val false : Nat)).onPower .cvc (fun w => { w with chLow := setBit w.chLow ch.val false }) ∧ rail.val = 5 + ch.val ∧ s.plant.up
      .cvc = true ∧ s.plant.chState ch.val = 0 ∧ setBit (s.plant.getN .cvc K.pwrRails) rail.val false % 128 ≠ 0 ∧ (if ch.val = 0 then
      (s.plant.node .cvc).power.pins.imageA else (s.plant.node .cvc).power.pins.imageB) = true ∧ s.plant.c K.rindImageId ≠ 0) ∧
    (∃ (q : Part) (tenths : BitVec 16) (s : State), s.plant.up q = true ∧ tenths.toInt ≤ 1050) ∧
    (∃ (q : Part) (s : State), s.plant.up q = true ∧ 1100 < s.plant.get q K.pwrTj) ∧
    (∃ (q : Part) (tenths : BitVec 16) (s : State), s.plant.up q = true ∧ s.plant.get q K.pwrTj ≤ 1050 ∧ 1050 < tenths.toInt ∧
      tenths.toInt ≤ 1100) ∧
    (∃ (q : Part) (tenths : BitVec 16) (s : State), s.plant.up q = true ∧ 1050 < s.plant.get q K.pwrTj ∧ s.plant.get q K.pwrTj ≤ 1100 ∧
      1100 < tenths.toInt) ∧
    (∃ (q : Part) (tenths : BitVec 16) (s : State), s.plant.up q = true ∧ s.plant.get q K.pwrTj ≤ 1050 ∧ 1100 < tenths.toInt) ∧
    (∃ (q : Part) (s : State), s.plant.up q = true) :=
  ⟨⟨.cell c0, 1, by decide⟩,
    ⟨.cvc, 3, on (base |>.put .cvc K.pwrRails 8), by decide⟩,
    ⟨.cvc, 3, on base, by decide⟩,
    ⟨.cvc, 4, on base, by decide⟩,
    ⟨1, 6, on base, by decide⟩,
    ⟨1, 6, by decide⟩,
    ⟨.cell c0, 0, by decide⟩,
    ⟨.cell c0, 7, by decide⟩,
    ⟨.cell c0, 1, by decide⟩,
    ⟨0, by decide⟩,
    ⟨.cvc, 4, on (base |>.put .cvc K.pwrRails 3), by decide⟩,
    ⟨.cvc, 4, on (base |>.put .cvc K.pwrRails 16), by decide⟩,
    ⟨0, 5, on (base |>.put .cvc K.pwrRails 96 |>.put .cvc K.rindImageId 1 |>.onNode .cvc (fun n => { n with
        power := { n.power with pins := { n.power.pins with imageA := true } } })), _, rfl, by decide⟩,
    ⟨.cell c0, 1050, on base, by decide⟩,
    ⟨.cell c0, on (base |>.put (.cell c0) K.pwrTj 1101), by decide⟩,
    ⟨.cell c0, 1100, on (base |>.put (.cell c0) K.pwrTj 1050), by decide⟩,
    ⟨.cell c0, 1101, on (base |>.put (.cell c0) K.pwrTj 1100), by decide⟩,
    ⟨.cell c0, 1101, on (base |>.put (.cell c0) K.pwrTj 1050), by decide⟩,
    ⟨.cvc, on base, by decide⟩⟩

/-- Every clause of MemoriesStayCanonical has a case that meets its hypotheses. -/
theorem witness_MemoriesStayCanonical :
    ∃ (s : State) (t : State), step s = .next t ∧ s.sound = true :=
  ⟨State.reset, _, rfl, by decide⟩

/-- Every clause of EngineStoresConfined has a case that meets its hypotheses. -/
theorem witness_EngineStoresConfined :
    ∃ (e : Eng) (s : State) (t : State) (a : Nat), exec (.rv32imafcInstruction e) s = .next t ∧ ¬ (tcmKey e.val 0x10000 ≤ a ∧ a < tcmKey e.val 0x20000) ∧ ¬ (0x10000000 ≤ a ∧ a < 0x10800000) :=
  ⟨0, on (base |>.onEng 0 (fun g => { g with item := some item0 })), _, 0x20000000, rfl, by decide⟩

/-- Every clause of ResultsStayInRange has a case that meets its hypotheses. -/
theorem witness_ResultsStayInRange :
    (∃ (d : Nat), 0 < d) ∧
    (∃ (par : List Int) (l : ArmLoop), 0 ≤ min (parAt par 6) (parAt par 0x2C) ∧ parAt par 0x12 ≤ parAt par 0x11 ∧ parAt par 0x0B ≤ parAt par
      0x0A ∧ parAt par 0x0B ≤ l.integ ∧ l.integ ≤ parAt par 0x0A) :=
  ⟨⟨1, by decide⟩,
    ⟨[], default, by decide⟩⟩

/-- Every clause of YieldPassesOwnership has a case that meets its hypotheses. -/
theorem witness_YieldPassesOwnership :
    ∃ (r : Req) (succ : BitVec 64) (s : State) (m : Msg) (x : Plant) (y : Plant) (z : Plant), m = .yield succ.toNat ∧ x = s.plant.taken r m ∧ y = x.setOwner 0 0 0xFF ∧ z = (x.setOwner succ.toNat (x.c K.gdpOwnerPrio) 0xFF).newLease ∧ s.plant.admits r m = true ∧ x.owner = r.rid.toNat :=
  ⟨r0, 7, on hosted, _, _, _, _, rfl, rfl, rfl, rfl, by decide⟩

/-- Every clause of SessionsOrderRequests has a case that meets its hypotheses. -/
theorem witness_SessionsOrderRequests :
    (∃ (i : Instr) (r : Req) (m : Msg) (s : State) (x : Plant) (y : Session), (s.plant.dequeue (echoOf r m)).takeSession r.rid.toNat r.inc.toNat
      = some x ∧ x.session r.rid.toNat = some y ∧ requestOf i = some (r, m) ∧ s.plant.portServes r.port.val = true ∧ r.rid ≠ 0) ∧
    (∃ (p : Plant) (e : Echo) (y : Session), p.session e.rid = some y ∧ y.rid = e.rid ∧ y.inc = e.inc) :=
  ⟨⟨(.renew r0), r0, .renew, on hosted, _, _, rfl, rfl, by decide⟩,
    ⟨opened, (echoOf r0 .renew), _, rfl, by decide⟩⟩

/-- Every clause of OperandsAreCopies has a case that meets its hypotheses. -/
theorem witness_OperandsAreCopies :
    ∃ (e : Eng) (rs1 : RegNo) (s : State) (it : Item) (t : Nat), t = s.plant.xReg e rs1.val % 8 ∧ s.plant.up .cvc = true ∧ s.plant.engRuns e = true ∧ (s.plant.eng e).item = some it ∧ t < ctrlTags (s.plant.ctrlOf it.slot) :=
  ⟨0, 1, on (base |>.onEng 0 (fun g => { g with item := some item0 }) |>.onSlot 5 (fun x => { x with ctrl := 0xE20F0000, tags := [0x20000001, 0x60000000] })), item0, _, rfl, by decide⟩

/-- Every clause of HalfBridgeNeverInsertsNegative has a case that meets its hypotheses. -/
theorem witness_HalfBridgeNeverInsertsNegative :
    ∃ (c : CellId) (f : Filed) (s : State) (p : Plant), p = (((s.plant.onCell c (fun e => { e with
      applied := (s.plant.cell c).applied + 1, filed := e.filed.filter (fun x => decide ((s.plant.cell c).applied + 1 < x.k)) })).put (.cell
    c) K.cycleInLoss 0).onCell c (fun e => { e with missRun := 0, hold := false, tripHold := false })) ∧ s.plant.up (.cell c) = true ∧
    (s.plant.cell c).everLocked = true ∧ s.plant.getN (.cell c) K.pwrState = 0 ∧ s.plant.fired c = false ∧ s.plant.htHeld c = false ∧
    ((s.plant.cell c).tripHold = false ∨ f.stale = false) ∧ s.plant.getN (.cell c) K.swBench = 0 ∧ (s.plant.cell c).filed.find? (fun x =>
    x.k == (s.plant.cell c).applied + 1) = some f ∧ fullBridge (s.plant.getN (.cell c) K.swType) = false ∧ (f.cmd.state = 3 ∨ (f.cmd.state =
    4 ∧ f.cmd.neg = true)) :=
  ⟨c0, filedNeg, on (base |>.put (.cell c0) K.swType 0 |>.onCell c0 (fun e => { e with everLocked := true, filed := [filedNeg] })), _, rfl,
  by decide⟩

/-- Every clause of ResetsReturnDefaults has a case that meets its hypotheses. -/
theorem witness_ResetsReturnDefaults :
    (∃ (q : Part) (key : Nat) (row : ObjRow), memberRow q.kind key = some row ∧ (row.pers = .v ∨ row.pers = .k) ∧ liveObj key = false ∧ key ≠
      K.bypStatus) ∧
    (∃ (q : Part) (s : State) (key : Nat) (row : ObjRow), memberRow q.kind key = some row ∧ (row.pers = .v ∨ row.pers = .k) ∧ liveObj key =
      false ∧ (q.kind ≠ 2 ∨ alwaysOn .pin key = false) ∧ (s.plant.node q).power.held = false) :=
  ⟨⟨.cvc, K.convState, _, rfl, by decide⟩,
    ⟨.cell c0, on base, K.swState, _, rfl, by decide⟩⟩

/-- Every clause of PlansAndCommandsReadBack has a case that meets its hypotheses. -/
theorem witness_PlansAndCommandsReadBack :
    (∃ (v : PlanV) (seq : Nat) (pseq : Nat), v.a < 64 ∧ v.b < 64 ∧ v.lh < 64 ∧ v.lt < 64 ∧ v.form < 4 ∧ seq < 256 ∧ pseq < 16) ∧
    (∃ (m : Cmd) (seq : Nat), seq < 256 ∧ m.state < 4) ∧
    (∃ (m : Cmd) (seq : Nat), seq < 256 ∧ m.state = 4 ∧ m.duty < 65536 ∧ 1000 ≤ m.period ∧ m.period ≤ 100000) :=
  ⟨⟨{ a := 63, b := 63, brk := true, lh := 63, lt := 63, form := 3 }, 255, 15, by decide⟩,
    ⟨(plainCmd 3 1), 255, by decide⟩,
    ⟨{ plainCmd 4 1 with duty := 65535, period := 100000 }, 0, by decide⟩⟩

/-- Every clause of GrantsLeaveTheReserve has a case that meets its hypotheses. -/
theorem witness_GrantsLeaveTheReserve :
    ∃ (c : CellId) (act : Fin 8) (s : State), 1 ≤ act.val ∧ act.val ≤ 6 ∧ s.plant.getN (.cell c) K.nrgState ≠ 1 :=
  ⟨c0, 6, on (base |>.put (.cell c0) K.nrgState 3), by decide⟩

/-- Every clause of CellEventsStayInTheirCell has a case that meets its hypotheses. -/
theorem witness_CellEventsStayInTheirCell :
    ∃ (i : Instr) (c : CellId) (s : State) (t : State), ownCell i = some c ∧ exec i s = .next t :=
  ⟨(.applyInstant c0), _, on base, _, rfl, rfl⟩

end Sys2Proof.Tests
end

section
/-! PROOF. Operands are copies (05 R117): VGET reads the operands that the item carries, and a deposit changes slots, counts and faults
but no engine, so what an engine runs, its copied operands with it, stands. -/

namespace Sys2Proof.Machine

/-! ### What leaves the engines -/

theorem Plant.eng_of_engines {p p' : Plant} (h : p'.cvc.engines = p.cvc.engines) (e : Eng) : p'.eng e = p.eng e := by
  simp only [Plant.eng, h]

/-- No raise, record, trip or transition of the converter touches an engine. -/
theorem Plant.Quiet.engines {p p' : Plant} (h : Plant.Quiet p p') : p'.cvc.engines = p.cvc.engines := by
  have := congrArg Cvc.engines h.cvc
  exact this

theorem Plant.Quiet.raiseMax {p p' : Plant} {q : Part} (h : Plant.Quiet p p') (key : Nat) (v : Int) :
    Plant.Quiet p (p'.raiseMax q key v) := by
  unfold Plant.raiseMax
  exact ite (h.put key v) h

@[simp] theorem Plant.onSlot_engines (p : Plant) (n : Nat) (f : SlotState → SlotState) :
    (p.onSlot n f).cvc.engines = p.cvc.engines := rfl

/-! ### Deposits (R118) -/

/-- Counting a deposit's result moves counts and raises sources 35 and 38 only. -/
theorem Plant.Quiet.countResult {p p' : Plant} (h : Plant.Quiet p p') (item : Bool) (n r : Nat) :
    Plant.Quiet p (p'.countResult item n r) := by
  unfold Plant.countResult
  split
  · exact h
  · exact h.bump ..
  · exact (h.bump ..).raise ..
  · exact (h.bump ..).raise ..
  · exact h.bump ..
  · exact ite ((h.bump ..).raise ..) (h.bump ..)

theorem Plant.Quiet.lateDeposit {p p' : Plant} (h : Plant.Quiet p p') (src : Option Item) (cyc n r : Nat) :
    Plant.Quiet p (p'.lateDeposit src cyc n r) := by
  unfold Plant.lateDeposit
  exact ite (h.raiseMax ..) h

/-- A deposit, stored or discarded, leaves every engine. -/
@[simp] theorem Plant.deposit_engines (p : Plant) (src : Option Item) (cyc n t hEpoch v : Nat) :
    (p.deposit src cyc n t hEpoch v).2.cvc.engines = p.cvc.engines := by
  unfold Plant.deposit
  split
  · exact (((Plant.Quiet.refl p).lateDeposit ..).countResult ..).engines
  · extract_lets k fresh x y r stored
    calc ((stored.countResult src.isSome n r).raiseMax .cvc K.vatReadyMax stored.readyCount).cvc.engines
        = stored.cvc.engines := (((Plant.Quiet.refl stored).countResult ..).raiseMax ..).engines
      _ = p.cvc.engines := Plant.onSlot_engines ..

/-- A fold whose every step leaves the engines leaves them. -/
theorem Plant.foldl_engines {α : Type} (g : Plant → α → Plant) (hg : ∀ p a, (g p a).cvc.engines = p.cvc.engines) (l : List α)
    (p : Plant) : (l.foldl g p).cvc.engines = p.cvc.engines := by
  induction l generalizing p with
  | nil => rfl
  | cons a l ih => rw [List.foldl_cons, ih, hg]

/-- A hardware producer deposits tag by tag, slot by slot, and leaves every engine. -/
@[simp] theorem Plant.hwDeposit_engines (p : Plant) (kind source cyc v : Nat) :
    (p.hwDeposit kind source cyc v).cvc.engines = p.cvc.engines := by
  unfold Plant.hwDeposit
  refine Plant.foldl_engines _ (fun p n => Plant.foldl_engines _ (fun p t => ?_) _ p) _ p
  dsimp only
  split
  · exact Plant.deposit_engines ..
  · rfl

/-! ### VGET (R108, R117) -/

/-- VGET of a tag the slot has reads the running item's own operand. -/
theorem Plant.vget_of_tag {p : Plant} {e : Eng} {it : Item} {rs1 : Nat} (hi : (p.eng e).item = some it)
    (ht : p.xReg e rs1 % 8 < ctrlTags (p.ctrlOf it.slot)) (rd : Nat) :
    p.vget e rd rs1 = (p.setX e rd (nth it.ops (p.xReg e rs1 % 8))).nextPc e 4 := by
  simp only [Plant.vget, hi, if_pos ht]

/-- An engine instruction of a CVC that runs, on an engine with an item, acts. -/
theorem State.onEngine_runs {s : State} {e : Eng} (f : Plant → Plant) (hup : s.plant.up .cvc = true)
    (hr : s.plant.engRuns e = true) : s.onEngine e f = .next { s with plant := f s.plant } := by
  rw [State.onEngine, State.onUp_up _ hup, if_pos hr]

end Sys2Proof.Machine

namespace Sys2Proof

open Sys2Proof.Machine

/-- Settles O54: VGET reads the item's own operands, and neither a deposit nor a hardware producer touches an engine. -/
theorem operandsAreCopies : Obligations.OperandsAreCopies := by
  unfold Obligations.OperandsAreCopies
  refine ⟨?vget, ?deposit, ?hwDeposit⟩
  case vget =>
    intro e rd rs1 s it t hup hr hi ht htags
    subst ht
    have hexec : exec (.vget e rd rs1) s = s.onEngine e (fun p => p.vget e rd.val rs1.val) := rfl
    rw [hexec, State.onEngine_runs _ hup hr, Plant.vget_of_tag hi htags]
  case deposit =>
    intro p src cyc n t hEpoch v e
    rw [Plant.eng_of_engines (Plant.deposit_engines ..)]
  case hwDeposit =>
    intro p kind source cyc v e
    rw [Plant.eng_of_engines (Plant.hwDeposit_engines ..)]

end Sys2Proof
end

section
/-! PROOF. A half-bridge cell never inserts negatively (06 R136): a valid command at A, where nothing above line 5 of R139 acts, reaches
the rule that takes a command up, and that rule answers a form the cell's type cannot switch with BYPASS, a count and a fault. -/

namespace Sys2Proof.Machine

/-- INSERT_NEG, and TRIM with negative polarity (06 R136). -/
def Cmd.insertsNegative (m : Cmd) : Prop := m.state = 3 ∨ (m.state = 4 ∧ m.neg = true)

/-- The cell counts an apply instant, and the commands filed for it and before it are gone (02 R39). -/
def Plant.instantCounted (p : Plant) (c : CellId) : Plant :=
  p.onCell c (fun e => { e with
    applied := (p.cell c).applied + 1, filed := e.filed.filter (fun x => decide ((p.cell c).applied + 1 < x.k)) })

/-- A cell at an instant for which it holds a valid command that ends every hold: the loss action, the run of misses, the hold of R40 and
the trip hold end (02 R40, R41, 06 R140). -/
def Plant.holdsEnded (p : Plant) (c : CellId) : Plant :=
  (p.put (.cell c) K.cycleInLoss 0).onCell c (fun e => { e with missRun := 0, hold := false, tripHold := false })

/-! ### What the count and the end of the holds leave -/

@[simp] theorem Plant.instantCounted_getN (p : Plant) (c : CellId) (q : Part) (k : Nat) :
    (p.instantCounted c).getN q k = p.getN q k := rfl

@[simp] theorem Plant.instantCounted_tripHold (p : Plant) (c : CellId) :
    ((p.instantCounted c).cell c).tripHold = (p.cell c).tripHold := by
  simp [Plant.instantCounted]

/-- Two changes that agree on the cell's record are one change of the cell. -/
theorem Plant.onCell_congr {p : Plant} {c : CellId} {f g : Cell → Cell} (h : f (p.cell c) = g (p.cell c)) :
    p.onCell c f = p.onCell c g :=
  congrArg (fun e => { p with cells := Tab.set (fun _ => default) p.cells (cellNum c) e }) h

theorem Plant.holdsEnded_getN {k : Nat} (hk : k ≠ K.cycleInLoss) (p : Plant) (c : CellId) (q : Part) :
    (p.holdsEnded c).getN q k = p.getN q k := by
  simp only [Plant.holdsEnded, Plant.onCell_getN, Plant.getN_put, hk, and_false, if_false]

@[simp] theorem Plant.holdsEnded_tripHold (p : Plant) (c : CellId) : ((p.holdsEnded c).cell c).tripHold = false := by
  simp [Plant.holdsEnded]

@[simp] theorem Plant.holdsEnded_fired (p : Plant) (c : CellId) : (p.holdsEnded c).fired c = p.fired c := by
  simp only [Plant.fired, Plant.holdsEnded_getN (k := K.bypStatus) (by decide)]

@[simp] theorem Plant.holdsEnded_htHeld (p : Plant) (c : CellId) : (p.holdsEnded c).htHeld c = p.htHeld c := by
  simp only [Plant.htHeld, Plant.holdsEnded_getN (k := K.tripLatch) (by decide),
    Plant.holdsEnded_getN (k := K.tripSelftest) (by decide)]

/-! ### The apply instant (R137, R139) -/

/-- Line 5 of R139: with no higher line in force, a valid command is taken up. -/
theorem Plant.applyValid_takesUp {p : Plant} {c : CellId} {f : Filed} (k : Nat) (hfired : p.fired c = false)
    (hht : p.htHeld c = false) (htrip : (p.cell c).tripHold = false ∨ f.stale = false) (hbench : p.getN (.cell c) K.swBench = 0) :
    p.applyValid c k f = ((p.holdsEnded c).takeUp c f.cmd).onCell c (fun e => { e with
      cmd := f.cmd, cseq := k % 256, hasCmd := true }) := by
  have hheld : ((p.cell c).tripHold && f.stale) = false := by
    rcases htrip with h | h <;> simp [h]
  have hended : (p.put (.cell c) K.cycleInLoss 0).onCell c (fun e => { e with
      missRun := 0, hold := false, tripHold := e.tripHold && f.stale }) = p.holdsEnded c :=
    Plant.onCell_congr (by simp only [Plant.put_cell, hheld])
  have hbench' : (p.holdsEnded c).getN (.cell c) K.swBench = 0 := by
    rw [Plant.holdsEnded_getN (by decide), hbench]
  simp [Plant.applyValid, hended, hfired, hht, hbench']

/-- APPLY_INSTANT at an ACTIVE cell that holds a valid command for the instant (02 R39). -/
theorem exec_applyInstant_valid {c : CellId} {f : Filed} {s : State} (hup : s.plant.up (.cell c) = true)
    (hlocked : (s.plant.cell c).everLocked = true) (hactive : s.plant.getN (.cell c) K.pwrState = 0)
    (hfiled : (s.plant.cell c).filed.find? (fun x => x.k == (s.plant.cell c).applied + 1) = some f) :
    exec (.applyInstant c) s = .next { s with
      plant := (s.plant.instantCounted c).applyValid c ((s.plant.cell c).applied + 1) f } := by
  have hexec : exec (.applyInstant c) s = execApplyInstant c s := rfl
  rw [hexec, execApplyInstant, State.onUp_up _ hup]
  simp [hlocked, hactive, hfiled, Plant.instantCounted]

/-! ### Taking up a command (R136, R137) -/

/-- After a plain state is put in force, sw.state shows it. -/
@[simp] theorem Plant.setPlain_swState (p : Plant) (c : CellId) (st : Nat) :
    (p.setPlain c st).getN (.cell c) K.swState = st := by
  unfold Plant.setPlain
  dsimp only
  split
  · assumption
  · simp [Plant.aimGates, Plant.setGates]

/-- R136: a half-bridge takes a negative insertion up as BYPASS, counted, with source 23. -/
theorem Plant.takeUp_negative {p : Plant} {c : CellId} {m : Cmd} (hty : fullBridge (p.getN (.cell c) K.swType) = false)
    (hneg : m.insertsNegative) : p.takeUp c m = ((p.bump (.cell c) K.swBadCmd 1).raise (.cell c) 23 0).setPlain c 1 := by
  have hbad : (!fullBridge (p.getN (.cell c) K.swType) && (m.state == 3 || (m.state == 4 && m.neg))) = true := by
    rcases hneg with h | ⟨h, hn⟩
    · simp [hty, h]
    · simp [hty, h, hn]
  exact if_pos hbad

end Sys2Proof.Machine

namespace Sys2Proof

open Sys2Proof.Machine

/-- Settles O55: nothing above line 5 of R139 acts, so the filed command is taken up, and a half-bridge takes it up by R136. -/
theorem halfBridgeNeverInsertsNegative : Obligations.HalfBridgeNeverInsertsNegative := by
  unfold Obligations.HalfBridgeNeverInsertsNegative
  intro c f s p hup hlocked hactive hfired hht htrip hbench hfiled hty hneg hp
  have hp' : p = (s.plant.instantCounted c).holdsEnded c := hp
  have hty' : fullBridge (p.getN (.cell c) K.swType) = false := by
    rw [hp', Plant.holdsEnded_getN (by decide), Plant.instantCounted_getN, hty]
  have htrip' : ((s.plant.instantCounted c).cell c).tripHold = false ∨ f.stale = false := by
    rwa [Plant.instantCounted_tripHold]
  rw [exec_applyInstant_valid hup hlocked hactive hfiled,
    Plant.applyValid_takesUp (p := s.plant.instantCounted c) _ hfired hht htrip' hbench, ← hp', Plant.takeUp_negative hty' hneg]
  refine ⟨_, rfl, ?_, rfl⟩
  rw [Plant.onCell_getN, Plant.setPlain_swState]

end Sys2Proof
end

section
/-! PROOF. A YIELD of the owner (15 R415): an admitted YIELD is carried out, no outcome of it touches the power record, so that
no soft reset follows its answer, and the outcomes are told apart by the batch lock, SUCC = 0 and SUCC = RID. -/

namespace Sys2Proof.Machine

/-! ### What leaves the power record -/

@[simp] theorem Plant.newLease_power (p : Plant) (q : Part) : ((p.newLease).node q).power = (p.node q).power := rfl

/-- A change of owner with its record and source 0 leaves every power record. -/
@[simp] theorem Plant.setOwner_power (p : Plant) (rid prio port : Nat) (q : Part) :
    ((p.setOwner rid prio port).node q).power = (p.node q).power := by
  unfold Plant.setOwner
  extract_lets named x
  calc (((x.record .cvc 8 prio 0 0 (leBytes 8 rid)).raise .cvc 0 0).node q).power
      = (x.node q).power := (((Plant.Quiet.refl x).record ..).raise ..).power q
    _ = (named.node q).power := rfl
    _ = (p.node q).power := by simp only [named, Plant.cPut_power]

@[simp] theorem Plant.renew_power (p : Plant) (e : Echo) (q : Part) : ((p.renew e).node q).power = (p.node q).power := by
  unfold Plant.renew
  split
  · exact Plant.answer_soft ..
  · exact (Plant.answer_soft ..).trans (Plant.newLease_power p q)

/-! ### YIELD (R415) -/

/-- The three points of R415 for a YIELD of the owner, whose RID is not 0. -/
theorem Plant.yield_owner {p : Plant} {e : Echo} (howner : p.owner = e.rid) (hrid : e.rid ≠ 0) (succ : Nat) :
    p.yield e succ =
      if p.c K.gdpBatchState = 1 then p.answer e 0x0402 false p.ownerBody
      else if succ = 0 then (p.setOwner 0 0 0xFF).answer e 0 false (p.setOwner 0 0 0xFF).ownerBody
      else if succ = e.rid then p.renew e
      else ((p.setOwner succ (p.c K.gdpOwnerPrio) 0xFF).newLease).answer e 0 false
        ((p.setOwner succ (p.c K.gdpOwnerPrio) 0xFF).newLease).ownerBody := by
  unfold Plant.yield
  rw [if_neg (not_not_intro howner)]
  by_cases hzero : succ = 0
  · have hother : succ ≠ e.rid := hzero ▸ hrid.symm
    simp only [if_neg hother, if_pos hzero]
  · simp only [if_neg hzero]

/-- A YIELD, whatever its outcome, leaves every power record. -/
theorem Plant.yield_power (p : Plant) (e : Echo) (succ : Nat) (q : Part) :
    ((p.yield e succ).node q).power = (p.node q).power := by
  unfold Plant.yield
  split_ifs with hother hbatch hself hzero
  · exact Plant.answer_soft ..
  · exact Plant.answer_soft ..
  · exact Plant.renew_power p e q
  · exact (Plant.answer_soft ..).trans (Plant.setOwner_power p 0 0 0xFF q)
  · exact (Plant.answer_soft ..).trans (Plant.setOwner_power p succ (p.c K.gdpOwnerPrio) 0xFF q)

/-- The RID of an admitted request is not 0: one of 0 is malformed (R422). -/
theorem Plant.admits_rid {p : Plant} {r : Req} {m : Msg} (h : p.admits r m = true) : (echoOf r m).rid ≠ 0 := by
  simp only [Plant.admits, Bool.and_eq_true, bne_iff_ne, ne_eq] at h
  obtain ⟨⟨⟨⟨-, hrid⟩, -⟩, -⟩, -⟩ := h
  exact hrid

/-- An admitted YIELD is carried out on the plant its request leaves, and nothing follows its answer. -/
theorem State.serve_yield {s : State} {r : Req} {succ : Nat} (h : s.plant.admits r (.yield succ) = true) :
    s.serve r (.yield succ) =
      { s with plant := (s.plant.taken r (.yield succ)).yield (echoOf r (.yield succ)) succ } := by
  rw [State.serve_admits h]
  refine State.softAfter_none ?_
  calc (((s.plant.taken r (.yield succ)).yield (echoOf r (.yield succ)) succ).node .cvc).power.softDue
      = ((s.plant.taken r (.yield succ)).node .cvc).power.softDue := congrArg Power.softDue (Plant.yield_power ..)
    _ = false := Plant.admits_soft h

end Sys2Proof.Machine

namespace Sys2Proof

open Sys2Proof.Machine

/-- Settles O52: the admitted YIELD is carried out as `Plant.yield_owner` says, SUCC and RID compared as numbers. -/
theorem yieldPassesOwnership : Obligations.YieldPassesOwnership := by
  unfold Obligations.YieldPassesOwnership
  intro r succ s m x y z hm hadmits hx howner hy hz
  subst hm hx hy hz
  have hexec : exec (.yield r succ) s = .next (s.serve r (.yield succ.toNat)) := rfl
  have hzero : succ.toNat = 0 ↔ succ = 0 := BitVec.toNat_inj (y := 0)
  have hself : succ.toNat = (echoOf r (.yield succ.toNat)).rid ↔ succ = r.rid := BitVec.toNat_inj
  rw [hexec, State.serve_yield hadmits, Plant.yield_owner howner (Plant.admits_rid hadmits)]
  simp only [hzero, hself]

end Sys2Proof
end

section
/-! PROOF. Every command answers a next state, leaves the queue, and keeps the memories in canonical form: a command that changes the
plant alone has nothing to show, a command of the whole machine cites the law of its operation (Laws/Keeps.lean). -/

namespace Sys2Proof.Machine

/-- A meaning that answers a next state, in which the queue stands and the memories keep their canonical form. -/
def State.Answers (s : State) (o : Host.Outcome State Fault Refusal) : Prop := ∃ t, o = .next t ∧ s.Keeps t

theorem State.Answers.next {s t : State} (h : s.Keeps t) : s.Answers (.next t) := ⟨t, rfl, h⟩
/-- A command that changes the plant alone. -/
theorem State.Answers.plant {s : State} {o : Host.Outcome State Fault Refusal} {p : Plant} (h : o = .next { s with plant := p }) :
    s.Answers o := ⟨_, h, .plant s p⟩
theorem State.Answers.ite {s : State} {c : Prop} [Decidable c] {a b : Host.Outcome State Fault Refusal} (ha : s.Answers a)
    (hb : s.Answers b) : s.Answers (if c then a else b) := by
  split <;> assumption

/-! ### The commands of the whole machine that are no single operation -/

theorem State.Answers.captureSample (s : State) (ch : Fin 64) (val : BitVec 32) : s.Answers (execCaptureSample ch val s) :=
  .next (.ite (.acqSample ..) (.refl s))

theorem State.Answers.sequencerStep (s : State) : s.Answers (execSequencerStep s) :=
  .ite (.next (.refl s)) (.next (.withP (.ite (.plant s _) (.ite (.acqBegin s _) (.ite (.acqBegin s _) (.ite (.plant s _) (.refl s))))) _))

theorem State.Answers.recordClose (s : State) : s.Answers (execRecordClose s) :=
  .ite (.next ((State.Keeps.acqHeaderOut s true).withP _)) (.next (.refl s))

theorem State.Answers.harpLaunch (s : State) : s.Answers (execHarpLaunch s) :=
  .ite (.next (.refl s)) (.next (State.Keeps.ofP (.acqCycle _ _)))

theorem State.Answers.objectSample (s : State) : s.Answers (execObjectSample s) := by
  refine .ite (.next (.refl s)) (.next (.foldl _ _ (fun t ch => ?_) s))
  exact .ite (.acqSample ..) (.refl t)

theorem State.Answers.powerOnReset (s : State) (q : Part) : s.Answers (execPowerOnReset q s) :=
  .next ((State.Keeps.partDown ..).withP _)

theorem State.Answers.resetNAssert (s : State) (q : Part) : s.Answers (execResetNAssert q s) :=
  .ite (.next (.refl s)) (.next ((State.Keeps.partDown ..).withP _))

theorem State.Answers.resetNRelease (s : State) (q : Part) (b : Boot) : s.Answers (execResetNRelease q b s) :=
  .ite (.next (.refl s)) (.next (State.Keeps.partStart _ q).ofP)

theorem State.Answers.watchdogExpire (s : State) (q : Part) : s.Answers (execWatchdogExpire q s) :=
  .next (.ite (.coreReset ..) (.refl s))

theorem State.Answers.storeDone (s : State) (q : Part) (ok : Bool) : s.Answers (execStoreDone q ok s) :=
  .ite (.next (.refl s)) (.next (State.Keeps.softAfter _ q).ofP)

theorem State.Answers.firmwareWriteDone (s : State) (q : Part) : s.Answers (execFirmwareWriteDone q s) :=
  .ite (.next (.refl s)) (.next (State.Keeps.softAfter _ q).ofP)

theorem State.Answers.rindRequestedReset (s : State) (b : BitVec 2) : s.Answers (execRindRequestedReset b s) :=
  .ite (.next (.refl s)) (.ite (.next (.coreReset ..)) (.plant rfl))

theorem State.Answers.railOutOfRange (s : State) (q : Part) (rail : Fin 8) (below : Bool) :
    s.Answers (execRailOutOfRange q rail below s) :=
  .ite (.next (.refl s)) (.ite (.next (State.Keeps.supplyLost _ q).ofP) (.ite (.next (.plant s _)) (.ite (.next (.plant s _))
    (.ite (.next (State.Keeps.supplyLost _ q).ofP) (.next (State.Keeps.coreSupplyLost _ q).ofP)))))

theorem State.Answers.railInRange (s : State) (q : Part) (rail : Fin 8) : s.Answers (execRailInRange q rail s) :=
  .ite (.next (.refl s)) (.ite (.next (.plant s _)) (.ite (.next (.plant s _)) (.next (State.Keeps.partStart _ q).ofP)))

theorem State.Answers.serviceWriteSeg (s : State) (port : Port) (f : Frame) : s.Answers (execServiceWriteSeg port f s) := by
  unfold execServiceWriteSeg
  split
  · exact .next (.mirrorFrame ..)
  · exact .next (.serviceFrame ..)

theorem State.Answers.caveRecRead (s : State) (w : WSrc) : s.Answers (execCaveRecRead w s) := by
  cases w with
  | host r => exact .next (.serve ..)
  | service q => exact .plant rfl

theorem State.Answers.cycleBoundary (s : State) : s.Answers (execCycleBoundary s) :=
  .ite (.next ((State.Keeps.cycleBoundary s).trans (State.Keeps.softAfter _ _).ofP)) (.next (.refl s))

theorem State.Answers.rv32imafcInstruction (s : State) (e : Eng) : s.Answers (execRv32imafcInstruction e s) :=
  .next (.ite (State.rvStep_one s e).keeps (.refl s))

/-! ### Every command -/

/-- Every command answers a next state, in which the queue stands and the memories keep their canonical form. -/
theorem exec_answers (i : Instr) (s : State) : s.Answers (exec i s) := by
  cases i
  case laneLost | trainTimeout | blockLock | lstateUp | lstateDown | lstateReq | lstateAck | lstateNak | lstateReqTimeout |
    lstateReqRetry | eyeEstimate | prbsSync | prbsSyncLoss | prbsSecond | noticeBreak | noticeMend | noticePass |
    noticeServe | mendCountReached | passThroughEntry | plan | arbiterGrant | tripPreempt | gateTurnOn | firePulseEnd |
    bypConfirmTimeout | blankExpire | fireDelayExpire | bypStatClosed | ledgerSample | activityRequest | activityEnd |
    bootComplete | bootLaneTimeout | bypassOnResetExpire | corePgRise | corePgTimeout | corePgFall | laneUp | laneWake |
    command | collect | collectLaunch | trip | sync | syncUp | abortBlock | longReset | planLatch | planSend | itemException
    | itemLimit | itemDispatch | itemResume | timerTag | reportsCutoff | armLoopLaunch | armLoopOutput | loopSkip | injStep
    | injEnd | bitstreamTag | crosslinkTrip | heartbeatLoss | clockCompare | readbackMismatch | faultClearTimeout |
    tripHoldExpire | parameterStoreScan | modulatorClockLost | safetyFilterOutput | degradedTimeout | rindEvaluation |
    checkScanDone | checkStall | controlBitstreamOutput | sequencerTimeout | acqTrigIn | acqTrigOutEnd | graceExpire |
    noteExpire | caveClearDone | applyInstant | lossAction | pwmValley | trimEdge | cellSample | adcComplete | pathDisagree
    | htTrip | fbWindowExpire | gfMismatch | diChange | rcMeasure | powerStateEnter | caveWrite | cellCaptureSample |
    commitTimeout | emptyFrameEnd | harpComplete | leaseExpire | domainTimeout | subLifeExpire | allegianceChange |
    overlapEnd | relayIdleSend | syncSend | timeFrameMissed | holdoverExpire | counterWrap | delayReqSend | delayReq |
    delayResp | closureRead | ptpAnnounce | ptpSync | ptpFollowUp | pdelayReq | ptpManagement | announceTimeout | idle |
    idleSend | pathLost | peerSilence | startWaitExpire | takeover | collectLand | startupComplete | hubWaitExpire |
    ptpWaitExpire | junctionTemperature | referenceClockLost | chargeTimeout | serviceTimeout | hubPoll | discoveryPass |
    discoveryPassEnd | serviceResponse | hostDatagram | arpRequest | icmpEcho | hostLinkChange | noLinkTimeout | notify |
    periodicNotify | signatureVerified | padd | psub | pmul | pmac | vput | vputp | vget | vqry | vstat | vdone | tnow |
    tnowh | tsamp | tleft | tcyc =>
    exact .plant rfl
  case serviceRead | serviceWrite | serviceReadSeg | discover =>
    exact .next (.serviceFrame s _ _ _)
  case read | readDescriptor | write | batchedWrite | readBlock | batchOpen | batchCommit | batchAbort | claim | renew | yield
    | subscribe | calSRead =>
    exact .next (.serve s _ _)
  case charge | deblock | block | stop | resetTrip | loopApplyKeep | loopApplyBqReset | loopApplyFullReset | harpApply |
    harpFlagsClear | loopFlagsClear | injStart | injStop | vatMove | vatRearm | vatFlagsClear | calApply | imageArm |
    imageCommit | emergClear | acqArm | acqStop | acqForce | acqRelease =>
    exact .next (.hostWrite s _ _ _)
  case enginePackage | imageStage =>
    exact .next (.hostBytes s _ _ _)
  case prbsClear | slotSwitchAt | faultAck | caveClear | capArm | capStop | capForce | tripClear | bypFire | bypUnfire |
    fbClear | bench | prdWr | cmpWr | pwrRequest | softReset | storeSave | storeRestore | keyRevoke =>
    exact .next (.rowWrite s _ _ _)
  case storeImage | fwLoad | keyProg =>
    exact .next (.rowBytes s _ _ _)
  case captureSample ch val => exact .captureSample s ch val
  case sequencerStep => exact .sequencerStep s
  case recordClose => exact .recordClose s
  case harpLaunch => exact .harpLaunch s
  case objectSample => exact .objectSample s
  case powerOnReset q => exact .powerOnReset s q
  case resetNAssert q => exact .resetNAssert s q
  case resetNRelease q b => exact .resetNRelease s q b
  case watchdogExpire q => exact .watchdogExpire s q
  case storeDone q ok => exact .storeDone s q ok
  case firmwareWriteDone q => exact .firmwareWriteDone s q
  case rindRequestedReset b => exact .rindRequestedReset s b
  case railOutOfRange q rail below => exact .railOutOfRange s q rail below
  case railInRange q rail => exact .railInRange s q rail
  case serviceWriteSeg port f => exact .serviceWriteSeg s port f
  case caveRecRead w => exact .caveRecRead s w
  case cycleBoundary => exact .cycleBoundary s
  case rv32imafcInstruction e => exact .rv32imafcInstruction s e

/-- A step from a sound state gives a sound state: a command keeps the memories canonical, and a tick leaves them. -/
theorem step_sound {s t : State} (hs : s.sound = true) (h : step s = .next t) : t.sound = true := by
  unfold step at h
  split at h
  · cases h
    exact hs
  · next i rest _ =>
    obtain ⟨u, hu, hkeeps⟩ := exec_answers i { s with pending := rest }
    cases hu.symm.trans h
    exact hkeeps.2 hs

/-! ### Stores of an engine (05 R105) -/

/-- A store that the address map allows leaves every byte outside the engine's own data memory and shared engine memory. -/
theorem State.OneStore.memByte_outside {s t : State} {e : Eng} (h : s.OneStore t e) {a : Nat}
    (hown : ¬ (tcmKey e.val 0x10000 ≤ a ∧ a < tcmKey e.val 0x20000)) (hshared : ¬ (0x10000000 ≤ a ∧ a < 0x10800000)) :
    memByte t.mem a = memByte s.mem a := by
  obtain ⟨-, hmem | ⟨k, n, v, hn, hcause, hmem⟩⟩ := h
  · rw [hmem]
  · rw [hmem]
    refine memByte_memWrite_other _ _ ?_
    rcases storeCause_none (e := e) hn hcause with ⟨hlo, hhi⟩ | ⟨hlo, hhi⟩ <;> omega

end Sys2Proof.Machine

namespace Sys2Proof

open Sys2Proof.Machine

/-- Settles O48: every command keeps the canonical form, and a tick leaves the memories. -/
theorem memoriesStayCanonical : Obligations.MemoriesStayCanonical := fun _ _ => step_sound

/-- Settles O49, command by command. -/
theorem commandsAnswer : Obligations.CommandsAnswer := by
  unfold Obligations.CommandsAnswer
  intro i s
  obtain ⟨t, ht, hqueue, -⟩ := exec_answers i s
  exact ⟨t, ht, hqueue⟩

/-- Settles O50: an instruction stores at most once, where the address map allows it. -/
theorem engineStoresConfined : Obligations.EngineStoresConfined := by
  unfold Obligations.EngineStoresConfined
  intro e s t a h hown hshared
  have hexec : exec (.rv32imafcInstruction e) s =
      .next (if s.plant.up .cvc ∧ s.plant.engRuns e then s.rvStep e else s) := rfl
  cases hexec.symm.trans h
  split
  · exact (State.rvStep_one s e).memByte_outside hown hshared
  · rfl

/-- Settles O1: a step takes the command at the front and leaves the rest waiting. -/
theorem stepRunsFront : Obligations.StepRunsFront := fun _ _ _ => rfl

end Sys2Proof
end

section
/-! PROOF. Results stay in range (00 R13, 04 R82): the quotient that a division rounds to is told apart by its remainder, saturation is
a clamp to the PU32 limits, and the last thing a run does to its setpoint, output and integrator is to clamp them. -/

namespace Sys2Proof.Machine

/-! ### Division (R13) -/

/-- What is left of n after the rounded quotient: the remainder, or the remainder less one divisor. -/
theorem rdiv_residue (n : Int) (d : Nat) :
    (2 * (n % d) < d ∧ rdiv n d = n / d ∧ n - rdiv n d * d = n % d) ∨
      (2 * (n % d) > d ∧ rdiv n d = n / d + 1 ∧ n - rdiv n d * d = n % d - d) ∨
      (2 * (n % d) = d ∧ rdiv n d % 2 = 0 ∧ (n - rdiv n d * d = n % d ∨ n - rdiv n d * d = n % d - d)) := by
  have hdiv : n - n / d * d = n % d := by linarith [Int.ediv_mul_add_emod n d]
  have hup : n - (n / d + 1) * d = n % d - d := by linarith [Int.ediv_mul_add_emod n d]
  unfold rdiv
  dsimp only
  split_ifs with hlow hhigh heven
  · exact .inl ⟨hlow, rfl, hdiv⟩
  · exact .inr (.inl ⟨hhigh, rfl, hup⟩)
  · exact .inr (.inr ⟨by omega, heven, .inl hdiv⟩)
  · exact .inr (.inr ⟨by omega, by omega, .inr hup⟩)

/-- A division rounds to the nearest, with halves to the even. -/
theorem rdiv_nearest_even (n : Int) {d : Nat} (hd : 0 < d) :
    2 * (n - rdiv n d * d).natAbs ≤ d ∧ (2 * (n - rdiv n d * d).natAbs = d → rdiv n d % 2 = 0) := by
  have hnonneg : 0 ≤ n % d := Int.emod_nonneg n (by omega)
  have hlt : n % d < d := Int.emod_lt_of_pos n (by omega)
  obtain ⟨hr, -, hres⟩ | ⟨hr, -, hres⟩ | ⟨hr, heven, hres | hres⟩ := rdiv_residue n d <;>
    rw [hres] <;> exact ⟨by omega, by omega⟩

/-! ### Clamps -/

theorem clampI_of_mem {lo hi x : Int} (hlo : lo ≤ x) (hhi : x ≤ hi) : clampI lo hi x = x := by
  rw [clampI, if_neg (not_lt.2 hlo), if_neg (not_lt.2 hhi)]

theorem clampI_of_lt {lo x : Int} (hi : Int) (h : x < lo) : clampI lo hi x = lo := if_pos h

theorem clampI_of_gt {lo hi x : Int} (hlo : lo ≤ x) (h : hi < x) : clampI lo hi x = hi := by
  rw [clampI, if_neg (not_lt.2 hlo), if_pos h]

/-- A clamp to a range that is not empty lies in the range. -/
theorem clampI_mem {lo hi : Int} (h : lo ≤ hi) (x : Int) : lo ≤ clampI lo hi x ∧ clampI lo hi x ≤ hi := by
  unfold clampI
  split_ifs <;> omega

/-! ### One run of a loop (R82) -/

/-- The setpoint of a run is clamped to the limit in use. -/
theorem loopStep_setpoint {par : List Int} (l : ArmLoop) (i : LoopIn) (hlim : 0 ≤ min (parAt par 6) (parAt par 0x2C)) :
    -(min (parAt par 6) (parAt par 0x2C)) ≤ (loopStep par l i).s ∧ (loopStep par l i).s ≤ min (parAt par 6) (parAt par 0x2C) :=
  clampI_mem (by omega) _

/-- The output of a run is clamped to its limits. -/
theorem loopStep_output {par : List Int} (l : ArmLoop) (i : LoopIn) (hlim : parAt par 0x12 ≤ parAt par 0x11) :
    parAt par 0x12 ≤ (loopStep par l i).y ∧ (loopStep par l i).y ≤ parAt par 0x11 :=
  clampI_mem hlim _

/-- The integrator of a run stands where it is frozen, and is clamped to its limits where it is not. -/
theorem loopStep_integrator {par : List Int} {l : ArmLoop} (i : LoopIn) (hlim : parAt par 0x0B ≤ parAt par 0x0A)
    (hlo : parAt par 0x0B ≤ l.integ) (hhi : l.integ ≤ parAt par 0x0A) :
    parAt par 0x0B ≤ (loopStep par l i).integ ∧ (loopStep par l i).integ ≤ parAt par 0x0A := by
  simp only [loopStep]
  split
  · exact ⟨hlo, hhi⟩
  · exact clampI_mem hlim _

end Sys2Proof.Machine

namespace Sys2Proof

open Sys2Proof.Machine

/-- Settles O51: the rounded division by its remainder, saturation and the run of a loop by their clamps. -/
theorem resultsStayInRange : Obligations.ResultsStayInRange := by
  unfold Obligations.ResultsStayInRange
  refine ⟨?division, ?saturation, ?loop⟩
  case division => exact fun n _ hd => rdiv_nearest_even n hd
  case saturation =>
    intro x
    have hrange : puMin ≤ puMax := by decide
    exact ⟨fun ⟨hlo, hhi⟩ => clampI_of_mem hlo hhi, clampI_of_lt puMax, fun h => clampI_of_gt (hrange.trans h.le) h⟩
  case loop =>
    intro par l i hset hout hint hlo hhi
    obtain ⟨hs, hs'⟩ := loopStep_setpoint l i hset
    obtain ⟨hy, hy'⟩ := loopStep_output l i hout
    obtain ⟨hi, hi'⟩ := loopStep_integrator i hint hlo hhi
    exact ⟨hs, hs', hy, hy', hi, hi'⟩

end Sys2Proof
end

section
/-! PROOF. Checks and fields of what is sent (09 R246, R233, 08 R205): a CRC register never leaves its width, so a check that is sent is
the check that is computed again; a field lies where the sum of shifted fields puts it. -/

namespace Sys2Proof.Machine

/-! ### The registers of the checks keep their width -/

theorem crcRefByte_lt {p : Nat} (hp : p < 2 ^ 32) (n : Nat) : ∀ {c : Nat}, c < 2 ^ 32 → crcRefByte p n c < 2 ^ 32 := by
  induction n with
  | zero => exact fun h => h
  | succ n ih =>
    intro c hc
    have hshift : c >>> 1 < 2 ^ 32 := (Nat.shiftRight_le c 1).trans_lt hc
    refine ih ?_
    split
    · exact Nat.xor_lt_two_pow hshift hp
    · exact hshift

theorem crc8Byte_lt (n : Nat) : ∀ {c : Nat}, c < 256 → crc8Byte n c < 256 := by
  induction n with
  | zero => exact fun h => h
  | succ n ih =>
    intro c hc
    refine ih ?_
    split
    · exact Nat.xor_lt_two_pow (n := 8) (Nat.mod_lt _ (by decide)) (by decide)
    · omega

/-- A fold whose every step stays below a bound stays below it. -/
theorem foldl_lt {g : Nat → Nat → Nat} {m : Nat} {l : List Nat} (hg : ∀ c, c < m → ∀ b ∈ l, g c b < m) {c : Nat} (hc : c < m) :
    l.foldl g c < m := by
  induction l generalizing c with
  | nil => exact hc
  | cons b t ih =>
    exact ih (fun c hc x hx => hg c hc x (List.mem_cons_of_mem _ hx)) (hg c hc b (List.mem_cons_self ..))

theorem mem_beBytes_lt {n x b : Nat} (h : b ∈ beBytes n x) : b < 256 := by
  induction n with
  | zero => simp [beBytes] at h
  | succ n ih =>
    rcases List.mem_cons.1 h with rfl | h
    · exact Nat.mod_lt _ (by decide)
    · exact ih h

theorem crc32c_lt {bs : List Nat} (h : ∀ b ∈ bs, b < 256) : crc32c bs < 2 ^ 32 := by
  refine Nat.xor_lt_two_pow (foldl_lt (fun c hc b hb => ?_) (by decide)) (by decide)
  exact crcRefByte_lt (by decide) 8 (Nat.xor_lt_two_pow hc ((h b hb).trans (by decide)))

theorem crc8_lt {bs : List Nat} (h : ∀ b ∈ bs, b < 256) : crc8 bs < 256 :=
  foldl_lt (fun _ hc b hb => crc8Byte_lt 8 (Nat.xor_lt_two_pow (n := 8) hc (h b hb))) (by decide)

theorem frameCrc_lt (f : Frame) : frameCrc f < 2 ^ 32 := by
  refine crc32c_lt (fun b hb => ?_)
  simp only [frameBytes, List.mem_append, List.mem_flatMap, List.mem_singleton] at hb
  obtain (hb | ⟨_, -, hb⟩) | rfl := hb
  · exact mem_beBytes_lt hb
  · exact mem_beBytes_lt hb
  · exact f.fbh.isLt

/-! ### The check of a frame (R246) -/

/-- A frame sent with its own check is good. -/
theorem chkState_good (f : Frame) : chkState { f with chk := BitVec.ofNat 32 (frameCrc f) } = .good := by
  have hcrc : frameCrc { f with chk := BitVec.ofNat 32 (frameCrc f) } = frameCrc f := rfl
  have hchk : (BitVec.ofNat 32 (frameCrc f)).toNat = frameCrc f := by rw [BitVec.toNat_ofNat, Nat.mod_eq_of_lt (frameCrc_lt f)]
  simp only [chkState, hcrc, hchk, if_true]

/-- A frame sent with the complement of its check is stomped: no check is its own complement. -/
theorem chkState_stomped (f : Frame) : chkState { f with chk := BitVec.ofNat 32 (0xFFFFFFFF - frameCrc f) } = .stomped := by
  have hlt := frameCrc_lt f
  have hcrc : frameCrc { f with chk := BitVec.ofNat 32 (0xFFFFFFFF - frameCrc f) } = frameCrc f := rfl
  have hne : ¬ 0xFFFFFFFF - frameCrc f = frameCrc f := by omega
  have hchk : (BitVec.ofNat 32 (0xFFFFFFFF - frameCrc f)).toNat = 0xFFFFFFFF - frameCrc f := by
    rw [BitVec.toNat_ofNat, Nat.mod_eq_of_lt (by omega)]
  simp only [chkState, hcrc, hchk, if_neg hne, if_true]

theorem mkFrame_good (hdr : Nat) (data : List Nat) : chkState (mkFrame hdr data) = .good ∧ (mkFrame hdr data).fbh = 0xFF :=
  ⟨chkState_good ⟨BitVec.ofNat 56 hdr, data.map (BitVec.ofNat 64), 0xFF, 0⟩, rfl⟩

theorem forwardFrame_good {f : Frame} (h : chkState f = .good) (hop : Nat) (hdr : Header) (data : List Block) :
    chkState (forwardFrame hop f hdr data) = .good ∧ (forwardFrame hop f hdr data).fbh = f.fbh := by
  simp only [forwardFrame, h]
  exact ⟨chkState_good ⟨hdr, data, f.fbh, 0⟩, trivial⟩

theorem forwardFrame_stomped {f : Frame} (h : chkState f = .stomped) (hop : Nat) (hdr : Header) (data : List Block) :
    chkState (forwardFrame hop f hdr data) = .stomped ∧ (forwardFrame hop f hdr data).fbh = f.fbh := by
  simp only [forwardFrame, h]
  exact ⟨chkState_stomped ⟨hdr, data, f.fbh, 0⟩, trivial⟩

theorem forwardFrame_bad {f : Frame} (h : chkState f = .bad) (hop : Nat) (hdr : Header) (data : List Block) :
    chkState (forwardFrame hop f hdr data) = .stomped ∧
      (forwardFrame hop f hdr data).fbh = if f.fbh = 0xFF then BitVec.ofNat 8 hop else f.fbh := by
  simp only [forwardFrame, h]
  exact ⟨chkState_stomped ⟨hdr, data, if f.fbh = 0xFF then BitVec.ofNat 8 hop else f.fbh, 0⟩, trivial⟩

/-! ### Fields -/

theorem bits_eq_div_mod (x msb lsb : Nat) : bits x msb lsb = x / 2 ^ lsb % 2 ^ (msb + 1 - lsb) := by
  rw [bits, Nat.shiftRight_eq_div_pow]

theorem bitOf_eq_decide (x n : Nat) : bitOf x n = decide (x / 2 ^ n % 2 = 1) := Nat.testBit_eq_decide_div_mod_eq

theorem bitOf_true_iff {x n : Nat} : bitOf x n = true ↔ x / 2 ^ n % 2 = 1 := by rw [bitOf_eq_decide, decide_eq_true_iff]

/-! ### Ordered sets (08 R205) -/

/-- An ordered set carries its payload above its check. -/
theorem mkOs_toNat {payload : Nat} (h : payload < 2 ^ 48) :
    (mkOs payload).toNat = payload * 256 + crc8 (beBytes 6 payload) := by
  have hcrc : crc8 (beBytes 6 payload) < 256 := crc8_lt (fun _ => mem_beBytes_lt)
  rw [mkOs, BitVec.toNat_ofNat, Nat.mod_eq_of_lt (by omega)]

/-- A field of an ordered set above its check is a field of the payload. -/
theorem bits_mkOs {payload : Nat} (h : payload < 2 ^ 48) (msb lsb : Nat) :
    bits (mkOs payload).toNat (msb + 8) (lsb + 8) = bits payload msb lsb := by
  have hcrc : crc8 (beBytes 6 payload) < 256 := crc8_lt (fun _ => mem_beBytes_lt)
  have hdiv : (payload * 256 + crc8 (beBytes 6 payload)) / 256 = payload := by omega
  rw [mkOs_toNat h, bits_eq_div_mod, bits_eq_div_mod, Nat.add_comm lsb 8, pow_add, ← Nat.div_div_eq_div_mul,
    show (2 : Nat) ^ 8 = 256 from rfl, hdiv, show msb + 8 + 1 - (8 + lsb) = msb + 1 - lsb by omega]

theorem bitOf_mkOs {payload : Nat} (h : payload < 2 ^ 48) (n : Nat) : bitOf (mkOs payload).toNat (n + 8) = bitOf payload n := by
  have hcrc : crc8 (beBytes 6 payload) < 256 := crc8_lt (fun _ => mem_beBytes_lt)
  have hdiv : (payload * 256 + crc8 (beBytes 6 payload)) / 256 = payload := by omega
  rw [mkOs_toNat h, bitOf_eq_decide, bitOf_eq_decide, Nat.add_comm n 8, pow_add, ← Nat.div_div_eq_div_mul,
    show (2 : Nat) ^ 8 = 256 from rfl, hdiv]

/-- An ordered set made with a defined code passes its check. -/
theorem osGood_mkOs {payload : Nat} (h : payload < 2 ^ 48)
    (hcode : bits payload 47 44 = 1 ∨ bits payload 47 44 = 2 ∨ bits payload 47 44 = 3) : osGood (mkOs payload) = true := by
  have hcrc : crc8 (beBytes 6 payload) < 256 := crc8_lt (fun _ => mem_beBytes_lt)
  have hdiv : (mkOs payload).toNat / 256 = payload := by rw [mkOs_toNat h]; omega
  have hmod : (mkOs payload).toNat % 256 = crc8 (beBytes 6 payload) := by rw [mkOs_toNat h]; omega
  have hbits : bits (mkOs payload).toNat 55 52 = bits payload 47 44 := bits_mkOs h 47 44
  unfold osGood
  extract_lets x c
  have hc' : c = bits payload 47 44 := hbits
  rw [hc', hdiv, hmod]
  rcases hcode with hc | hc | hc <;> rw [hc, beq_self_eq_true] <;> rfl

/-- The payload of a PLAN set. -/
def planPayload (v : PlanV) (rst : Bool) (seq pseq : Nat) : Nat :=
  2 * 2 ^ 44 + v.a * 2 ^ 38 + v.b * 2 ^ 32 + v.brk.toNat * 2 ^ 31 + rst.toNat * 2 ^ 30 +
    v.lh * 2 ^ 24 + v.lt * 2 ^ 18 + seq * 2 ^ 10 + v.form * 2 ^ 8 + pseq * 2 ^ 4

theorem osPlan_eq_mkOs (v : PlanV) (rst : Bool) (seq pseq : Nat) : osPlan v rst seq pseq = mkOs (planPayload v rst seq pseq) := by
  unfold osPlan planPayload
  cases v.brk <;> cases rst <;> rfl

/-- A bit that a number of width 1 puts is read back. -/
theorem decide_toNat (b : Bool) : decide (b.toNat = 1) = b := by cases b <;> rfl

/-- A PLAN whose fields keep their widths passes its check, and every field is read as it was sent. -/
theorem osPlan_readBack {v : PlanV} {rst : Bool} {seq pseq : Nat} (clears : List Nat) (ha : v.a < 64) (hb : v.b < 64) (hlh : v.lh < 64)
    (hlt : v.lt < 64) (hform : v.form < 4) (hseq : seq < 256) (hpseq : pseq < 16) :
    osGood (osPlan v rst seq pseq) = true ∧ bits (osPlan v rst seq pseq).toNat 55 52 = 2 ∧
      planRx (osPlan v rst seq pseq) clears =
        { a := v.a, b := v.b, brk := v.brk, rst := rst, lh := v.lh, lt := v.lt, seq := seq, form := v.form, pseq := pseq,
          clears := clears, fresh := true } := by
  have hbrk : v.brk.toNat < 2 := v.brk.toNat_lt
  have hrst : rst.toNat < 2 := rst.toNat_lt
  have hlt48 : planPayload v rst seq pseq < 2 ^ 48 := by unfold planPayload; omega
  have hcode : bits (planPayload v rst seq pseq) 47 44 = 2 := by rw [bits_eq_div_mod]; unfold planPayload; omega
  rw [osPlan_eq_mkOs]
  refine ⟨osGood_mkOs hlt48 (.inr (.inl hcode)), (bits_mkOs hlt48 47 44).trans hcode, ?_⟩
  simp only [planRx, bits_mkOs hlt48 43 38, bits_mkOs hlt48 37 32, bits_mkOs hlt48 29 24, bits_mkOs hlt48 23 18,
    bits_mkOs hlt48 17 10, bits_mkOs hlt48 9 8, bits_mkOs hlt48 7 4, bitOf_mkOs hlt48 31, bitOf_mkOs hlt48 30,
    bits_eq_div_mod, bitOf_eq_decide, PlanRx.mk.injEq, and_true]
  have hbrk' : planPayload v rst seq pseq / 2 ^ 31 % 2 = v.brk.toNat := by unfold planPayload; omega
  have hrst' : planPayload v rst seq pseq / 2 ^ 30 % 2 = rst.toNat := by unfold planPayload; omega
  rw [hbrk', hrst', decide_toNat, decide_toNat]
  unfold planPayload
  refine ⟨?_, ?_, rfl, rfl, ?_, ?_, ?_, ?_, ?_⟩ <;> omega

/-! ### Command slots (09 R233) -/

/-- The slot of a command that is not TRIM carries SEQ and state. -/
theorem cmdSlot_plain {m : Cmd} (seq : Nat) (h : m.state < 4) : cmdSlot seq m = seq * 2 ^ 56 + m.state * 2 ^ 52 := by
  rw [cmdSlot, if_neg (by omega), Nat.add_zero]

/-- The slot of a TRIM carries its polarity, phase, duty and period too. -/
theorem cmdSlot_trim {m : Cmd} (seq : Nat) (h : m.state = 4) : cmdSlot seq m =
    seq * 2 ^ 56 + 4 * 2 ^ 52 + (m.neg.toNat * 2 ^ 51 + m.ph.toNat * 2 ^ 50 + m.duty * 2 ^ 32 + m.period * 2 ^ 15) := by
  rw [cmdSlot, if_pos h, h]
  cases m.neg <;> cases m.ph <;> rfl

theorem cmdSlot_plain_readBack {m : Cmd} {seq : Nat} (k : Nat) (hseq : seq < 256) (h : m.state < 4) :
    slotCmd (cmdSlot seq m) k = { state := m.state, neg := false, ph := false, duty := 0, period := 0, k := k } ∧
      slotValid (cmdSlot seq m) seq = true := by
  simp only [slotCmd, slotValid, cmdSlot_plain seq h, bits_eq_div_mod, bitOf_eq_decide, Cmd.mk.injEq, and_true, decide_eq_false_iff_not,
    Bool.and_eq_true, Bool.or_eq_true, beq_iff_eq, bne_iff_ne, decide_eq_true_eq]
  refine ⟨⟨?_, ?_, ?_, ?_, ?_⟩, ⟨?_, ?_⟩, .inl ?_⟩ <;> omega

theorem cmdSlot_trim_readBack {m : Cmd} {seq : Nat} (k : Nat) (hseq : seq < 256) (h : m.state = 4) (hduty : m.duty < 65536)
    (hmin : 1000 ≤ m.period) (hmax : m.period ≤ 100000) :
    slotCmd (cmdSlot seq m) k = { m with k := k } ∧ slotValid (cmdSlot seq m) seq = true := by
  have hneg : m.neg.toNat < 2 := m.neg.toNat_lt
  have hph : m.ph.toNat < 2 := m.ph.toNat_lt
  have hneg' : cmdSlot seq m / 2 ^ 51 % 2 = m.neg.toNat := by rw [cmdSlot_trim seq h]; omega
  have hph' : cmdSlot seq m / 2 ^ 50 % 2 = m.ph.toNat := by rw [cmdSlot_trim seq h]; omega
  simp only [slotCmd, slotValid, bits_eq_div_mod, bitOf_eq_decide, Cmd.mk.injEq, and_true, hneg', hph', decide_toNat, true_and, h,
    Bool.and_eq_true, Bool.or_eq_true, beq_iff_eq, bne_iff_ne, decide_eq_true_eq]
  rw [cmdSlot_trim seq h]
  refine ⟨⟨?_, ?_, ?_⟩, ⟨?_, ?_⟩, .inr ?_⟩ <;> omega

end Sys2Proof.Machine

namespace Sys2Proof

open Sys2Proof.Machine

/-- Settles O57, by the three states of a received frame's check. -/
theorem forwardedFramesKeepTheirCheck : Obligations.ForwardedFramesKeepTheirCheck :=
  ⟨fun hop _ hdr data => ⟨fun h => forwardFrame_good h hop hdr data, fun h => forwardFrame_stomped h hop hdr data,
    fun h => forwardFrame_bad h hop hdr data⟩, mkFrame_good⟩

/-- Settles O58, field by field. -/
theorem plansAndCommandsReadBack : Obligations.PlansAndCommandsReadBack :=
  ⟨fun _ _ _ _ clears ha hb hlh hlt hform hseq hpseq => osPlan_readBack clears ha hb hlh hlt hform hseq hpseq,
    fun _ _ k hseq h => cmdSlot_plain_readBack k hseq h,
    fun _ _ k hseq h hduty hmin hmax => cmdSlot_trim_readBack k hseq h hduty hmin hmax⟩

end Sys2Proof
end

section
/-! PROOF. How the SEQ of a request stands to its session (15 R411): a request command is served, serving a request of a session is told
apart by the case of its SEQ, and a change of a session is seen when the session is read. -/

namespace Sys2Proof.Machine

/-! ### Sessions -/

/-- A change of a session that leaves its RID is what the session then is. -/
theorem Plant.session_onSession (p : Plant) (rid : Nat) (f : Session → Session) (hf : ∀ x, (f x).rid = x.rid) :
    (p.onSession rid f).session rid = (p.session rid).map f := by
  have hsame : ((fun x : Session => x.rid == rid) ∘ fun x => if x.rid = rid then f x else x) = fun x => x.rid == rid := by
    funext x
    simp only [Function.comp_apply]
    split
    · rw [hf]
    · rfl
  show ((p.cvc.gdp.sessions.map (fun x => if x.rid = rid then f x else x)).find? (fun x => x.rid == rid)) = _
  rw [List.find?_map, hsame, Plant.session]
  cases hfind : p.cvc.gdp.sessions.find? (fun x => x.rid == rid) with
  | none => rfl
  | some y =>
    have hy : y.rid = rid := by simpa using List.find?_some hfind
    simp [hy]

@[simp] theorem Plant.sendMsg_session (p : Plant) (port : Nat) (x : Resp) (rid : Nat) : (p.sendMsg port x).session rid = p.session rid := rfl

/-- A SEQ that is taken as new is the session's highest. -/
theorem Plant.begin_hi {p : Plant} {e : Echo} {y : Session} (h : p.session e.rid = some y) :
    ((p.begin e).session e.rid).map (·.hi) = some e.seq := by
  have hread : (p.begin e).session e.rid = (p.session e.rid).map (fun x => { x with begun := true, hi := e.seq }) :=
    p.session_onSession e.rid _ (fun _ => rfl)
  rw [hread, h]
  rfl

/-- An answer of the session's own incarnation is cached in front, and the cache keeps the latest 16. -/
theorem Plant.answer_cache {p : Plant} {e : Echo} {y : Session} (st : Nat) (more : Bool) (body : List Nat)
    (h : p.session e.rid = some y) (hinc : y.inc = e.inc) :
    ((p.answer e st more body).session e.rid).map (·.cache) = some (({
      msg := e.msg, seq := e.seq, rid := e.rid, inc := e.inc, node := e.node, status := st, dup := false, more := more,
      body := body } :: y.cache).take 16) := by
  have hkeeps : ∀ (x : Resp) (z : Session),
      (if z.inc = e.inc then { z with cache := (x :: z.cache).take 16, busy := z.busy.erase e.seq } else z).rid = z.rid := by
    intro x z
    split <;> rfl
  rw [Plant.answer, Plant.sendMsg_session, Plant.session_onSession _ _ _ (hkeeps _), h]
  simp [hinc]

/-! ### The case of a SEQ -/

theorem Session.seqCase_cached {y : Session} {seq : Nat} {old : Resp} (h : y.cache.find? (fun z => z.seq == seq) = some old) :
    y.seqCase seq = .cached old := by
  simp only [Session.seqCase, h]

theorem Session.seqCase_carried {y : Session} {seq : Nat} (h : y.cache.find? (fun z => z.seq == seq) = none)
    (hbusy : y.busy.contains seq = true) : y.seqCase seq = .carried := by
  simp only [Session.seqCase, h, hbusy, if_true]

/-- A SEQ is ahead of the highest by at most half its range (R411). -/
def Session.ahead (y : Session) (seq : Nat) : Prop :=
  1 ≤ (seq + 2 ^ 32 - y.hi) % 2 ^ 32 ∧ (seq + 2 ^ 32 - y.hi) % 2 ^ 32 ≤ 2 ^ 31 - 1

theorem Session.seqCase_fresh {y : Session} {seq : Nat} (h : y.cache.find? (fun z => z.seq == seq) = none)
    (hbusy : y.busy.contains seq = false) (hnew : y.begun = false ∨ y.ahead seq) : y.seqCase seq = .fresh := by
  have hnew' : (!y.begun) = true ∨ y.ahead seq := hnew.imp_left (fun hb => by rw [hb, Bool.not_false])
  simp only [Session.seqCase, h, hbusy, Bool.false_eq_true, if_false]
  exact if_pos hnew'

theorem Session.seqCase_stale {y : Session} {seq : Nat} (h : y.cache.find? (fun z => z.seq == seq) = none)
    (hbusy : y.busy.contains seq = false) (hbegun : y.begun = true) (hold : ¬ y.ahead seq) : y.seqCase seq = .stale := by
  have hnew' : ¬ ((!y.begun) = true ∨ y.ahead seq) := by simp [hbegun, hold]
  simp only [Session.seqCase, h, hbusy, Bool.false_eq_true, if_false]
  exact if_neg hnew'

/-! ### Serving a request of a session (R404 steps 1 and 2) -/

/-- What serving a request that has a session leaves, by the case of its SEQ. -/
def State.serveCase (s : State) (x : Plant) (e : Echo) (m : Msg) : SeqCase → State
  | .cached old => { s with plant := (x.sendMsg e.port { old with dup := true }).bump .cvc K.gdpDuplicates 1 }
  | .carried => { s with plant := x }
  | .stale => { s with plant := ((x.bump .cvc K.gdpOutOfSeq 1).answerBare e 0x0602).raise .cvc 3 0 }
  | .fresh => (({ s with plant := x.begin e } : State).execute e m).softAfter .cvc

/-- A request on a port that serves, with a RID and a session, is served by the case of its SEQ. -/
theorem State.serve_session {s : State} {r : Req} {m : Msg} {x : Plant} {y : Session} (hport : s.plant.portServes r.port.val = true)
    (hrid : r.rid ≠ 0) (htake : (s.plant.dequeue (echoOf r m)).takeSession r.rid.toNat r.inc.toNat = some x)
    (hy : x.session r.rid.toNat = some y) : s.serve r m = s.serveCase x (echoOf r m) m (y.seqCase r.seq.toNat) := by
  have hport' : (!s.plant.portServes (echoOf r m).port) = false := by rw [Bool.not_eq_false']; exact hport
  have hrid' : ¬ (echoOf r m).rid = 0 := fun h => hrid (BitVec.toNat_inj.1 h)
  have htake' : (s.plant.dequeue (echoOf r m)).takeSession (echoOf r m).rid (echoOf r m).inc = some x := htake
  have hcase : (x.session (echoOf r m).rid).map (fun (z : Session) => z.seqCase (echoOf r m).seq) = some (y.seqCase r.seq.toNat) :=
    congrArg (Option.map _) hy
  unfold State.serve
  simp only [hport', Bool.false_eq_true, if_false, if_neg hrid', htake', hcase]
  cases y.seqCase r.seq.toNat <;> rfl

/-- A request command is served. -/
theorem exec_request {i : Instr} {r : Req} {m : Msg} (h : requestOf i = some (r, m)) (s : State) : exec i s = .next (s.serve r m) := by
  unfold requestOf at h
  split at h <;> cases h <;> rfl

end Sys2Proof.Machine

namespace Sys2Proof

open Sys2Proof.Machine

/-- Settles O53, by the cases of a SEQ. -/
theorem sessionsOrderRequests : Obligations.SessionsOrderRequests := by
  unfold Obligations.SessionsOrderRequests
  refine ⟨?served, fun _ _ => ⟨rfl, rfl, rfl⟩, ?cached, fun _ _ _ => rfl⟩
  case served =>
    intro i r m s x y hi hport hrid htake hy
    have hserve : exec i s = .next (s.serveCase x (echoOf r m) m (y.seqCase r.seq.toNat)) := by
      rw [exec_request hi, State.serve_session hport hrid htake hy]
    rw [hserve]
    refine ⟨fun old hold => ?_, fun hnew hbusy => ?_, fun hnew hbusy hahead => ⟨?_, Plant.begin_hi (e := echoOf r m) hy⟩,
      fun hnew hbusy hbegun hold => ?_⟩
    · rw [Session.seqCase_cached hold]
      rfl
    · rw [Session.seqCase_carried hnew hbusy]
      rfl
    · rw [Session.seqCase_fresh hnew hbusy hahead]
      rfl
    · rw [Session.seqCase_stale hnew hbusy hbegun hold]
      rfl
  case cached => exact fun _ _ st more body _ hy _ hinc => Plant.answer_cache st more body hy hinc

end Sys2Proof
end

section
/-! PROOF. What a power-on reset and RESET_N leave of a part (16 R436): a reset filters the objects in effect, so that an object that does
not survive reads its default; nothing that a reset does touches what is stored or the records in the Cave. -/

namespace Sys2Proof.Machine

/-! ### Stored values and records stand -/

/-- What a part keeps in NOR flash and in its Cave through every reset (16 R436). -/
def Node.saved (n : Node) : Tab Int × List CaveRec := (n.stored, n.cave.recs)

theorem Plant.onNode_saved (p : Plant) (q r : Part) (f : Node → Node) (hf : ∀ n, (f n).saved = n.saved) :
    ((p.onNode q f).node r).saved = (p.node r).saved := by
  rw [Plant.node_onNode]
  split
  · subst_vars
    exact hf _
  · rfl

@[simp] theorem Plant.put_saved (p : Plant) (q r : Part) (key : Nat) (v : Int) : ((p.put q key v).node r).saved = (p.node r).saved :=
  p.onNode_saved q r _ (fun _ => rfl)

@[simp] theorem Plant.bump_saved (p : Plant) (q r : Part) (key n : Nat) : ((p.bump q key n).node r).saved = (p.node r).saved :=
  Plant.put_saved ..

@[simp] theorem Plant.onLane_saved (p : Plant) (q r : Part) (l : Nat) (f : Lane → Lane) :
    ((p.onLane q l f).node r).saved = (p.node r).saved :=
  p.onNode_saved q r _ (fun _ => rfl)

@[simp] theorem Plant.sendAbort_saved (p : Plant) (q r : Part) (l : Nat) : ((p.sendAbort q l).node r).saved = (p.node r).saved := by
  unfold Plant.sendAbort
  split
  · exact Plant.onLane_saved ..
  · rfl

@[simp] theorem Plant.maskOwn_saved (p : Plant) (c : CellId) (r : Part) : ((p.maskOwn c).node r).saved = (p.node r).saved := by
  simp only [Plant.maskOwn, List.foldl_cons, List.foldl_nil]
  split_ifs <;> simp

@[simp] theorem Plant.tear_saved (p : Plant) (q r : Part) (sc : Scope) : ((p.tear q sc).node r).saved = (p.node r).saved := by
  unfold Plant.tear
  dsimp only
  split_ifs
  · exact Plant.onNode_saved p.free.2 q r _ (fun _ => rfl)
  · rfl
  · rfl

@[simp] theorem Plant.loseQueue_saved (p : Plant) (q r : Part) : ((p.loseQueue q).node r).saved = (p.node r).saved := by
  unfold Plant.loseQueue
  dsimp only
  split
  · exact Plant.bump_saved ..
  · rfl

@[simp] theorem Plant.nodeDown_saved (p : Plant) (q r : Part) (sc : Scope) (cause : Nat) :
    ((p.nodeDown q sc cause).node r).saved = (p.node r).saved := by
  unfold Plant.nodeDown
  extract_lets p1 other p2
  have h1 : (p1.node r).saved = (p.node r).saved := by simp only [p1, Plant.loseQueue_saved, Plant.tear_saved]
  have h2 : (p2.node r).saved = (p1.node r).saved := by
    simp only [p2]
    split
    · exact Plant.put_saved ..
    · rfl
  refine (Plant.onNode_saved p2 q r _ ?_).trans (h2.trans h1)
  exact fun _ => rfl

theorem Node.saved_inj {n m : Node} (h : n.saved = m.saved) : n.stored = m.stored ∧ n.cave.recs = m.cave.recs := Prod.mk.inj h

/-! ### Objects that do not survive read their defaults -/

/-- A key that a filter takes out of a table reads as the default. -/
theorem Tab.get_filter_out {β : Type} (d : Nat → β) (keep : Nat → Bool) {k : Nat} (h : keep k = false) (t : Tab β) :
    Tab.get d (t.filter (fun e => keep e.1)) k = d k := by
  induction t with
  | nil => rfl
  | cons e t ih =>
    rw [List.filter_cons]
    split
    · rename_i hkeep
      have hne : ¬ e.1 = k := fun he => by rw [he, h] at hkeep; cases hkeep
      rw [Tab.get, if_neg hne, ih]
    · exact ih

/-- An object that does not survive a reset reads its default after it (R436). -/
theorem Plant.nodeDown_get {q : Part} {sc : Scope} {key : Nat} (h : survives q.kind sc key = false) (p : Plant) (cause : Nat) :
    (p.nodeDown q sc cause).get q key = objDefault q.node key := by
  simp only [Plant.get, Plant.nodeDown, Plant.node_onNode_self]
  exact Tab.get_filter_out _ (survives q.kind sc) h _

theorem Plant.nodeDown_up (p : Plant) (q : Part) (sc : Scope) (cause : Nat) : (p.nodeDown q sc cause).up q = false := by
  simp [Plant.up, Plant.nodeDown]

/-- An object of class V or K that shows no pin or sensor does not survive a power-on reset. -/
theorem survives_por {kind key : Nat} {row : ObjRow} (hrow : memberRow kind key = some row) (hclass : row.pers = .v ∨ row.pers = .k)
    (hlive : liveObj key = false) : survives kind .por key = false := by
  have himm : immediate row = false := by
    rcases hclass with h | h <;> simp [immediate, h]
  simp only [survives, hlive, hrow, himm, Bool.false_or]
  rcases hclass with h | h <;> simp [h]

/-- Nor does it survive RESET_N, but for a cell's always-on domain. -/
theorem survives_pin {kind key : Nat} {row : ObjRow} (hrow : memberRow kind key = some row) (hclass : row.pers = .v ∨ row.pers = .k)
    (hlive : liveObj key = false) (haon : kind ≠ 2 ∨ alwaysOn .pin key = false) : survives kind .pin key = false := by
  have himm : immediate row = false := by
    rcases hclass with h | h <;> simp [immediate, h]
  simp only [survives, hlive, hrow, himm, Bool.false_or]
  rcases haon with h | h <;> simp [h]

/-! ### A part goes down -/

/-- What a reset leaves of the part itself, but for BYP_STAT of a cell in a power-on reset: its core is down, an object that does not
survive reads its default, and what is stored and recorded stands. -/
theorem State.partDown_part (s : State) {q : Part} {sc : Scope} {key : Nat} (cause : Nat) (hlost : survives q.kind sc key = false)
    (hbyp : sc ≠ .por ∨ key ≠ K.bypStatus) :
    (s.partDown q sc cause).plant.up q = false ∧ (s.partDown q sc cause).plant.get q key = objDefault q.node key ∧
      ((s.partDown q sc cause).plant.node q).saved = (s.plant.node q).saved := by
  cases q with
  | cvc =>
    simp only [State.partDown, State.cvcDown, Plant.onCvc_up, Plant.onCvc_get, Plant.onCvc_node, Plant.nodeDown_saved, and_true]
    exact ⟨Plant.nodeDown_up .., Plant.nodeDown_get hlost ..⟩
  | hub h =>
    have hnode : (s.plant.hubDown h sc cause).node (.hub h) = (s.plant.nodeDown (.hub h) sc cause).node (.hub h) := by
      rw [Plant.hubDown, Plant.forgetHub_node _ h _ (by simp), Plant.onHub_node]
    simp only [State.partDown, Plant.up, Plant.get, hnode, Plant.nodeDown_saved, and_true]
    exact ⟨Plant.nodeDown_up .., Plant.nodeDown_get hlost ..⟩
  | cell c =>
    have hup := (s.plant.maskOwn c).nodeDown_up (.cell c) sc cause
    have hget := (s.plant.maskOwn c).nodeDown_get hlost cause
    have hsaved : ((((s.plant.maskOwn c).nodeDown (.cell c) sc cause)).node (.cell c)).saved = (s.plant.node (.cell c)).saved := by simp
    simp only [State.partDown, Plant.cellDown]
    split
    · rename_i hpor
      have hkey : key ≠ K.bypStatus := hbyp.resolve_left (not_not_intro hpor)
      have hother : ¬ (Part.cell c = Part.cell c ∧ key = K.bypStatus) := fun h => hkey h.2
      rw [Plant.put_up, Plant.onCell_up, Plant.get_put, if_neg hother, Plant.onCell_get, Plant.put_saved, Plant.onCell_node]
      exact ⟨hup, hget, hsaved⟩
    · rw [Plant.onCell_up, Plant.onCell_get, Plant.onCell_node]
      exact ⟨hup, hget, hsaved⟩

/-- A change of a part's power record leaves its objects, and what it has stored and recorded. -/
@[simp] theorem Plant.onPower_get (p : Plant) (q : Part) (f : Power → Power) (key : Nat) : (p.onPower q f).get q key = p.get q key := by
  simp [Plant.get, Plant.onPower]

@[simp] theorem Plant.onPower_saved (p : Plant) (q : Part) (f : Power → Power) : ((p.onPower q f).node q).saved = (p.node q).saved :=
  p.onNode_saved q q _ (fun _ => rfl)

@[simp] theorem Plant.holdReset_up (p : Plant) (q : Part) : (p.holdReset q).up q = p.up q := by
  simp [Plant.up, Plant.holdReset]

@[simp] theorem Plant.holdReset_get (p : Plant) (q : Part) (key : Nat) : (p.holdReset q).get q key = p.get q key := by
  simp [Plant.get, Plant.holdReset]

@[simp] theorem Plant.holdReset_saved (p : Plant) (q : Part) : ((p.holdReset q).node q).saved = (p.node q).saved :=
  p.onNode_saved q q _ (fun _ => rfl)

end Sys2Proof.Machine

namespace Sys2Proof

open Sys2Proof.Machine

/-- Settles O56: both resets take the part down, in which an object of class V or K does not survive. -/
theorem resetsReturnDefaults : Obligations.ResetsReturnDefaults := by
  unfold Obligations.ResetsReturnDefaults
  refine ⟨?powerOn, ?pin⟩
  case powerOn =>
    intro q s key row hrow hclass hlive hbyp
    obtain ⟨hup, hget, hsaved⟩ := s.partDown_part (if (s.plant.node q).power.held then 3 else 1)
      (survives_por hrow hclass hlive) (.inr hbyp)
    refine ⟨_, rfl, ?_, (Plant.onPower_get ..).trans hget,
      Node.saved_inj ((Plant.onPower_saved ..).trans hsaved)⟩
    simpa [Plant.up, Plant.onPower] using hup
  case pin =>
    intro q s key row hrow hclass hlive haon hheld
    obtain ⟨hup, hget, hsaved⟩ := s.partDown_part 2 (survives_pin hrow hclass hlive haon) (.inl (by decide))
    have hexec : exec (.resetNAssert q) s =
        .next { s.partDown q .pin 2 with plant := (s.partDown q .pin 2).plant.holdReset q } := by
      show execResetNAssert q s = _
      simp [execResetNAssert, hheld]
    exact ⟨_, hexec, (Plant.holdReset_up ..).trans hup, (Plant.holdReset_get ..).trans hget,
      Node.saved_inj ((Plant.holdReset_saved ..).trans hsaved)⟩

end Sys2Proof
end

section
/-! PROOF. A grant of the planner leaves the reserve (07 R172, R176): what is free after a commitment is what was free less its cost, the
planner grants only where that is not below 0, and the lane that then trains changes no object of the ledger. -/

namespace Sys2Proof.Machine

/-! ### Free energy -/

@[simp] theorem Plant.cost_onCell (p : Plant) (c d : CellId) (f : Cell → Cell) (a : Nat) : (p.onCell d f).cost c a = p.cost c a := rfl

/-- A commitment takes its cost from what is free. -/
theorem Plant.freeEnergy_commit (p : Plant) (c : CellId) (a : Nat) : (p.commit c a).freeEnergy c = p.freeEnergy c - p.cost c a := by
  have hcost : (p.commit c a).cost c = p.cost c := rfl
  simp only [Plant.freeEnergy, Plant.committed, hcost]
  simp only [Plant.commit, Plant.onCell_get, Plant.cell_onCell_self, List.map_cons, List.sum_cons]
  push_cast
  ring

/-- What is free depends on the ledger's objects and commitments alone. -/
theorem Plant.freeEnergy_congr {p p' : Plant} {c : CellId} (hobj : ∀ k, k < 0x380000 → p'.get (.cell c) k = p.get (.cell c) k)
    (hholds : (p'.cell c).led.holds = (p.cell c).led.holds) : p'.freeEnergy c = p.freeEnergy c := by
  have hcost : p'.cost c = p.cost c := by
    funext a
    have hkey : costKey a < 0x380000 := by
      unfold costKey
      split <;> decide
    simp only [Plant.cost, Plant.getN, hobj _ hkey]
  simp only [Plant.freeEnergy, Plant.committed, hcost, hholds, hobj K.nrgAvail (by decide)]

/-- A lane of a cell that goes down or trains changes lane objects alone. -/
theorem Plant.laneDown_get (p : Plant) (c : CellId) (l st : Nat) {k : Nat} (hk : k < 0x380000) :
    (p.laneDown (.cell c) l st).get (.cell c) k = p.get (.cell c) k := by
  have h2 : ¬ k = laneKey l 2 := by unfold laneKey; omega
  have h3 : ¬ k = laneKey l 3 := by unfold laneKey; omega
  simp only [Plant.laneDown, Plant.setLaneState, Plant.onLane_get, Plant.get_put, h2, h3, and_false, if_false]

@[simp] theorem Plant.laneDown_cell (p : Plant) (c d : CellId) (l st : Nat) : (p.laneDown (.cell c) l st).cell d = p.cell d := rfl

/-! ### The planner (R176) -/

/-- Outside BOOT a grant of an activity that is no fire leaves what is free at or above 0. -/
theorem Plant.grants_free {p : Plant} {c : CellId} {a : Nat} (ha : a < 7) (hboot : p.getN (.cell c) K.nrgState ≠ 1)
    (h : p.grants c a = true) : 0 ≤ p.freeEnergy c - p.cost c a := by
  unfold Plant.grants at h
  extract_lets q st at h
  rw [if_neg (by omega)] at h
  split_ifs at h with hoff hlane
  · have hst : (st == 1) = false := beq_false_of_ne hboot
    simp only [hst, Bool.false_and, Bool.false_or, decide_eq_true_eq] at h
    omega
  · simp only [Plant.deferOk, Bool.and_eq_true, decide_eq_true_eq] at h
    omega

theorem Plant.request_granted {p : Plant} {c : CellId} {a : Nat} (ha : a < 7) (h : p.grants c a = true) :
    p.request c a = (true, p.commit c a) := by
  rw [Plant.request, if_pos h, if_neg (by omega)]

theorem Plant.request_refused {p : Plant} {c : CellId} {a : Nat} (h : p.grants c a = false) : p.request c a = (false, p.refuse c) := by
  simp [Plant.request, h]

/-- A lane that is granted trains. -/
theorem Plant.requestLane_granted {p : Plant} {c : CellId} {a : Nat} (ha : a < 7) (h : p.grants c a = true) :
    p.requestLane c a = ((p.commit c a).laneDown (.cell c) ((a - 1) % 2) 1).onCell c (fun e =>
      { e with led := { e.led with laneWant := e.led.laneWant.filter (· != a) } }) := by
  simp [Plant.requestLane, Plant.request_granted ha h]

theorem Plant.requestLane_refused {p : Plant} {c : CellId} {a : Nat} (h : p.grants c a = false) :
    p.requestLane c a = (p.refuse c).onCell c (fun e => { e with led := { e.led with laneWant := addTo e.led.laneWant a } }) := by
  simp [Plant.requestLane, Plant.request_refused h]

/-- ACTIVITY_REQUEST of an activity that is no boot: a lane's, or another. -/
theorem exec_activityRequest {c : CellId} {act : Fin 8} (h : 1 ≤ act.val) (s : State) :
    exec (.activityRequest c act) s = .next { s with
      plant := if act.val ≤ 4 then s.plant.requestLane c act.val else (s.plant.request c act.val).2 } := by
  have hexec : exec (.activityRequest c act) s = execActivityRequest c act s := rfl
  rw [hexec, execActivityRequest, State.on_eq]
  simp only [if_neg (show ¬ act.val = 0 by omega)]

/-- A request that is refused commits nothing, and is counted. -/
def Plant.Refused (c : CellId) (p p' : Plant) : Prop :=
  (p'.cell c).led.holds = (p.cell c).led.holds ∧
    p'.get (.cell c) K.nrgRefused = satAdd (objWidth (.cell c) K.nrgRefused) (p.get (.cell c) K.nrgRefused) 1

theorem Plant.refuse_refused (p : Plant) (c : CellId) : Plant.Refused c p (p.refuse c) := by
  refine ⟨rfl, ?_⟩
  simp only [Plant.refuse, Plant.get_bump, and_self, if_true, Nat.cast_one]

/-- A request that is granted commits its cost, and what is then free is not below 0. -/
def Plant.Granted (c : CellId) (a : Nat) (p p' : Plant) : Prop :=
  (p'.cell c).led.holds = a :: (p.cell c).led.holds ∧ 0 ≤ p'.freeEnergy c

theorem Plant.commit_granted {p : Plant} {c : CellId} {a : Nat} (h : 0 ≤ p.freeEnergy c - p.cost c a) :
    Plant.Granted c a p (p.commit c a) := by
  refine ⟨by simp [Plant.commit], ?_⟩
  rw [Plant.freeEnergy_commit]
  exact h

/-- A lane that trains after its grant leaves what is free. -/
theorem Plant.requestLane_free {p : Plant} {c : CellId} {a : Nat} (ha : a < 7) (hg : p.grants c a = true)
    (h : 0 ≤ p.freeEnergy c - p.cost c a) : Plant.Granted c a p (p.requestLane c a) := by
  obtain ⟨hholds, hfree⟩ := Plant.commit_granted h
  rw [Plant.requestLane_granted ha hg]
  refine ⟨by simpa using hholds, ?_⟩
  rw [Plant.freeEnergy_congr (p := p.commit c a)]
  · exact hfree
  · intro k hk
    rw [Plant.onCell_get, Plant.laneDown_get _ _ _ _ hk]
  · simp

end Sys2Proof.Machine

namespace Sys2Proof

open Sys2Proof.Machine

/-- Settles O59, by whether the planner grants the activity and whether it is a lane's. -/
theorem grantsLeaveTheReserve : Obligations.GrantsLeaveTheReserve := by
  unfold Obligations.GrantsLeaveTheReserve
  intro c act s hmin hmax hboot
  refine ⟨_, exec_activityRequest hmin s, ?_⟩
  dsimp only
  cases hg : s.plant.grants c act.val with
  | false =>
    left
    split
    · rw [Plant.requestLane_refused hg]
      simpa [Plant.Refused] using s.plant.refuse_refused c
    · rw [Plant.request_refused hg]
      exact s.plant.refuse_refused c
  | true =>
    right
    have hfree := Plant.grants_free (by omega) hboot hg
    split
    · exact Plant.requestLane_free (by omega) hg hfree
    · rw [Plant.request_granted (by omega) hg]
      exact Plant.commit_granted hfree

end Sys2Proof
end

section
/-! PROOF. A cell controller's own commands stay in their cell: each is a change of the plant built from the operations of which
Laws/OnlyCell.lean says that they change nothing outside it. -/

namespace Sys2Proof.Machine

/-- A meaning that changes the plant, and of the plant at most one cell. -/
def State.StaysIn (s : State) (c : CellId) (o : Host.Outcome State Fault Refusal) : Prop :=
  ∃ p, o = .next { s with plant := p } ∧ Plant.OnlyCell c s.plant p

theorem State.StaysIn.on {s : State} {c : CellId} {f : Plant → Plant} (hf : ∀ p, Plant.OnlyCell c p (f p)) : s.StaysIn c (s.on f) :=
  ⟨_, rfl, hf _⟩

theorem State.StaysIn.onUp {s : State} {c : CellId} {q : Part} {f : Plant → Plant} (hf : ∀ p, Plant.OnlyCell c p (f p)) :
    s.StaysIn c (s.onUp q f) :=
  ⟨_, rfl, .ite (hf _) (.refl c _)⟩

namespace Plant.OnlyCell

variable {c : CellId} {p p' : Plant}

theorem benchApply (h : Plant.OnlyCell c p p') : Plant.OnlyCell c p (p'.benchApply c) := by
  unfold Plant.benchApply
  exact ite (h.setPlain _) (ite (h.enterTrim ..) (ite h (h.enterTrim ..)))

theorem applyValid (h : Plant.OnlyCell c p p') (k : Nat) (f : Filed) : Plant.OnlyCell c p (p'.applyValid c k f) := by
  unfold Plant.applyValid
  extract_lets q ended
  have hended : Plant.OnlyCell c p ended := (h.put ..).onCell _
  exact ite hended (ite hended.benchApply ((hended.takeUp _).onCell _))

theorem applyNone (h : Plant.OnlyCell c p p') : Plant.OnlyCell c p (p'.applyNone c) := by
  unfold Plant.applyNone
  extract_lets q held
  have hheld : Plant.OnlyCell c p held := (h.bump ..).onCell _
  exact ite hheld hheld.benchApply

theorem showStat (h : Plant.OnlyCell c p p') (closed : Bool) : Plant.OnlyCell c p (p'.showStat c closed) := by
  unfold Plant.showStat
  exact ite (h.put ..) (ite ((h.put ..).onCell _) ((h.put ..).fire 4))

end Plant.OnlyCell

/-! ### Switching (02 R39–R41, 06 R137–R150) -/

section
open Plant.OnlyCell (refl ite)

variable {c : CellId} {s : State}

theorem execApplyInstant_staysIn : s.StaysIn c (execApplyInstant c s) := by
  refine .onUp (fun p => ?_)
  extract_lets e k mine counted
  have hcounted : Plant.OnlyCell c p counted := ite ((refl c p).onCell _) (refl c p)
  refine ite hcounted ?_
  clear_value mine
  cases mine with
  | some f => exact hcounted.applyValid ..
  | none => exact hcounted.applyNone

theorem execLossAction_staysIn : s.StaysIn c (execLossAction c s) := by
  refine .onUp (fun p => ?_)
  have hloss : Plant.OnlyCell c p ((p.leaveBench c).put (.cell c) K.cycleInLoss 1) := (refl c p).leaveBench.put ..
  exact ite (refl c p) (ite hloss (hloss.setPlain _))

theorem execGateTurnOn_staysIn (n : Pin8) : s.StaysIn c (execGateTurnOn c n s) :=
  .on (fun p => ite (((refl c p).setGates _).onCell _) (refl c p))

theorem execPwmValley_staysIn : s.StaysIn c (execPwmValley c s) := by
  refine .onUp (fun p => ite (refl c p) ?_)
  extract_lets j point counted
  have hcounted : Plant.OnlyCell c p counted := (refl c p).onCell _
  exact ite hcounted.loadRegs hcounted

theorem execTrimEdge_staysIn (up : Bool) : s.StaysIn c (execTrimEdge c up s) := by
  refine .onUp (fun p => ite (refl c p) ?_)
  extract_lets w e prd cmp ty d half r half' half''
  have hcut : Plant.OnlyCell c p (p.bump (.cell c) K.pwmSuppressed 1) := (refl c p).bump ..
  refine ite (ite (refl c p) (ite hcut ?_)) (ite (refl c p) (ite hcut ?_))
  · exact ((refl c p).aimGates _).onCell _
  · exact ((refl c p).aimGates _).onCell _

/-! ### Samples, inputs and feedback (06 R151, R152, R161, R162; 13 R373) -/

theorem execCellSample_staysIn (v i : BitVec 16) : s.StaysIn c (execCellSample c v i s) :=
  .onUp (fun p => ite ((refl c p).onCell _) (refl c p))

theorem execAdcComplete_staysIn : s.StaysIn c (execAdcComplete c s) := by
  refine .onUp (fun p => ?_)
  extract_lets q e coded sampled checked
  have hsampled : Plant.OnlyCell c p sampled := (((refl c p).put ..).put ..).onCell _
  have hchecked : Plant.OnlyCell c p checked := ite ((hsampled.bump ..).raise ..) hsampled
  exact ite hchecked.leaveBench hchecked

theorem execCellCaptureSample_staysIn (v i : BitVec 16) (fb : BitVec 8) : s.StaysIn c (execCellCaptureSample c v i fb s) := by
  refine .onUp (fun p => ite (refl c p) ?_)
  extract_lets t vals taken src x
  have htaken : Plant.OnlyCell c p taken := (refl c p).onCell _
  refine ite (ite (htaken.capClose 0) htaken) ?_
  split
  · exact ite htaken.capTake htaken
  · exact ite htaken.capTake htaken
  · exact ite htaken.capTake htaken
  · exact htaken

theorem execFbWindowExpire_staysIn (n : Pin8) : s.StaysIn c (execFbWindowExpire c n s) :=
  .onUp (fun p => ite ((refl c p).onCell _) (refl c p))

theorem execGfMismatch_staysIn (n : Pin8) : s.StaysIn c (execGfMismatch c n s) :=
  .onUp (fun p => ite (((refl c p).put ..).raise ..) (refl c p))

theorem execDiChange_staysIn (n : Pin8) (level : Bool) : s.StaysIn c (execDiChange c n level s) :=
  .onUp (fun p => ite (((refl c p).put ..).raise ..) ((refl c p).put ..))

/-! ### Protection and firing (06 R153–R160) -/

theorem execHtTrip_staysIn (n : Pin4) (x y : Bool) : s.StaysIn c (execHtTrip c n x y s) := by
  refine .onUp (fun p => ite (refl c p) ?_)
  extract_lets old setX setY fires delay isNew latched low counted onX onY
  have hlow : Plant.OnlyCell c p low := (((refl c p).put ..).holdLow _).capEvent 3
  have hcounted : Plant.OnlyCell c p counted := ite ((hlow.bump ..).onCell _) hlow
  have hx : Plant.OnlyCell c p onX := ite (hcounted.raise ..) hcounted
  have hy : Plant.OnlyCell c p onY := ite (hx.raise ..) hx
  exact ite (refl c p) (ite (ite (hy.fire 1) (hy.onCell _)) hy)

theorem execBlankExpire_staysIn (n : Pin4) : s.StaysIn c (execBlankExpire c n s) := .on (fun p => (refl c p).onCell _)

theorem execPathDisagree_staysIn (n : Pin4) : s.StaysIn c (execPathDisagree c n s) :=
  .onUp (fun p => ite ((refl c p).raise ..) (refl c p))

theorem execFireDelayExpire_staysIn : s.StaysIn c (execFireDelayExpire c s) :=
  .on (fun p => ite (((refl c p).onCell _).fire 1) (refl c p))

theorem execBypStatClosed_staysIn : s.StaysIn c (execBypStatClosed c s) := .on (fun p => ((refl c p).onCell _).showStat true)

theorem execFirePulseEnd_staysIn : s.StaysIn c (execFirePulseEnd c s) := .on (fun p => (refl c p).onCell _)

theorem execBypConfirmTimeout_staysIn : s.StaysIn c (execBypConfirmTimeout c s) :=
  .on (fun p => ite (refl c p) (ite ((refl c p).onCell _) (((refl c p).put ..).raise ..)))

/-! ### The ledger's own commands (07 R176, R187) -/

theorem execRcMeasure_staysIn (hz : BitVec 32) : s.StaysIn c (execRcMeasure c hz s) :=
  .onUp (fun p => ite ((refl c p).put ..) ((refl c p).raise ..))

theorem execActivityEnd_staysIn (act : Fin 8) : s.StaysIn c (execActivityEnd c act s) := .on (fun p => (refl c p).onCell _)

end

/-- A cell controller's own command stays in its cell. -/
theorem exec_ownCell {i : Instr} {c : CellId} (h : ownCell i = some c) (s : State) : s.StaysIn c (exec i s) := by
  unfold ownCell at h
  split at h <;> cases h
  · exact execApplyInstant_staysIn
  · exact execLossAction_staysIn
  · exact execGateTurnOn_staysIn _
  · exact execPwmValley_staysIn
  · exact execTrimEdge_staysIn _
  · exact execCellSample_staysIn _ _
  · exact execAdcComplete_staysIn
  · exact execCellCaptureSample_staysIn _ _ _
  · exact execHtTrip_staysIn _ _ _
  · exact execBlankExpire_staysIn _
  · exact execPathDisagree_staysIn _
  · exact execFireDelayExpire_staysIn
  · exact execBypStatClosed_staysIn
  · exact execFirePulseEnd_staysIn
  · exact execBypConfirmTimeout_staysIn
  · exact execFbWindowExpire_staysIn _
  · exact execGfMismatch_staysIn _
  · exact execDiChange_staysIn _ _
  · exact execRcMeasure_staysIn _
  · exact execActivityEnd_staysIn _

end Sys2Proof.Machine

namespace Sys2Proof

open Sys2Proof.Machine

/-- Settles O60, command by command. -/
theorem cellEventsStayInTheirCell : Obligations.CellEventsStayInTheirCell := by
  unfold Obligations.CellEventsStayInTheirCell
  intro i c s t hown ht
  obtain ⟨p, hp, honly⟩ := exec_ownCell hown s
  cases hp.symm.trans ht
  exact ⟨honly, rfl⟩

end Sys2Proof
end

section
/-! PROOF. Writes by the owner (15 R404, 00_scope.md R6): a write-only object of the CVC alone acts through `Plant.actCvc`, and a write of it
that is accepted acts and is answered. On it rest the commands that are one write of the CVC's owner. -/

namespace Sys2Proof.Machine

/-- Write-only objects that parts of several kinds hold (16 R431–R443, 12 R338, R351, 08 R203, 09 R251). -/
def actsAnywhere (key : Nat) : Bool :=
  key == K.rstSoft || key == K.storeSave || key == K.storeRestore || key == K.bootKeyRevoke || key == K.faultAck || key == K.caveClear ||
    decide (0x3800 ≤ key / 256 ∧ key / 256 < 0x3840) || decide (0x3A10 ≤ key / 256 ∧ key / 256 ≤ 0x3A13)

/-- A write-only object of no other part acts as the CVC's own. -/
theorem Plant.act_cvc {key : Nat} (h : actsAnywhere key = false) (p : Plant) (rid v : Nat) :
    p.act .cvc rid key v = p.actCvc rid key v := by
  simp only [actsAnywhere, Bool.or_eq_false_iff, beq_eq_false_iff_ne, ne_eq, decide_eq_false_iff_not] at h
  obtain ⟨⟨⟨⟨⟨⟨⟨h1, h2⟩, h3⟩, h4⟩, h5⟩, h6⟩, h7⟩, h8⟩ := h
  simp only [Plant.act, if_neg h1, if_neg h2, if_neg h3, if_neg h4, if_neg h5, if_neg h6, if_neg h7, if_neg h8]

/-- Likewise a write-only object of no other part acts as a cell's own. -/
theorem Plant.act_cell {key : Nat} (h : actsAnywhere key = false) (p : Plant) (c : CellId) (rid v : Nat) :
    p.act (.cell c) rid key v = (0, p.actCell c key v) := by
  simp only [actsAnywhere, Bool.or_eq_false_iff, beq_eq_false_iff_ne, ne_eq, decide_eq_false_iff_not] at h
  obtain ⟨⟨⟨⟨⟨⟨⟨h1, h2⟩, h3⟩, h4⟩, h5⟩, h6⟩, h7⟩, h8⟩ := h
  simp only [Plant.act, if_neg h1, if_neg h2, if_neg h3, if_neg h4, if_neg h5, if_neg h6, if_neg h7, if_neg h8]

/-- The object is a write-only number of n bytes of a part of a kind, which no other part holds. -/
def isCommand (kind key n : Nat) : Bool :=
  (rowOf kind key).map (fun row => row.ty.size) == some n && (rowOf kind key).any (fun row => !row.isBlob && row.acc == .wo) &&
    !actsAnywhere key

/-- An owner's write of a write-only number of the CVC alone, whose act leaves no soft reset waiting. -/
theorem State.hostWrite_command {s : State} {r : Req} {key n v : Nat} {effect : Plant → Plant} (hkey : isCommand 0 key n = true)
    (hn : n ≤ 8) (hv : v < 256 ^ n) (h : s.plant.accepts r key (beBytes n v) = true)
    (ha : ∀ p : Plant, p.actCvc r.rid.toNat key v = (0, effect p))
    (hs : ∀ p : Plant, ((effect p).node .cvc).power = (p.node .cvc).power) :
    s.hostWrite r key v = { s with plant := s.plant.answered r key (beBytes n v) effect } := by
  simp only [isCommand, Bool.and_eq_true, beq_iff_eq, Bool.not_eq_true'] at hkey
  obtain ⟨⟨hsize, hwo⟩, hown⟩ := hkey
  refine State.hostWrite_act hsize hwo hn hv h (fun p => ?_) (fun p hp => ?_)
  · rw [Plant.act_cvc hown, ha]
  · rw [hs, hp]

end Sys2Proof.Machine
end

section
/-! PROOF. The cycle and the converter (02 R28, R29, R43, R45, R47). -/

namespace Sys2Proof.Machine

/-! ### The next S (R28, R29) -/

/-- A fold whose every step leaves the parts' records leaves them. -/
theorem Plant.foldl_nodes {α : Type} {g : Plant → α → Plant} (hg : ∀ p a, (g p a).nodes = p.nodes) (l : List α) (p : Plant) :
    (l.foldl g p).nodes = p.nodes := by
  induction l generalizing p with
  | nil => rfl
  | cons a l ih => rw [List.foldl_cons, ih, hg]

/-- Acquisition that records and stops leaves every part's record: it closes in the CVC's own. -/
theorem Plant.acqStopNow_nodes {p : Plant} (h : p.acqRecords = true) : p.acqStopNow.nodes = p.nodes := by
  unfold Plant.acqStopNow
  rw [if_pos h]
  refine Plant.foldl_nodes ?_ p.acqChans p
  exact fun _ _ => rfl

/-- Objects and schedules are part of the parts' records. -/
theorem Plant.node_of_nodes {p p' : Plant} (h : p'.nodes = p.nodes) (q : Part) : p'.node q = p.node q := by
  simp only [Plant.node, h]

theorem Plant.c_of_nodes {p p' : Plant} (h : p'.nodes = p.nodes) (key : Nat) : p'.c key = p.c key := by
  simp only [Plant.c, Plant.getN, Plant.get, Plant.node_of_nodes h]

/-- The plant at the next S, before a record that the change of Tc cuts is stopped. -/
theorem Plant.nextCycle_stops (p : Plant) : ∃ x : Plant, p.nextCycle.nodes = x.nodes ∧
    (x.node .cvc).sched.s = ((p.node .cvc).sched.s + (p.node .cvc).sched.tc) % 2 ^ 64 ∧
    (x.node .cvc).sched.k = ((p.node .cvc).sched.k + 1) % 2 ^ 64 ∧ x.c K.cycleSeq = (p.node .cvc).sched.k.succ % 256 := by
  unfold Plant.nextCycle
  extract_lets sc s due sc' moved held counted x
  have hs : sc'.s = (sc.s + sc.tc) % 2 ^ 64 := rfl
  have hk : sc'.k = (sc.k + 1) % 2 ^ 64 := rfl
  have hseq : sc'.k % 256 = sc.k.succ % 256 := by rw [hk]; omega
  have hmoved : (moved.node .cvc).sched.s = sc'.s ∧ (moved.node .cvc).sched.k = sc'.k := by
    simp only [moved, Plant.node_onNode_self]
    split <;> exact ⟨rfl, rfl⟩
  have hcounted : (counted.node .cvc).sched = (moved.node .cvc).sched ∧ counted.c K.cycleSeq = sc'.k % 256 := by
    refine ⟨?_, by rw [Plant.c_cPut_self]; exact Int.toNat_natCast _⟩
    simp only [counted, Plant.cPut, Plant.put_sched]
    rfl
  have hx : (x.node .cvc).sched = (moved.node .cvc).sched ∧ x.c K.cycleSeq = sc'.k % 256 := by
    simp only [x]
    split
    · refine ⟨?_, ?_⟩
      · rw [Plant.cPut, Plant.put_sched, hcounted.1]
      · rw [Plant.c_cPut, if_neg (by decide), hcounted.2]
    · exact hcounted
  refine ⟨x, ?_, ?_, ?_, ?_⟩
  · split
    · next h => exact Plant.acqStopNow_nodes h.2
    · rfl
  · rw [hx.1, hmoved.1, hs]
  · rw [hx.1, hmoved.2, hk]
  · rw [hx.2, hseq]

/-- CYCLE_BOUNDARY of a running cycle: S moves on, a package takes effect, and the boundary runs (02 R44, 04 R89). -/
theorem exec_cycleBoundary_runs {s t : State} (hup : s.plant.up .cvc = true) (hvalid : (s.plant.node .cvc).sched.valid = true)
    (ht : t = State.packageBoundary { s with plant := s.plant.nextCycle }) :
    exec .cycleBoundary s =
      .next (State.softAfter { t with plant := (t.plant.boundary.sendMirror t.mem).afterBoundary } .cvc) := by
  have hexec : exec .cycleBoundary s = execCycleBoundary s := rfl
  subst ht
  simp [hexec, execCycleBoundary, State.cycleBoundary, hup, hvalid]

/-- A write of conv.request that the owner's request passes waits for the boundary (R45). -/
theorem State.hostWrite_convRequest {s : State} {r : Req} {v : Nat} (hv : v < 256)
    (h : s.plant.accepts r K.convRequest (beBytes 1 v) = true) :
    s.hostWrite r K.convRequest v = { s with plant := s.plant.answered r K.convRequest (beBytes 1 v) (fun p => p.takeRequest v) } :=
  State.hostWrite_command (by decide) (by decide) hv h (fun _ => rfl) (fun _ => rfl)

end Sys2Proof.Machine

namespace Sys2Proof

open Sys2Proof.Machine

/-- Settles O2: the boundary by its parts, and each request by the write of conv.request that it is. -/
theorem converterCompletes : Obligations.ConverterCompletes := by
  unfold Obligations.ConverterCompletes
  refine ⟨?boundary, ?timeout, fun r s h => ?charge, fun r s h => ?deblock, fun r s h => ?block, fun r s h => ?stop,
    fun r s h => ?resetTrip⟩
  case boundary =>
    intro s hup hvalid
    obtain ⟨x, hnodes, hs, hk, hseq⟩ := s.plant.nextCycle_stops
    refine ⟨_, _, rfl, ?_, ?_, ?_, rfl, exec_cycleBoundary_runs hup hvalid rfl⟩
    · rw [Plant.node_of_nodes hnodes, hs]
    · rw [Plant.node_of_nodes hnodes, hk]
    · rw [Plant.c_of_nodes hnodes, hseq]
  case timeout =>
    intro s hup hconv
    have hexec : exec .chargeTimeout s = execChargeTimeout s := rfl
    rw [hexec, execChargeTimeout, State.onUp_up _ hup, if_pos hconv]
  case charge => exact congrArg _ (State.hostWrite_convRequest (v := 1) (by decide) h)
  case deblock => exact congrArg _ (State.hostWrite_convRequest (v := 2) (by decide) h)
  case block => exact congrArg _ (State.hostWrite_convRequest (v := 3) (by decide) h)
  case stop => exact congrArg _ (State.hostWrite_convRequest (v := 4) (by decide) h)
  case resetTrip => exact congrArg _ (State.hostWrite_convRequest (v := 5) (by decide) h)

end Sys2Proof
end

section
/-! PROOF. The Harp, the arm loops and injections (03 R54–R74; 04 R79–R99): their own commands by the branch of the definition that the
premises take, and the owner's requests by the write of a command object that each is. -/

namespace Sys2Proof.Machine

/-! ### Command objects of an arm (03 R73, R74; 04 R88, R98) -/

theorem Plant.actCvc_loopApply (p : Plant) (rid v : Nat) (a : Arm) :
    p.actCvc rid (K.loopApply + a.val) v = (0, p.acceptApply (0x2500 + a.val) v) := by
  fin_cases a <;> rfl

theorem Plant.actCvc_harpApply (p : Plant) (rid v : Nat) (side : Fin 2) :
    p.actCvc rid (K.harpApplyA + side.val) v = (0, p.acceptApply (0x2410 + side.val) 1) := by
  fin_cases side <;> rfl

theorem Plant.actCvc_harpFlagsClear (p : Plant) (rid v : Nat) (a : Arm) :
    p.actCvc rid (K.harpFlagsClear + a.val) v = (0, p.clearBits (K.harpFlags + a.val) v) := by
  fin_cases a <;> rfl

theorem Plant.actCvc_loopFlagsClear (p : Plant) (rid v : Nat) (a : Arm) :
    p.actCvc rid (K.loopFlagsClear + a.val) v = (0, p.clearBits (K.loopFlags + a.val) v) := by
  fin_cases a <;> rfl

theorem isCommand_loopApply : ∀ a : Arm, isCommand 0 (K.loopApply + a.val) 1 = true := by decide

theorem isCommand_harpApply : ∀ side : Fin 2, isCommand 0 (K.harpApplyA + side.val) 1 = true := by decide

theorem isCommand_harpFlagsClear : ∀ a : Arm, isCommand 0 (K.harpFlagsClear + a.val) 2 = true := by decide

theorem isCommand_loopFlagsClear : ∀ a : Arm, isCommand 0 (K.loopFlagsClear + a.val) 2 = true := by decide

/-- Clearing the bits of a 16-bit word. -/
theorem Plant.clearBits_word (p : Plant) (key : Nat) (m : BitVec 16) :
    p.clearBits key m.toNat = p.cPut key ((p.c key &&& (0xFFFF ^^^ m.toNat) : Nat) : Int) := by
  rw [Plant.clearBits, Nat.mod_eq_of_lt m.isLt]

/-- An owner's request to apply an arm's loop parameters (R88). -/
theorem State.hostWrite_loopApply {s : State} {r : Req} {a : Arm} {v : Nat} (hv : v < 256)
    (h : s.plant.accepts r (K.loopApply + a.val) (beBytes 1 v) = true) :
    s.hostWrite r (K.loopApply + a.val) v = { s with
      plant := s.plant.answered r (K.loopApply + a.val) (beBytes 1 v) (fun p => p.acceptApply (0x2500 + a.val) v) } :=
  State.hostWrite_command (isCommand_loopApply a) (by decide) hv h (fun p => p.actCvc_loopApply _ v a) (fun _ => rfl)

end Sys2Proof.Machine

namespace Sys2Proof

open Sys2Proof.Machine

/-- Settles O3, each command by the branch that its premises take. -/
theorem loopRunsComplete : Obligations.LoopRunsComplete := by
  unfold Obligations.LoopRunsComplete
  refine ⟨fun s hup hvalid hk => ?launch, fun a s o hup hready hout => ?complete, fun a s hup hready hout => ?formed,
    fun a s i hup hruns hk hi => ?run, fun a s hup hwait => ?output, fun a s hup hruns hk hnone halt => ?skip,
    fun a s i hup hruns hk hnone halt => ?alternate⟩
  case launch =>
    have hexec : exec .harpLaunch s = execHarpLaunch s := rfl
    have hk' := Nat.not_lt.2 hk
    simp [hexec, execHarpLaunch, hup, hvalid, hk']
  case complete =>
    have hexec : exec (.harpComplete a) s = execHarpComplete a s := rfl
    rw [hexec, execHarpComplete, State.onUp_up _ hup]
    simp [hready, hout]
  case formed =>
    have hexec : exec (.harpComplete a) s = execHarpComplete a s := rfl
    rw [hexec, execHarpComplete, State.onUp_up _ hup]
    simp [hready, hout]
  case run =>
    have hexec : exec (.armLoopLaunch a) s = execArmLoopLaunch a s := rfl
    rw [hexec, execArmLoopLaunch, State.onUp_up _ hup]
    simp [hruns, Nat.not_lt.2 hk, hi]
  case output =>
    have hexec : exec (.armLoopOutput a) s = execArmLoopOutput a s := rfl
    rw [hexec, execArmLoopOutput, State.onUp_up _ hup]
    simp [hwait]
  case skip =>
    have hexec : exec (.loopSkip a) s = execLoopSkip a s := rfl
    rw [hexec, execLoopSkip, State.onUp_up _ hup]
    simp [hruns, Nat.not_lt.2 hk, hnone, halt, Plant.loopSkip]
  case alternate =>
    have hexec : exec (.loopSkip a) s = execLoopSkip a s := rfl
    rw [hexec, execLoopSkip, State.onUp_up _ hup]
    simp [hruns, Nat.not_lt.2 hk, hnone, halt]

/-- Settles O4: each request is a write of a command object of one arm or side. -/
theorem loopWritesComplete : Obligations.LoopWritesComplete := by
  unfold Obligations.LoopWritesComplete
  refine ⟨fun r a s h => congrArg _ (State.hostWrite_loopApply (by decide) h),
    fun r a s h => congrArg _ (State.hostWrite_loopApply (by decide) h),
    fun r a s h => congrArg _ (State.hostWrite_loopApply (by decide) h), fun r side s h => ?harpApply, fun r a m s h => ?harpClear,
    fun r a m s h => ?loopClear⟩
  case harpApply =>
    exact congrArg _ (State.hostWrite_command (isCommand_harpApply side) (by decide) (by decide) h
      (fun p => p.actCvc_harpApply _ 1 side) (fun _ => rfl))
  case harpClear =>
    refine congrArg _ (State.hostWrite_command (isCommand_harpFlagsClear a) (by decide) m.isLt h (fun p => ?_) (fun p => ?_))
    · rw [Plant.actCvc_harpFlagsClear, Plant.clearBits_word]
    · rw [Plant.cPut_power]
  case loopClear =>
    refine congrArg _ (State.hostWrite_command (isCommand_loopFlagsClear a) (by decide) m.isLt h (fun p => ?_) (fun p => ?_))
    · rw [Plant.actCvc_loopFlagsClear, Plant.clearBits_word]
    · rw [Plant.cPut_power]

/-- Settles O5: the owner's two requests by the write of inj_ctrl that each is, the steps by their branch. -/
theorem injectionCompletes : Obligations.InjectionCompletes := by
  unfold Obligations.InjectionCompletes
  refine ⟨fun r s h => ?start, fun r s h => ?stop, fun s j hup hrun hkind hlen hj hsteps => ?step, fun s hup hrun hlen hcyc => ?expiry⟩
  case start =>
    refine congrArg _ (State.hostWrite_command (by decide) (by decide) (by decide) h (fun p => rfl) (fun p => ?_))
    exact Plant.cPut_power ..
  case stop =>
    refine congrArg _ (State.hostWrite_command (by decide) (by decide) (by decide) h (fun p => rfl) (fun p => ?_))
    show (ite _ (p.onCvc _) p |>.node .cvc).power = _
    split <;> rfl
  case step =>
    subst hj
    have hexec : exec .injStep s = execInjStep s := rfl
    rw [hexec, execInjStep, State.onUp_up _ hup]
    simp only [hrun, hkind, hlen, hsteps, and_self, if_true]
  case expiry =>
    have hexec : exec .injEnd s = execInjEnd s := rfl
    rw [hexec, execInjEnd, State.onUp_up _ hup, if_pos ⟨hrun, hlen, hcyc⟩]

end Sys2Proof
end

section
/-! PROOF. Engines and items of the Vat (05 R103–R131): an instruction of an engine that holds an item acts, and each clause is the branch of
the instruction's definition that its premises take. -/

namespace Sys2Proof.Machine

/-! ### A slot's words (05 R107) -/

/-- A change of a slot that leaves its ctrl word leaves every slot's. -/
theorem Plant.ctrlOf_onSlot (p : Plant) (m n : Nat) {f : SlotState → SlotState} (hf : ∀ x, (f x).ctrl = x.ctrl) :
    (p.onSlot m f).ctrlOf n = p.ctrlOf n := by
  have hslot : ((p.onSlot m f).slot n).ctrl = (p.slot n).ctrl := by
    simp only [Plant.slot, Plant.onSlot, Plant.onCvc]
    by_cases hn : n = m
    · subst hn
      rw [Tab.get_upd_self, hf]
    · rw [Tab.get_upd_other _ _ _ hn]
  simp only [Plant.ctrlOf, hslot]

@[simp] theorem Plant.ctrlOf_bump (p : Plant) (q : Part) (key k n : Nat) : (p.bump q key k).ctrlOf n = p.ctrlOf n := rfl

/-! ### Instructions of an engine with an item -/

theorem Plant.engRuns_of_item {p : Plant} {e : Eng} {it : Item} (h : (p.eng e).item = some it) : p.engRuns e = true := by
  rw [Plant.engRuns, h]
  rfl

/-- A deposit of a running item, with its bit of hxflags (R118). -/
theorem Plant.put_item {p : Plant} {e : Eng} {it : Item} (h : (p.eng e).item = some it) {rs1 rs2 : Nat} {d : Nat × Plant}
    (hd : d = p.deposit (some it) 0 (bits (p.xReg e rs1) 15 4) (bits (p.xReg e rs1) 2 0) (bits (p.xReg e rs1) 31 16) (p.xReg e rs2)) :
    p.put_ e rs1 rs2 = (d.1, if d.1 = 0 then d.2 else d.2.setHx e (if d.1 = 1 then 32 else 16)) := by
  subst hd
  simp only [Plant.put_, h]

/-- An item of the present epoch of a cyclic slot that is done (R122). -/
theorem Plant.itemDone_cyclic {p x : Plant} {e : Eng} {it : Item} (hx : x = (p.noteLate it).engIdle e) (hepoch : x.epochOf it.slot = it.epoch)
    (hcyclic : ctrlCyclic (x.ctrlOf it.slot) = true) (code hx' : Nat) :
    p.itemDone e it code hx' = ((x.onSlot it.slot (fun s => { s with
      flags := s.flags ||| hx', code := code, runs := min (s.runs + 1) (2 ^ 32 - 1) })).bump .cvc (K.engItems + e.val) 1).onInst it.slot it.inst
        (fun y => { y with st := .done }) := by
  have hcyclic' : ctrlCyclic (((x.onSlot it.slot (fun s => { s with
      flags := s.flags ||| hx', code := code, runs := min (s.runs + 1) (2 ^ 32 - 1) })).bump .cvc (K.engItems + e.val) 1).ctrlOf it.slot) =
        true := by
    rw [Plant.ctrlOf_bump, Plant.ctrlOf_onSlot, hcyclic]
    exact fun _ => rfl
  subst hx
  unfold Plant.itemDone
  dsimp only
  rw [if_neg (not_not_intro hepoch), if_pos hcyclic']

/-! ### One RISC-V instruction (R102, R103) -/

theorem exec_rv_runs {e : Eng} {s : State} (hup : s.plant.up .cvc = true) (hr : s.plant.engRuns e = true) :
    exec (.rv32imafcInstruction e) s = .next (s.rvStep e) := by
  have hexec : exec (.rv32imafcInstruction e) s = execRv32imafcInstruction e s := rfl
  rw [hexec, execRv32imafcInstruction, if_pos ⟨hup, hr⟩]

/-- A word of the opcode OP-IMM with funct3 0 adds its immediate. -/
theorem State.rvRun_addi {s : State} {e : Eng} {w len : Nat} (hop : w % 128 = 0x13) (hf3 : fF3 w = 0) :
    s.rvRun e w len =
      .done { s with plant := (s.plant.setX e (fRd w) ((s.plant.xReg e (fRs1 w) + unsigned 32 (immI w)) % 2 ^ 32)).nextPc e len } := by
  unfold State.rvRun
  rw [hop]
  show s.rvOpImm e w len = _
  simp [State.rvOpImm, hf3, State.rvWb, State.withPlant, rvAlu, two32]

/-- A clean cut-off tag is made present once in a cycle (R114). -/
theorem Plant.reportsPresent_again {p : Plant} {n t k : Nat} (h : k < Tab.get (fun _ => 0) (p.slot n).tagDone t) : p.reportsPresent n t k = p :=
  if_pos h

/-- A package that an owner writes is staged (R127). -/
theorem Plant.applyWrite_package (p : Plant) (rid : Nat) (bs : List Nat) :
    p.applyWrite .cvc rid K.engPackage bs =
      (0, p.onCvc (fun c => { c with package := { c.package with staged := bs, verified := false } })) := by
  rw [Plant.applyWrite_bytes (by decide)]
  rfl

end Sys2Proof.Machine

namespace Sys2Proof

open Sys2Proof.Machine

/-- Settles O6: the four instructions share one way to write a result, which each gives its own exact value and bit. -/
theorem engineArithmeticCompletes : Obligations.EngineArithmeticCompletes := by
  unfold Obligations.EngineArithmeticCompletes
  refine ⟨fun e rd rs1 rs2 s hup hr => ?padd, fun e rd rs1 rs2 s hup hr => ?psub, fun e rd rs1 rs2 s hup hr => ?pmul,
    fun e rd rs1 rs2 s hup hr => ?pmac⟩
  case padd => exact State.onEngine_runs (fun p => p.padd e rd.val rs1.val rs2.val) hup hr
  case psub => exact State.onEngine_runs (fun p => p.psub e rd.val rs1.val rs2.val) hup hr
  case pmul => exact State.onEngine_runs (fun p => p.pmul e rd.val rs1.val rs2.val) hup hr
  case pmac => exact State.onEngine_runs (fun p => p.pmac e rd.val rs1.val rs2.val) hup hr

/-- Settles O7, each instruction by what it does for the item that runs. -/
theorem engineVatCompletes : Obligations.EngineVatCompletes := by
  unfold Obligations.EngineVatCompletes
  refine ⟨fun e rd rs1 rs2 s it d hup hi hd => ?vput, fun e rs1 rs2 s it d hup hi hd => ?vputp, fun e rd rs1 s it hup hi ht => ?vget,
    fun e rd rs1 rs2 s hup hr => ?vqry, fun e rd rs1 s hup hr => ?vstat, fun e rs1 s it p hup hi hp hepoch hcyclic => ?vdone,
    fun e rd s hup hr => ?tnow, fun e rd s hup hr => ?tnowh, fun e rd s it hup hi => ?tsamp, fun e rd s it hup hi => ?tleft,
    fun e rd s it hup hi => ?tcyc⟩
  case vput =>
    have hexec : exec (.vput e rd rs1 rs2) s = s.onEngine e (fun p => p.vput e rd.val rs1.val rs2.val) := rfl
    rw [hexec, State.onEngine_runs _ hup (Plant.engRuns_of_item hi), Plant.vput, Plant.put_item hi hd]
  case vputp =>
    have hexec : exec (.vputp e rs1 rs2) s = s.onEngine e (fun p => p.vputp e rs1.val rs2.val) := rfl
    rw [hexec, State.onEngine_runs _ hup (Plant.engRuns_of_item hi), Plant.vputp, Plant.put_item hi hd]
  case vget =>
    have hexec : exec (.vget e rd rs1) s = s.onEngine e (fun p => p.vget e rd.val rs1.val) := rfl
    rw [hexec, State.onEngine_runs _ hup (Plant.engRuns_of_item hi), Plant.vget_of_tag hi ht]
  case vqry => exact State.onEngine_runs (fun p => p.vqry e rd.val rs1.val rs2.val) hup hr
  case vstat => exact State.onEngine_runs (fun p => p.vstat e rd.val rs1.val) hup hr
  case vdone =>
    have hexec : exec (.vdone e rs1) s = s.onEngine e (fun p => p.vdone e rs1.val) := rfl
    rw [hexec, State.onEngine_runs _ hup (Plant.engRuns_of_item hi), Plant.vdone, hi]
    exact congrArg (fun x => Host.Outcome.next { s with plant := x }) (Plant.itemDone_cyclic hp hepoch hcyclic ..)
  case tnow => exact State.onEngine_runs (fun p => p.tnow e rd.val) hup hr
  case tnowh => exact State.onEngine_runs (fun p => p.tnowh e rd.val) hup hr
  case tsamp =>
    have hexec : exec (.tsamp e rd) s = s.onEngine e (fun p => p.tsamp e rd.val) := rfl
    rw [hexec, State.onEngine_runs _ hup (Plant.engRuns_of_item hi), Plant.tsamp, Plant.itemS, hi]
  case tleft =>
    have hexec : exec (.tleft e rd) s = s.onEngine e (fun p => p.tleft e rd.val) := rfl
    rw [hexec, State.onEngine_runs _ hup (Plant.engRuns_of_item hi), Plant.tleft, Plant.leftNs, hi]
    dsimp only
    rw [apply_ite (unsigned 32)]
    rfl
  case tcyc =>
    have hexec : exec (.tcyc e rd) s = s.onEngine e (fun p => p.tcyc e rd.val) := rfl
    rw [hexec, State.onEngine_runs _ hup (Plant.engRuns_of_item hi), Plant.tcyc, Plant.itemK, hi]

/-- Settles O8: one step by what the fetch and the word give. -/
theorem riscvCompletes : Obligations.RiscvCompletes := by
  unfold Obligations.RiscvCompletes
  refine ⟨fun e s w len t hup hr hfetch hrun => ?runs, fun e s w len hup hr hfetch hop hf3 => ?addi,
    fun e s w len c hup hr hfetch hrun hstore => ?trap, fun e s c hup hr hfetch => ?unfetched⟩
  case runs =>
    rw [exec_rv_runs hup hr]
    simp only [State.rvStep, hfetch, hrun]
  case addi =>
    rw [exec_rv_runs hup hr]
    simp only [State.rvStep, hfetch, State.rvRun_addi hop hf3]
  case trap =>
    rw [exec_rv_runs hup hr]
    simp only [State.rvStep, hfetch, hrun, State.withPlant, hstore, Bool.false_eq_true, if_false]
  case unfetched =>
    rw [exec_rv_runs hup hr]
    simp only [State.rvStep, hfetch, State.withPlant]

/-- Settles O9, each command by the branch that its premises take. -/
theorem itemsComplete : Obligations.ItemsComplete := by
  unfold Obligations.ItemsComplete
  refine ⟨fun e cause s hup => ?exception, fun e s hup => ?corrected, fun e s hup => ?storage, fun e s hup => ?limit, ?dispatch,
    fun e s it m hup hidle hsaved hcrit hm => ?resume,
    fun slot tag s w hup hw hkind hen ht => ?timer, fun slot tag s w hup hw hkind hparam hen ht hdone => ?cutoff,
    fun slot tag s hup hdone => ?again, fun ch s hup => ?bitstream⟩
  case exception =>
    have hexec : exec (.itemException e (.trap cause)) s = execItemException e (.trap cause) s := rfl
    rw [hexec, execItemException, State.onUp_up _ hup]
  case corrected =>
    have hexec : exec (.itemException e .corrected) s = execItemException e .corrected s := rfl
    rw [hexec, execItemException, State.onUp_up _ hup]
  case storage =>
    have hexec : exec (.itemException e .vatStorage) s = execItemException e .vatStorage s := rfl
    rw [hexec, execItemException, State.onUp_up _ hup]
  case limit =>
    have hexec : exec (.itemLimit e) s = execItemLimit e s := rfl
    rw [hexec, execItemLimit, State.onUp_up _ hup]
  case bitstream =>
    have hexec : exec (.bitstreamTag ch) s = execBitstreamTag ch s := rfl
    rw [hexec, execBitstreamTag, State.onUp_up _ hup]
  case dispatch =>
    intro slot inst e s c x it r hup hslot hc hen hcritical hcyclic hfault hon hx hready hidle hgroup hit hr
    have hexec : exec (.itemDispatch slot inst e) s = execItemDispatch slot inst e s := rfl
    subst hc hx hit hr
    have htake : s.plant.mayTake e (ctrlGroups (s.plant.ctrlOf slot.toNat)) true = true := by
      simp [Plant.mayTake, hgroup, hidle]
    rw [hexec, execItemDispatch, State.onUp_up _ hup]
    simp [hen, hcritical, hcyclic, hfault, hon, hready, hidle, htake, Nat.not_le.2 hslot, Plant.itemCycle]
  case resume =>
    have hexec : exec (.itemResume e) s = execItemResume e s := rfl
    subst hm
    rw [hexec, execItemResume, State.onUp_up _ hup]
    simp [hidle, hsaved, hcrit]
  case timer =>
    have hexec : exec (.timerTag slot tag) s = execTimerTag slot tag s := rfl
    subst hw
    rw [hexec, execTimerTag, State.onUp_up _ hup]
    simp only [hkind, hen, ht, and_self, if_true]
  case cutoff =>
    have hexec : exec (.reportsCutoff slot tag) s = execReportsCutoff slot tag s := rfl
    subst hw
    rw [hexec, execReportsCutoff, State.onUp_up _ hup]
    dsimp only
    rw [if_pos ⟨hen, ht, hkind, hparam⟩, Plant.reportsPresent, if_neg (Nat.not_lt.2 hdone)]
  case again =>
    have hexec : exec (.reportsCutoff slot tag) s = execReportsCutoff slot tag s := rfl
    rw [hexec, execReportsCutoff, State.onUp_up _ hup]
    dsimp only
    rw [Plant.reportsPresent_again hdone, ite_self]

/-- Settles O10: each request is a write of a command object of the CVC, and a package is a value of a DOMAIN that is staged. -/
theorem vatWritesComplete : Obligations.VatWritesComplete := by
  unfold Obligations.VatWritesComplete
  refine ⟨fun r v s h => ?move, fun r v s h => ?rearm, fun r v s h => ?clear, fun r bytes s h => ?package⟩
  case move =>
    have hv : v.toNat < 256 ^ 4 := by have := v.isLt; omega
    exact congrArg _ (State.hostWrite_command (by decide) (by decide) hv h (fun _ => rfl) (fun _ => rfl))
  case rearm =>
    exact congrArg _ (State.hostWrite_command (n := 2) (by decide) (by decide) v.isLt h (fun _ => rfl) (fun _ => rfl))
  case clear =>
    exact congrArg _ (State.hostWrite_command (n := 2) (by decide) (by decide) v.isLt h (fun _ => rfl) (fun _ => rfl))
  case package =>
    refine congrArg Host.Outcome.next (State.hostBytes_answered (by decide) h ?_ ?_)
    · exact Plant.applyWrite_package ..
    · exact fun _ hp => hp

end Sys2Proof
end

section
/-! PROOF. A cell's switching, samples and inputs (06 R133–R152, R162). A service WRITE of a command object that the cell alone holds acts
through `Plant.actCell`; the others are the branch of the command's definition that the premises take. -/

namespace Sys2Proof.Machine

/-! ### Objects that a write does not touch -/

theorem Plant.get_put_other {key k : Nat} (h : k ≠ key) (p : Plant) (q r : Part) (v : Int) : (p.put q key v).get r k = p.get r k := by
  rw [Plant.get_put, if_neg (fun hk => h hk.2)]

theorem Plant.getN_put_other {key k : Nat} (h : k ≠ key) (p : Plant) (q r : Part) (v : Int) : (p.put q key v).getN r k = p.getN r k := by
  rw [Plant.getN, Plant.get_put_other h, Plant.getN]

theorem Plant.getN_bump_other {key k : Nat} (h : k ≠ key) (p : Plant) (q r : Part) (n : Nat) : (p.bump q key n).getN r k = p.getN r k := by
  rw [Plant.bump, Plant.getN_put_other h]

/-! ### Service writes of a cell's command objects -/

/-- A service WRITE of a write-only number of a cell alone acts, and leaves no soft reset waiting. -/
theorem State.rowWrite_command {s : State} {c : CellId} {key n v : Nat} {p : Plant} (hkey : isCommand 2 key n = true) (hn : n ≤ 8)
    (hv : v < 256 ^ n) (h : s.plant.acceptsAt (.cell c) key (beBytes n v) = true) (ha : s.plant.actCell c key v = p)
    (hs : (p.node (.cell c)).power = (s.plant.node (.cell c)).power) :
    s.rowWrite (.service (.cell c)) key v = { s with plant := p } := by
  simp only [isCommand, Bool.and_eq_true, beq_iff_eq, Bool.not_eq_true'] at hkey
  obtain ⟨⟨hsize, hwo⟩, hown⟩ := hkey
  refine State.rowWrite_service (q := .cell c) hsize h ?_ ?_
  · rw [Plant.applyWrite_wo (q := .cell c) hwo, rawVal_beBytes hn hv, Plant.act_cell hown, ha]
  · rw [hs, Plant.acceptsAt_soft h]

theorem Plant.endAcked_power (p : Plant) (q r : Part) : ((p.endAcked q).node r).power = (p.node r).power :=
  ((Plant.Quiet.refl p).endAcked).power r

/-! ### Apply instants (02 R39–R41) -/

/-- APPLY_INSTANT without a command for the instant counts a miss, and outside bench mode holds (02 R40). -/
theorem Plant.applyNone_counts {p : Plant} {c : CellId} (h : p.getN (.cell c) K.swBench = 0) :
    p.applyNone c = (p.bump (.cell c) K.cycleMissed 1).onCell c (fun e => { e with missRun := e.missRun + 1, hold := true }) := by
  have hbench : ((p.bump (.cell c) K.cycleMissed 1).onCell c (fun e => { e with missRun := e.missRun + 1, hold := true })).getN
      (.cell c) K.swBench = 0 := by
    rw [Plant.onCell_getN, Plant.getN_bump_other (by decide), h]
  unfold Plant.applyNone
  dsimp only
  rw [hbench, if_pos (by simp)]

/-- Outside bench mode there is nothing to leave. -/
theorem Plant.leaveBench_off {p : Plant} {c : CellId} (h : p.getN (.cell c) K.swBench = 0) : p.leaveBench c = p := by
  simp [Plant.leaveBench, h]

/-- The loss action's mark leaves what holds a cell's outputs low. -/
theorem Plant.inLoss_fired (p : Plant) (c : CellId) (v : Int) : (p.put (.cell c) K.cycleInLoss v).fired c = p.fired c := by
  rw [Plant.fired, Plant.getN_put_other (by decide), Plant.fired]

theorem Plant.inLoss_htHeld (p : Plant) (c : CellId) (v : Int) : (p.put (.cell c) K.cycleInLoss v).htHeld c = p.htHeld c := by
  rw [Plant.htHeld, Plant.getN_put_other (by decide), Plant.getN_put_other (by decide), Plant.htHeld]

@[simp] theorem Plant.cellUv_onCell (p : Plant) (c d : CellId) (f : Cell → Cell) : (p.onCell d f).cellUv c = p.cellUv c := rfl

end Sys2Proof.Machine

namespace Sys2Proof

open Sys2Proof.Machine

/-- Settles O11, each command by the branch that its premises take. -/
theorem cellSwitchingCompletes : Obligations.CellSwitchingCompletes := by
  unfold Obligations.CellSwitchingCompletes
  refine ⟨?applied, fun c s hup hlocked hactive hbench hnone => ?missed, fun c s hup hlocked hactive hbench => ?unlocked,
    fun c s hup hmiss hactive hlow hbench => ?lossLow, fun c s hup hmiss hactive hfired hht htrip hbench => ?loss,
    fun c n s hwait => ?gates, fun c s hup htrim harmed hprd hout hload => ?valley, ?rise, fun c s hup htrim hin hext hnext => ?fall⟩
  case applied =>
    intro c f s hup hlocked hactive hfired hht htrip hbench hfiled
    have htrip' : ((s.plant.instantCounted c).cell c).tripHold = false ∨ f.stale = false := by
      rwa [Plant.instantCounted_tripHold]
    rw [exec_applyInstant_valid hup hlocked hactive hfiled,
      Plant.applyValid_takesUp (p := s.plant.instantCounted c) _ hfired hht htrip' hbench]
    rfl
  case missed =>
    have hexec : exec (.applyInstant c) s = execApplyInstant c s := rfl
    rw [hexec, execApplyInstant, State.onUp_up _ hup]
    simp [hlocked, hactive, hnone, Plant.applyNone_counts, hbench]
  case unlocked =>
    have hexec : exec (.applyInstant c) s = execApplyInstant c s := rfl
    rw [hexec, execApplyInstant, State.onUp_up _ hup]
    simp [hlocked, hactive, Plant.applyNone_counts hbench]
  case lossLow =>
    have hexec : exec (.lossAction c) s = execLossAction c s := rfl
    rw [hexec, execLossAction, State.onUp_up _ hup]
    simp only [Nat.not_lt.2 hmiss, hactive, ne_eq, not_true_eq_false, or_self, if_false, Plant.leaveBench_off hbench,
      Plant.inLoss_fired, Plant.inLoss_htHeld, Plant.put_cell, if_pos hlow]
  case loss =>
    have hexec : exec (.lossAction c) s = execLossAction c s := rfl
    have haction : (s.plant.put (.cell c) K.cycleInLoss 1).getN (.cell c) K.cycleLossAction =
        s.plant.getN (.cell c) K.cycleLossAction := by
      rw [Plant.getN_put_other (by decide)]
    rw [hexec, execLossAction, State.onUp_up _ hup]
    simp [Nat.not_lt.2 hmiss, hactive, Plant.leaveBench_off hbench, Plant.inLoss_fired, Plant.inLoss_htHeld, hfired, hht, htrip, haction]
  case gates =>
    have hexec : exec (.gateTurnOn c n) s = execGateTurnOn c n s := rfl
    rw [hexec, execGateTurnOn, State.on_eq]
    dsimp only
    rw [if_pos hwait]
  case valley =>
    have hexec : exec (.pwmValley c) s = execPwmValley c s := rfl
    rw [hexec, execPwmValley, State.onUp_up _ hup]
    simp [htrim, hload, harmed, hprd, hout, Plant.loadRegs]
  case rise =>
    intro c s hup htrim hout hcmp hpulse
    have hexec : exec (.trimEdge c true) s = execTrimEdge c true s := rfl
    rw [hexec, execTrimEdge, State.onUp_up _ hup]
    simp [htrim, hout, hcmp, Int.not_lt.2 hpulse]
  case fall =>
    have hexec : exec (.trimEdge c false) s = execTrimEdge c false s := rfl
    have hcbp : (s.plant.pwmSet c).cbp = false := by simp [Plant.pwmSet, hext]
    rw [hexec, execTrimEdge, State.onUp_up _ hup]
    simp [htrim, hin, hcbp, hnext, fullInsert]

/-- Settles O12, each command by the branch that its premises take; FB_CLEAR is a service WRITE of its object. -/
theorem cellSamplesComplete : Obligations.CellSamplesComplete := by
  unfold Obligations.CellSamplesComplete
  refine ⟨fun c v i s hup hpwr => ?sample, fun c s hup hv0 hv1 hi0 hi1 hcode => ?adc, fun c n level s hup hfunc => ?input,
    fun c n s hup hused => ?window, fun c n s hup hcompared => ?mismatch, fun c m s h => ?clear⟩
  case sample =>
    have hexec : exec (.cellSample c v i) s = execCellSample c v i s := rfl
    rw [hexec, execCellSample, State.onUp_up _ hup, if_pos hpwr]
  case adc =>
    have hexec : exec (.adcComplete c) s = execAdcComplete c s := rfl
    have hvolts : ((s.plant.put (.cell c) K.adcVCode (s.plant.cell c).pendV).put (.cell c) K.adcICode (s.plant.cell c).pendI).cellUv c <
        50000000 := by
      simp (disch := decide) only [Plant.cellUv, Plant.get_put_other, Plant.getN_put_other, Plant.getN_put_self]
      exact hcode
    rw [hexec, execAdcComplete, State.onUp_up _ hup]
    dsimp only
    simp only [hv0, hv1, hi0, hi1, or_self, if_false, Plant.cellUv_onCell, Int.not_le.2 hvolts]
  case input =>
    have hexec : exec (.diChange c n level) s = execDiChange c n level s := rfl
    rw [hexec, execDiChange, State.onUp_up _ hup]
    dsimp only
    rw [Plant.getN_put_other (by decide), hfunc, Bool.and_false, if_neg Bool.false_ne_true]
  case window =>
    have hexec : exec (.fbWindowExpire c n) s = execFbWindowExpire c n s := rfl
    rw [hexec, execFbWindowExpire, State.onUp_up _ hup, if_pos hused]
  case mismatch =>
    have hexec : exec (.gfMismatch c n) s = execGfMismatch c n s := rfl
    rw [hexec, execGfMismatch, State.onUp_up _ hup]
    dsimp only
    rw [if_pos hcompared]
  case clear =>
    refine congrArg Host.Outcome.next (State.rowWrite_command (n := 1) (by decide) (by decide) m.isLt h ?_ ?_)
    · show s.plant.fbClear c m.toNat = _
      rw [Plant.fbClear, Nat.mod_eq_of_lt m.isLt]
    · rw [Plant.endAcked_power, Plant.put_power]

end Sys2Proof
end

section
/-! PROOF. Hard trips, the bypass and bench mode of a cell (06 R144, R145, R153–R161): commands by the branch that their premises take, and
service WRITEs by what their object does. -/

namespace Sys2Proof.Machine

/-! ### What stands through a trip (06 R153–R156) -/

theorem Plant.fired_put {key : Nat} (h : K.bypStatus ≠ key) (p : Plant) (c : CellId) (v : Int) :
    (p.put (.cell c) key v).fired c = p.fired c := by
  rw [Plant.fired, Plant.getN_put_other h, Plant.fired]

theorem Plant.latch_fired (p : Plant) (c : CellId) (v : Int) : (p.put (.cell c) K.tripLatch v).fired c = p.fired c :=
  Plant.fired_put (by decide) p c v

/-- A trip that is no trigger of the capture leaves the capture, whatever it holds low. -/
theorem Plant.tripLow_capEvent {p : Plant} {c : CellId} (h : p.getN (.cell c) K.capTrig ≠ 3) (v : Int) (st : Nat) :
    ((p.put (.cell c) K.tripLatch v).holdLow c st).capEvent c 3 = (p.put (.cell c) K.tripLatch v).holdLow c st := by
  refine Plant.capEvent_off _ _ _ ?_
  rwa [Plant.holdLow_getN _ _ _ _ (by decide) (by decide) (by decide), Plant.getN_put_other (by decide)]

/-! ### BYP_STAT (06 R158) -/

/-- Bit 0 set or cleared leaves bit 1. -/
theorem bitOf_one_setBit_zero (x : Nat) (b : Bool) : bitOf (setBit x 0 b) 1 = bitOf x 1 := by
  simp only [setBit, Nat.testBit_zero, pow_zero]
  split
  · rfl
  · next hx =>
    cases b
    · have : (x - 1) / 2 = x / 2 := by
        have : x % 2 = 1 := by simpa using hx
        omega
      simp [bitOf_eq_decide, this]
    · have : (x + 1) / 2 = x / 2 := by
        have : x % 2 ≠ 1 := by simpa using hx
        omega
      simp [bitOf_eq_decide, this]

/-- A change of the contact shown leaves whether the bypass has been fired. -/
theorem Plant.fired_shown (p : Plant) (c : CellId) (b : Bool) :
    (p.put (.cell c) K.bypStatus ((setBit (p.getN (.cell c) K.bypStatus) 0 b : Nat) : Int)).fired c = p.fired c := by
  rw [Plant.fired, Plant.getN_put_self, Int.toNat_natCast, bitOf_one_setBit_zero, Plant.fired]

theorem Plant.showStat_fired {p : Plant} {c : CellId} (h : p.fired c = true) :
    p.showStat c true = (p.put (.cell c) K.bypStatus ((setBit (p.getN (.cell c) K.bypStatus) 0 true : Nat) : Int)).onCell c
      (fun e => { e with confirmed := true }) := by
  simp [Plant.showStat, Plant.fired_shown, h]

theorem Plant.showStat_unfired {p : Plant} {c : CellId} (h : p.fired c = false) :
    p.showStat c true = (p.put (.cell c) K.bypStatus ((setBit (p.getN (.cell c) K.bypStatus) 0 true : Nat) : Int)).fire c 4 := by
  simp [Plant.showStat, Plant.fired_shown, h]

@[simp] theorem Plant.fired_onCell (p : Plant) (c d : CellId) (f : Cell → Cell) : (p.onCell d f).fired c = p.fired c := rfl

/-! ### Bench mode (06 R161) -/

theorem swBench_size : (rowOf 2 K.swBench).map (fun row => row.ty.size) = some 1 := by decide

theorem swBench_written : (rowOf 2 K.swBench).any (fun r => !r.isBlob && r.acc != .wo && r.acc != .rwc && r.ty == .u8) = true := by decide

/-! ### The carrier's shadow registers (06 R144, R145) -/

@[simp] theorem Plant.showPending_cell (p : Plant) (c d : CellId) : (p.showPending c).cell d = p.cell d := rfl

@[simp] theorem Plant.showPending_tick (p : Plant) (c : CellId) : (p.showPending c).tick = p.tick := rfl

theorem Plant.insertOff_power (p : Plant) (c : CellId) (r : Part) : ((p.insertOff c).node r).power = (p.node r).power := by
  simp [Plant.insertOff, Plant.aimGates, Plant.setGates_node]

theorem Plant.valleyGap_power (p : Plant) (c : CellId) (prd cmp j : Nat) (r : Part) :
    ((p.valleyGap c prd cmp j).node r).power = (p.node r).power := by
  unfold Plant.valleyGap
  dsimp only
  split_ifs
  · exact Plant.insertOff_power ..
  · rfl
  · exact Plant.bump_power ..
  · exact Plant.insertOff_power ..

theorem Plant.loadRegs_power (p : Plant) (c : CellId) (r : Part) : ((p.loadRegs c).node r).power = (p.node r).power := by
  unfold Plant.loadRegs
  extract_lets q e prd cmp p1 p2 p3
  have h3 : (p3.node r).power = (p.node r).power := by
    simp only [p3, p2, p1, Plant.showPending_power, Plant.onCell_node, Plant.put_power, apply_ite (fun x : Plant => (x.node r).power),
      ite_self]
  split
  · rw [Plant.valleyGap_power, h3]
  · exact h3

end Sys2Proof.Machine

namespace Sys2Proof

open Sys2Proof.Machine

/-- Settles O13, each command by the branch that its premises take. -/
theorem cellProtectionCompletes : Obligations.CellProtectionCompletes := by
  unfold Obligations.CellProtectionCompletes
  refine ⟨?trip, ?tripFires, fun c n s hup hdiff => ?disagree, fun c n s => rfl, fun c m s h => ?clear, fun c s hwait => ?delay,
    fun c v s h => ?fire, fun c s hfired => ?closedFired, fun c s hfired => ?closed, fun c s => rfl, fun c s hfired hconf hleft => ?again,
    fun c s hfired hconf hleft => ?failed, fun c v s h => ?unfire⟩
  case trip =>
    intro c n s hup hen hblank hlatch hfire hcount hfired hcap
    have hexec : exec (.htTrip c n true false) s = execHtTrip c n true false s := rfl
    rw [hexec, execHtTrip, State.onUp_up _ hup]
    simp [hen, hblank, hlatch, hfire, hcount, hfired, Plant.latch_fired, Plant.tripLow_capEvent hcap]
  case tripFires =>
    intro c n s hup hen hblank hlatch hfire hcount hwait hdelay hfired hcap
    have hexec : exec (.htTrip c n true false) s = execHtTrip c n true false s := rfl
    rw [hexec, execHtTrip, State.onUp_up _ hup]
    simp [hen, hblank, hlatch, hfire, hcount, hfired, hwait, hdelay, Plant.latch_fired, Plant.tripLow_capEvent hcap]
  case disagree =>
    have hexec : exec (.pathDisagree c n) s = execPathDisagree c n s := rfl
    rw [hexec, execPathDisagree, State.onUp_up _ hup]
    dsimp only
    rw [if_pos (bne_iff_ne.2 hdiff)]
  case clear =>
    refine congrArg Host.Outcome.next (State.rowWrite_command (n := 1) (by decide) (by decide) m.isLt h rfl ?_)
    rw [Plant.endAcked_power, Plant.onCell_node, Plant.put_power]
  case delay =>
    have hexec : exec (.fireDelayExpire c) s = execFireDelayExpire c s := rfl
    rw [hexec, execFireDelayExpire, State.on_eq, if_pos hwait]
  case fire =>
    exact congrArg Host.Outcome.next (State.rowWrite_command (n := 2) (by decide) (by decide) v.isLt h rfl (Plant.fire_power ..))
  case closedFired =>
    have hexec : exec (.bypStatClosed c) s = execBypStatClosed c s := rfl
    rw [hexec, execBypStatClosed, State.on_eq]
    dsimp only
    rw [Plant.showStat_fired (by rw [Plant.fired_onCell, hfired]), Plant.onCell_getN]
  case closed =>
    have hexec : exec (.bypStatClosed c) s = execBypStatClosed c s := rfl
    rw [hexec, execBypStatClosed, State.on_eq]
    dsimp only
    rw [Plant.showStat_unfired (by rw [Plant.fired_onCell, hfired]), Plant.onCell_getN]
  case again =>
    have hexec : exec (.bypConfirmTimeout c) s = execBypConfirmTimeout c s := rfl
    rw [hexec, execBypConfirmTimeout, State.on_eq]
    simp [hfired, hconf, hleft]
  case failed =>
    have hexec : exec (.bypConfirmTimeout c) s = execBypConfirmTimeout c s := rfl
    rw [hexec, execBypConfirmTimeout, State.on_eq]
    simp [hfired, hconf, hleft]
  case unfire =>
    refine congrArg Host.Outcome.next (State.rowWrite_command (n := 2) (by decide) (by decide) v.isLt h rfl ?_)
    rw [Plant.endAcked_power, Plant.setPlain_power, Plant.put_power]

/-- Settles O14: BENCH is a write of a readable object, and the carrier's writes are of command objects. -/
theorem benchCompletes : Obligations.BenchCompletes := by
  unfold Obligations.BenchCompletes
  refine ⟨fun c s h => ?enter, fun c s h hbench hfired => ?leave, fun c v s h hload => ?prdLoad, fun c v s h hload => ?prd,
    fun c v s h hpoint => ?cmpLoad, fun c v s h hpoint => ?cmp⟩
  case enter =>
    refine congrArg Host.Outcome.next (State.rowWrite_service (q := .cell c) (n := 1) swBench_size h ?_ ?_)
    · rw [Plant.applyWrite_put (q := .cell c) (ty := .u8) swBench_written]
      rfl
    · rw [Plant.put_power, Plant.acceptsAt_soft h]
  case leave =>
    refine congrArg Host.Outcome.next (State.rowWrite_service (q := .cell c) (n := 1) swBench_size h ?_ ?_)
    · rw [Plant.applyWrite_put (q := .cell c) (ty := .u8) swBench_written]
      show s.plant.leaveBench c = _
      rw [Plant.leaveBench, if_pos hbench]
      dsimp only
      rw [Plant.fired_put (by decide), hfired, if_neg Bool.false_ne_true]
    · rw [Plant.setPlain_power, Plant.put_power, Plant.acceptsAt_soft h]
  case prdLoad =>
    refine congrArg Host.Outcome.next (State.rowWrite_command (n := 2) (by decide) (by decide) v.isLt h ?_ ?_)
    · show s.plant.writePrd c v.toNat = _
      simp [Plant.writePrd, hload]
    · rw [Plant.put_power, Plant.showPending_power, Plant.onCell_node]
  case prd =>
    have hjoins : ((s.plant.cell c).car.loadTick == s.plant.tick + 1) = false := beq_false_of_ne hload
    refine congrArg Host.Outcome.next (State.rowWrite_command (n := 2) (by decide) (by decide) v.isLt h ?_ ?_)
    · show s.plant.writePrd c v.toNat = _
      simp [Plant.writePrd, hjoins]
    · rw [Plant.showPending_power, Plant.onCell_node]
  case cmpLoad =>
    have hv : v.toNat < 256 ^ 4 := by have := v.isLt; omega
    refine congrArg Host.Outcome.next (State.rowWrite_command (by decide) (by decide) hv h ?_ ?_)
    · show s.plant.writeCmp c v.toNat = _
      simp [Plant.writeCmp, hpoint]
    · rw [Plant.loadRegs_power, Plant.showPending_power, Plant.onCell_node]
  case cmp =>
    have hv : v.toNat < 256 ^ 4 := by have := v.isLt; omega
    refine congrArg Host.Outcome.next (State.rowWrite_command (by decide) (by decide) hv h ?_ ?_)
    · show s.plant.writeCmp c v.toNat = _
      simp [Plant.writeCmp, hpoint]
    · rw [Plant.showPending_power, Plant.onCell_node]

end Sys2Proof
end

section
/-! PROOF. The ledger of a cell, its power states and its capture (07 R169–R187; 13 R366, R373, R374). -/

namespace Sys2Proof.Machine

/-! ### What a sample of the ledger leaves (07 R169–R171) -/

theorem Plant.addMeans_get {k : Nat} (hd : k ≠ K.nrgPDraw) (hi : k ≠ K.nrgPIn) (p : Plant) (c : CellId) (d : Nat) (i : Int) (r : Part) :
    (p.addMeans c d i).get r k = p.get r k := by
  unfold Plant.addMeans
  dsimp only
  split
  · rw [Plant.onCell_get, Plant.get_put_other hi, Plant.get_put_other hd]
  · rw [Plant.onCell_get]

theorem Plant.addMeans_getN {k : Nat} (hd : k ≠ K.nrgPDraw) (hi : k ≠ K.nrgPIn) (p : Plant) (c : CellId) (d : Nat) (i : Int) (r : Part) :
    (p.addMeans c d i).getN r k = p.getN r k := by
  rw [Plant.getN, Plant.addMeans_get hd hi, Plant.getN]

theorem Plant.addMeans_power (p : Plant) (c : CellId) (d : Nat) (i : Int) (r : Part) :
    ((p.addMeans c d i).node r).power = (p.node r).power := by
  unfold Plant.addMeans
  dsimp only
  split
  · rw [Plant.onCell_node, Plant.put_power, Plant.put_power]
  · rw [Plant.onCell_node]

theorem Plant.addMeans_wants (p : Plant) (c : CellId) (d : Nat) (i : Int) :
    ((p.addMeans c d i).cell c).led.laneWant = (p.cell c).led.laneWant ∧ ((p.addMeans c d i).cell c).led.bootWant = (p.cell c).led.bootWant := by
  unfold Plant.addMeans
  dsimp only
  split <;> simp

/-- A ledger in NORMAL whose energy is at or above the deferral level stays there (07 R174). -/
theorem Plant.ledgerMove_stays {p : Plant} {c : CellId} (hst : p.getN (.cell c) K.nrgState = 2) (havail : 0 < p.get (.cell c) K.nrgAvail)
    (hdefer : p.get (.cell c) K.nrgDeferLevel ≤ p.get (.cell c) K.nrgAvail) : p.ledgerMove c = p := by
  simp [Plant.ledgerMove, hst, Int.not_le.2 havail, Int.not_lt.2 hdefer]

/-- A planner that keeps no request repeats none. -/
theorem Plant.repeatRequests_none {p : Plant} {c : CellId} (hst : p.getN (.cell c) K.nrgState = 2) (hlane : (p.cell c).led.laneWant = [])
    (hboot : (p.cell c).led.bootWant = false) : p.repeatRequests c = p := by
  simp [Plant.repeatRequests, hst, hlane, hboot]

theorem Plant.readyLevel_onCell (p : Plant) (c d : CellId) (f : Cell → Cell) : (p.onCell d f).readyLevel c = p.readyLevel c := rfl

/-! ### Power states (07 R183–R186) -/

@[simp] theorem Plant.onLane_power (p : Plant) (q : Part) (l : Nat) (f : Lane → Lane) (r : Part) :
    ((p.onLane q l f).node r).power = (p.node r).power := by
  simp only [Plant.onLane, Plant.node_onNode]
  split
  · next h => rw [h]
  · rfl

@[simp] theorem Plant.sendOs_power (p : Plant) (q : Part) (l : Nat) (always : Bool) (os : Header) (r : Part) :
    ((p.sendOs q l always os).node r).power = (p.node r).power := by
  unfold Plant.sendOs
  split
  · exact Plant.onLane_power ..
  · rfl

@[simp] theorem Plant.sendOs_getN (p : Plant) (q : Part) (l : Nat) (always : Bool) (os : Header) (r : Part) (k : Nat) :
    (p.sendOs q l always os).getN r k = p.getN r k := by
  unfold Plant.sendOs
  split
  · exact Plant.onLane_getN ..
  · rfl

theorem Plant.askLane_power (p : Plant) (q : Part) (l st : Nat) (r : Part) : ((p.askLane q l st).node r).power = (p.node r).power := by
  unfold Plant.askLane
  split
  · rw [Plant.sendOs_power, Plant.onLane_power]
  · rfl

theorem Plant.askLane_laneState (p : Plant) (q : Part) (l st m : Nat) (r : Part) : (p.askLane q l st).laneState r m = p.laneState r m := by
  unfold Plant.askLane
  split
  · rw [Plant.laneState, Plant.sendOs_getN, Plant.onLane_getN, Plant.laneState]
  · rfl

/-- A lane that carries frames is not in L2. -/
theorem Plant.laneState_of_up {p : Plant} {q : Part} {l : Nat} (h : p.laneUp q l = true) : p.laneState q l ≠ 4 := by
  intro h4
  simp [Plant.laneUp, h4] at h

/-- A request for a state below ACTIVE outside DEEP asks both lanes (07 R184). -/
theorem Plant.askPower_asks {p : Plant} {c : CellId} {v : Nat} (h0 : p.laneUp (.cell c) 0 = true) (h1 : p.laneUp (.cell c) 1 = true)
    (hst : p.getN (.cell c) K.pwrState ≠ 2) :
    p.askPower c v = ((p.onCell c (fun e => { e with led := { e.led with pwrWant := some v } })).askLane (.cell c) 0 (min v 2)).askLane
      (.cell c) 1 (min v 2) := by
  have hrange : rangeFrom 0 2 = [0, 1] := rfl
  have hs0 : (p.onCell c (fun e => { e with led := { e.led with pwrWant := some v } })).laneState (.cell c) 0 ≠ 4 := Plant.laneState_of_up h0
  have hs1 : (p.onCell c (fun e => { e with led := { e.led with pwrWant := some v } })).laneState (.cell c) 1 ≠ 4 := Plant.laneState_of_up h1
  unfold Plant.askPower
  dsimp only
  rw [if_neg (fun h => hst h.1), hrange, List.foldl_cons, List.foldl_cons, List.foldl_nil, if_neg hs0, if_neg (by rwa [Plant.askLane_laneState])]

/-! ### The capture (13 R366, R373, R374) -/

theorem Plant.capClose_power (p : Plant) (c : CellId) (flag : Nat) (r : Part) : ((p.capClose c flag).node r).power = (p.node r).power := by
  unfold Plant.capClose
  dsimp only
  split
  · simp only [Plant.put_power]
  · rfl

/-- The four values of a capture sample. -/
theorem map_rangeFrom_four {α : Type} (f : Nat → α) : (rangeFrom 0 4).map f = [f 0, f 1, f 2, f 3] := rfl

end Sys2Proof.Machine

namespace Sys2Proof

open Sys2Proof.Machine

/-- Settles O15, each command by the branch that its premises take. -/
theorem energyLedgerCompletes : Obligations.EnergyLedgerCompletes := by
  unfold Obligations.EnergyLedgerCompletes
  refine ⟨?sample, fun c hz s hup hmin hmax => ?measured, fun c hz s hup hmax => ?measuredOut, fun c act s hact hst hfree => ?granted,
    fun c act s hact hst => ?refused, fun c act s hmin hmax hst hfree => ?lane, fun c act s => rfl, fun c s hheld htiming => ?bypass⟩
  case sample =>
    intro c vin shunt s store ua draw hrails hheld hvin hshunt hua hstore hdraw hst havail hdefer hlane hboot
    have hexec : exec (.ledgerSample c vin shunt) s = execLedgerSample c vin shunt s := rfl
    rw [hexec, execLedgerSample, State.on_eq]
    dsimp only
    rw [hrails, Bool.not_true, if_neg Bool.false_ne_true, Nat.min_eq_left hvin.le, Nat.min_eq_left hshunt.le, ← hua, ← hstore, ← hdraw]
    generalize hx : Plant.onCell _ c _ = x
    have hget : ∀ k, k ≠ K.nrgPDraw → k ≠ K.nrgPIn → k ≠ K.nrgUsed → k ≠ K.nrgStore → k ≠ K.nrgIin → k ≠ K.nrgVin →
        x.get (.cell c) k = if k = K.nrgAvail then (store : Int) - s.plant.getN (.cell c) K.nrgReserve else s.plant.get (.cell c) k := by
      intro k h1 h2 h3 h4 h5 h6
      subst hx
      rw [Plant.onCell_get, Plant.addMeans_get h1 h2, Plant.bump, Plant.get_put_other h3, Plant.get_put, Plant.get_put_other h4,
        Plant.get_put_other h5, Plant.get_put_other h6]
      simp
    have hxst : x.getN (.cell c) K.nrgState = 2 := by
      rw [Plant.getN, hget _ (by decide) (by decide) (by decide) (by decide) (by decide) (by decide), if_neg (by decide)]
      exact hst
    have hxavail : x.get (.cell c) K.nrgAvail = (store : Int) - s.plant.getN (.cell c) K.nrgReserve := by
      rw [hget _ (by decide) (by decide) (by decide) (by decide) (by decide) (by decide), if_pos rfl]
    have hxdefer : x.get (.cell c) K.nrgDeferLevel = s.plant.get (.cell c) K.nrgDeferLevel := by
      rw [hget _ (by decide) (by decide) (by decide) (by decide) (by decide) (by decide), if_neg (by decide)]
    have hxheld : (x.node (.cell c)).power.held = false := by
      subst hx
      rw [Plant.onCell_node, Plant.addMeans_power, Plant.bump_power]
      simp only [Plant.put_power, hheld]
    have hxwants : (x.cell c).led.laneWant = [] ∧ (x.cell c).led.bootWant = false := by
      subst hx
      simp [Plant.addMeans_wants, hlane, hboot]
    have hclip : ¬ ((vin.toNat = 4095 ∨ shunt.toNat = 4095) ∧ x.up (.cell c) = true) := by
      rintro ⟨h | h, -⟩ <;> omega
    rw [if_neg hclip, Plant.ledgerMove_stays hxst (by rwa [hxavail]) (by rwa [hxdefer, hxavail]),
      Plant.repeatRequests_none hxst hxwants.1 hxwants.2, if_neg (by simp [hxheld])]
  case measured =>
    have hexec : exec (.rcMeasure c hz) s = execRcMeasure c hz s := rfl
    rw [hexec, execRcMeasure, State.onUp_up _ hup]
    dsimp only
    rw [if_pos ⟨hmin, hmax⟩]
  case measuredOut =>
    have hexec : exec (.rcMeasure c hz) s = execRcMeasure c hz s := rfl
    rw [hexec, execRcMeasure, State.onUp_up _ hup]
    dsimp only
    rw [if_neg (by omega)]
  case granted =>
    have hgrants : s.plant.grants c act.val = true := by
      rcases hact with h | h <;> simpa [Plant.grants, Plant.deferOk, hst, h] using hfree
    rw [exec_activityRequest (by omega), if_neg (by omega), Plant.request_granted (by omega) hgrants]
    rfl
  case refused =>
    have hgrants : s.plant.grants c act.val = false := by
      rcases hact with h | h <;> simp [Plant.grants, Plant.deferOk, hst, h]
    rw [exec_activityRequest (by omega), if_neg (by omega), Plant.request_refused hgrants]
    rfl
  case lane =>
    have hgrants : s.plant.grants c act.val = true := by
      simp [Plant.grants, hst, hmax, hfree]
    rw [exec_activityRequest hmin, if_pos hmax, Plant.requestLane_granted (by omega) hgrants]
    rfl
  case bypass =>
    have hexec : exec (.bypassOnResetExpire c) s = execBypassOnResetExpire c s := rfl
    rw [hexec, execBypassOnResetExpire, State.on_eq, if_pos ⟨hheld, htiming⟩]

/-- Settles O16, each command by the branch that its premises take. -/
theorem cellPowerCompletes : Obligations.CellPowerCompletes := by
  unfold Obligations.CellPowerCompletes
  refine ⟨fun c s hup hst h0 h1 havail => ?booted, fun c s hup hst => ?restarted, fun c lane s hup hst hdown havail => ?laneTimeout,
    fun c s hrails hst => ?rise, fun c s hst hpg => ?pgTimeout, fun c s hup => ?fall, fun c v s h hv h0 h1 hst => ?request,
    fun c v s hup hwant hv h0 h1 => ?below, fun c s hup hwant h0 h1 hst => ?active, fun c s hup hwant h0 h1 => ?aon⟩
  case booted =>
    have hexec : exec (.bootComplete c) s = execBootComplete c s := rfl
    rw [hexec, execBootComplete, State.on_eq]
    have hready : s.plant.readyLevel c = true := by
      simpa [Plant.readyLevel] using havail
    simp [hup, hst, h0, h1, Plant.bootDone, hready, Plant.release, Plant.enterRun]
  case restarted =>
    have hexec : exec (.bootComplete c) s = execBootComplete c s := rfl
    rw [hexec, execBootComplete, State.on_eq]
    simp [hup, hst, Plant.bootDone, Plant.release]
  case laneTimeout =>
    have hexec : exec (.bootLaneTimeout c lane) s = execBootLaneTimeout c lane s := rfl
    rw [hexec, execBootLaneTimeout, State.on_eq]
    have hready : s.plant.readyLevel c = true := by
      simpa [Plant.readyLevel] using havail
    simp [hup, hst, hdown, Plant.bootDone, Plant.readyLevel_onCell, hready, Plant.release, Plant.enterRun]
  case rise =>
    have hexec : exec (.corePgRise c) s = execCorePgRise c s := rfl
    rw [hexec, execCorePgRise, State.on_eq]
    simp [hrails, hst]
  case pgTimeout =>
    have hexec : exec (.corePgTimeout c) s = execCorePgTimeout c s := rfl
    rw [hexec, execCorePgTimeout, State.on_eq]
    simp [hst, hpg]
  case fall =>
    have hexec : exec (.corePgFall c) s = execCorePgFall c s := rfl
    rw [hexec, execCorePgFall, State.on_eq]
    simp [hup]
  case request =>
    refine congrArg Host.Outcome.next (State.rowWrite_command (n := 1) (by decide) (by decide) v.isLt h ?_ ?_)
    · exact Plant.askPower_asks h0 h1 hst
    · rw [Plant.askLane_power, Plant.askLane_power, Plant.onCell_node]
  case below =>
    have hexec : exec (.powerStateEnter c) s = execPowerStateEnter c s := rfl
    rw [hexec, execPowerStateEnter, State.onUp_up _ hup]
    rcases hv with rfl | rfl <;> simp [hwant, h0, h1, laneOfPower]
  case active =>
    have hexec : exec (.powerStateEnter c) s = execPowerStateEnter c s := rfl
    rw [hexec, execPowerStateEnter, State.onUp_up _ hup]
    rcases hst with hst | hst <;> simp [hwant, h0, h1, laneOfPower, hst]
  case aon =>
    have hexec : exec (.powerStateEnter c) s = execPowerStateEnter c s := rfl
    rw [hexec, execPowerStateEnter, State.onUp_up _ hup]
    simp [hwant, h0, h1, laneOfPower]

/-- Settles O17: the three values of cap.ctrl by service WRITE, and the two samples by their branch. -/
theorem cellCaptureCompletes : Obligations.CellCaptureCompletes := by
  unfold Obligations.CellCaptureCompletes
  refine ⟨fun c s h => ?arm, fun c s h => ?stop, fun c s h hst hpre => ?force, fun c vc ic fb s hup hst htrig => ?before,
    fun c vc ic fb s hup hst hafter => ?last⟩
  case arm =>
    refine congrArg Host.Outcome.next (State.rowWrite_command (n := 1) (by decide) (by decide) (by decide) h rfl ?_)
    simp only [Plant.put_power, Plant.onCell_node]
  case stop =>
    exact congrArg Host.Outcome.next (State.rowWrite_command (n := 1) (by decide) (by decide) (by decide) h rfl (Plant.capClose_power ..))
  case force =>
    refine congrArg Host.Outcome.next (State.rowWrite_command (n := 1) (by decide) (by decide) (by decide) h ?_ ?_)
    · show s.plant.capTake c = _
      rw [Plant.capTake, if_pos hst]
      dsimp only
      rw [if_neg (Nat.not_lt.2 hpre)]
    · simp only [Plant.put_power, Plant.onCell_node]
  case before =>
    have hexec : exec (.cellCaptureSample c vc ic fb) s = execCellCaptureSample c vc ic fb s := rfl
    rw [hexec, execCellCaptureSample, State.onUp_up _ hup]
    simp [hst, htrig, map_rangeFrom_four]
  case last =>
    have hexec : exec (.cellCaptureSample c vc ic fb) s = execCellCaptureSample c vc ic fb s := rfl
    rw [hexec, execCellCaptureSample, State.onUp_up _ hup]
    simp [hst, Nat.sub_eq_zero_of_le hafter, map_rangeFrom_four]

end Sys2Proof
end

section
/-! PROOF. A lane's training, loss, power states, adaptation and tests (08 R194–R203): an ordered set acts where its field is the row's
(`Plant.osTake_hears`), and PRBS_CLEAR is a write of a command object that parts of every kind hold. -/

namespace Sys2Proof.Machine

/-! ### Two writes of one entry -/

theorem Tab.erase_ins {β : Type} (t : Tab β) (k : Nat) (v : β) : Tab.erase (Tab.ins k v t) k = Tab.erase t k := by
  induction t with
  | nil => simp [Tab.ins, Tab.erase]
  | cons e t ih =>
    unfold Tab.ins
    split
    · simp [Tab.erase]
    · simp only [Tab.erase, List.filter_cons] at ih ⊢
      rw [ih]

theorem Tab.erase_set {β : Type} [DecidableEq β] (d : Nat → β) (t : Tab β) (k : Nat) (v : β) :
    Tab.erase (Tab.set d t k v) k = Tab.erase t k := by
  have hidem : Tab.erase (Tab.erase t k) k = Tab.erase t k := by
    simp [Tab.erase, List.filter_filter]
  unfold Tab.set
  split
  · exact hidem
  · rw [Tab.erase_ins, hidem]

/-- Of two writes of one entry the second stands. -/
theorem Tab.set_set {β : Type} [DecidableEq β] (d : Nat → β) (t : Tab β) (k : Nat) (v w : β) :
    Tab.set d (Tab.set d t k v) k w = Tab.set d t k w := by
  rw [Tab.set, Tab.erase_set, Tab.set]

/-- Two changes of a cell's record are one. -/
theorem Plant.onCell_onCell (p : Plant) (c : CellId) (f g : Cell → Cell) : (p.onCell c f).onCell c g = p.onCell c (fun e => g (f e)) := by
  have hcells : Tab.upd (fun _ => default) (Tab.upd (fun _ => default) p.cells (cellNum c) f) (cellNum c) g =
      Tab.upd (fun _ => default) p.cells (cellNum c) (fun e => g (f e)) := by
    rw [Tab.upd, Tab.get_upd_self, Tab.upd, Tab.set_set, Tab.upd]
  exact congrArg (fun t => { p with cells := t }) hcells

/-! ### Lane objects -/

theorem laneKey_ne {a b : Nat} (h : a ≠ b) (l : Nat) : laneKey l a ≠ laneKey l b := by
  unfold laneKey
  omega

/-- A lane whose state is known carries frames in L0 and L1 alone. -/
theorem Plant.laneState_cases {p : Plant} {q : Part} {l : Nat} (h : p.laneUp q l = true) : p.laneState q l = 2 ∨ p.laneState q l = 3 := by
  simpa [Plant.laneUp] using h

theorem Plant.laneToL0_up {p : Plant} {q : Part} {l : Nat} (h : p.laneState q l = 1) (hend : p.endUp q l = true) :
    p.laneToL0 q l = (p.setLaneState q l 2).onLane q l (fun e => { e with exch := { out := false, t1 := 0, results := [], since := 0 } }) :=
  if_pos ⟨h, hend⟩

/-- A lane that carries frames is declared lost (08 R196), unless its cause is one of string lanes. -/
theorem Plant.declareLost_up {p : Plant} {q : Part} {l cause : Nat} (hup : p.laneUp q l = true) (h5 : cause ≠ 5)
    (h4 : cause = 4 → stringLaneOf q l = true) :
    p.declareLost q l cause =
      (((((((p.bump q (laneKey l 4) 1).put q (laneKey l 6) cause).laneDown q l 1).respread q l (p.lane q l).movable).sendOs q l true
        (osLstate 0 4 (partCode q))).breakOwn q l true).lossSources q l) := by
  have hkind : ¬ ((cause = 4 ∨ cause = 5) ∧ (!stringLaneOf q l) = true) := by
    rintro ⟨h | h, hs⟩
    · simp [h4 h] at hs
    · exact h5 h
  unfold Plant.declareLost
  dsimp only
  rw [if_neg hkind, if_pos (.inl hup), if_neg h5, if_pos hup]

theorem Plant.enterLaneState_carries {st : Nat} (h : st ≠ 2) (p : Plant) (q : Part) (l : Nat) :
    p.enterLaneState q l st = p.setLaneState q l (powerCode st) := if_neg h

/-! ### PRBS_CLEAR (08 R203) -/

/-- The object is a write-only number of n bytes of a part of a kind. -/
def isWriteOnly (kind key n : Nat) : Bool :=
  (rowOf kind key).map (fun row => row.ty.size) == some n && (rowOf kind key).any (fun row => !row.isBlob && row.acc == .wo)

theorem isWriteOnly_prbsClear_cvc : ∀ lane : Fin 52,
    isWriteOnly 0 (laneKey lane.val 0x11) 1 = true ∨ rowOf 0 (laneKey lane.val 0x11) = none := by decide

theorem isWriteOnly_prbsClear_hub : ∀ lane : Fin 52, lane.val < laneCount 1 → isWriteOnly 1 (laneKey lane.val 0x11) 1 = true := by decide

theorem isWriteOnly_prbsClear_cell : ∀ lane : Fin 52, lane.val < laneCount 2 → isWriteOnly 2 (laneKey lane.val 0x11) 1 = true := by decide

theorem isWriteOnly_prbsClear_row : ∀ lane : Fin 52, lane.val < laneCount 0 → isWriteOnly 0 (laneKey lane.val 0x11) 1 = true := by decide

/-- A part's lane holds a command object that clears its test. -/
theorem isWriteOnly_prbsClear {q : Part} {lane : Fin 52} (h : lane.val < laneCount q.kind) :
    isWriteOnly q.kind (laneKey lane.val 0x11) 1 = true := by
  cases q with
  | cvc => exact isWriteOnly_prbsClear_row lane h
  | hub a => exact isWriteOnly_prbsClear_hub lane h
  | cell c => exact isWriteOnly_prbsClear_cell lane h

/-- A write-only object of a lane clears the lane's test. -/
theorem Plant.act_prbsClear (p : Plant) (q : Part) (rid v : Nat) (lane : Fin 52) :
    p.act q rid (laneKey lane.val 0x11) v = (0, p.prbsClear q lane.val) := by
  have hlane := lane.isLt
  have hi : laneKey lane.val 0x11 / 256 = 0x3800 + lane.val := by unfold laneKey; omega
  have hother : ∀ k, 0x400000 ≤ k → laneKey lane.val 0x11 ≠ k := by
    intro k hk
    unfold laneKey
    omega
  simp only [Plant.act]
  rw [if_neg (hother _ (by decide)), if_neg (hother _ (by decide)), if_neg (hother _ (by decide)), if_neg (hother _ (by decide)),
    if_neg (hother _ (by decide)), if_neg (hother _ (by decide)), hi, if_pos (by omega), Nat.add_sub_cancel_left]

end Sys2Proof.Machine

namespace Sys2Proof

open Sys2Proof.Machine

/-- Settles O18, each command by the branch that its premises take. -/
theorem laneTrainingCompletes : Obligations.LaneTrainingCompletes := by
  unfold Obligations.LaneTrainingCompletes
  refine ⟨fun port cause s hup hlane h5 h4 => ?lost, fun port s hkind hst => ?timeout, fun port s hkind hst => ?timeoutCell,
    fun port s hkind hst hend => ?rises, fun port c s hport hst hend => ?risesCell, fun port s hst => ?lock,
    fun port os s hos hop hst hlock => ?up, fun port os s hos hop => ?down, fun port s hkind hst => ?wake, fun port c s hport haon => ?wakeCell⟩
  case lost =>
    have hexec : exec (.laneLost port cause) s = execLaneLost port cause s := rfl
    rw [hexec, execLaneLost, State.on_eq, if_pos (.inl hup), Plant.declareLost_up hlane h5 h4]
  case timeout =>
    have hexec : exec (.trainTimeout port) s = execTrainTimeout port s := rfl
    rw [hexec, execTrainTimeout, State.on_eq]
    simp only [hst, hkind, if_true, if_false]
  case timeoutCell =>
    have hexec : exec (.trainTimeout port) s = execTrainTimeout port s := rfl
    rw [hexec, execTrainTimeout, State.on_eq]
    simp only [hst, hkind, if_true]
  case rises =>
    have hexec : exec (.laneUp port) s = execLaneUp port s := rfl
    rw [hexec, execLaneUp, State.on_eq]
    dsimp only
    rw [Plant.laneToL0_up hst hend]
    cases hport : port.part with
    | cell c => exact absurd (by rw [hport]; rfl) hkind
    | cvc => rfl
    | hub a => rfl
  case risesCell =>
    have hexec : exec (.laneUp port) s = execLaneUp port s := rfl
    rw [hexec, execLaneUp, State.on_eq]
    rw [hport]
    simp only [Plant.laneToL0_up hst hend, Plant.release, Plant.onCell_onCell]
    rfl
  case lock =>
    have hexec : exec (.blockLock port) s = execBlockLock port s := rfl
    rw [hexec, execBlockLock, State.on_eq]
    dsimp only
    rw [if_pos hst]
  case up =>
    have hexec : exec (.lstateUp port os) s = execLstateUp port os s := rfl
    rw [hexec, execLstateUp, State.on_eq]
    dsimp only
    rw [Plant.osTake_hears hos, hop]
    simp only [beq_self_eq_true, if_true, hst, hlock, and_self]
  case down =>
    have hexec : exec (.lstateDown port os) s = execLstateDown port os s := rfl
    rw [hexec, execLstateDown, State.on_eq]
    rw [Plant.osTake_hears hos, hop]
    rfl
  case wake =>
    have hexec : exec (.laneWake port) s = execLaneWake port s := rfl
    rw [hexec, execLaneWake, State.on_eq]
    cases hport : port.part with
    | cell c => exact absurd (by rw [hport]; rfl) hkind
    | cvc =>
      rw [hport] at hst
      simp only [hst, if_true]
    | hub a =>
      rw [hport] at hst
      simp only [hst, if_true]
  case wakeCell =>
    have hexec : exec (.laneWake port) s = execLaneWake port s := rfl
    rw [hexec, execLaneWake, State.on_eq, hport]
    simp only [haon, if_true]

/-- Settles O19, each command by the branch that its premises take; PRBS_CLEAR is a write of a lane's command object. -/
theorem lanePowerCompletes : Obligations.LanePowerCompletes := by
  unfold Obligations.LanePowerCompletes
  refine ⟨fun port os s hos hop hst hup => ?req, fun port os s hos hop hst htest => ?reqTest, fun port os s st hos hop hasked hup hwant hst => ?ack,
    fun port os s hos hop => ?nak, fun port s => rfl, fun port s st hwant hasked hup => ?retry,
    fun port eye coef s hfix hoff hst htest heye => ?eye, fun port s htest => ?sync, fun port s hsync => ?loss,
    fun port errors s hsync herr => ?errors, fun port s hsync => ?clean, fun q lane v s hlane h => ?clear, fun r lane v s h => ?clearHost⟩
  case req =>
    have hexec : exec (.lstateReq port os) s = execLstateReq port os s := rfl
    have h5 : ¬ s.plant.laneState port.part port.lane.val = 5 := by
      rcases Plant.laneState_cases hup with h | h <;> rw [h] <;> decide
    have hst3 : (bits os.toNat 51 50 != 3) = true := bne_iff_ne.2 (by omega)
    rw [hexec, execLstateReq, State.on_eq]
    dsimp only
    rw [Plant.osTake_hears hos, hop, hst3]
    simp only [beq_self_eq_true, Bool.and_self, if_true, if_neg h5, if_pos hup,
      Plant.enterLaneState_carries (show bits os.toNat 51 50 ≠ 2 by omega)]
  case reqTest =>
    have hexec : exec (.lstateReq port os) s = execLstateReq port os s := rfl
    have hst3 : (bits os.toNat 51 50 != 3) = true := bne_iff_ne.2 (by omega)
    rw [hexec, execLstateReq, State.on_eq]
    dsimp only
    rw [Plant.osTake_hears hos, hop, hst3]
    simp only [beq_self_eq_true, Bool.and_self, if_true, htest]
  case ack =>
    have hexec : exec (.lstateAck port os) s = execLstateAck port os s := rfl
    rw [hexec, execLstateAck, State.on_eq]
    dsimp only
    rw [Plant.osTake_hears hos, hop]
    simp only [beq_self_eq_true, if_true, hwant, hasked, hup, and_self, Plant.enterLaneState_carries hst]
  case nak =>
    have hexec : exec (.lstateNak port os) s = execLstateNak port os s := rfl
    rw [hexec, execLstateNak, State.on_eq]
    rw [Plant.osTake_hears hos, hop]
    rfl
  case retry =>
    have hexec : exec (.lstateReqRetry port) s = execLstateReqRetry port s := rfl
    rw [hexec, execLstateReqRetry, State.on_eq]
    simp only [hwant, hasked, Bool.false_eq_true, if_false, Plant.askLane, hup, if_true]
  case eye =>
    have hexec : exec (.eyeEstimate port eye coef) s = execEyeEstimate port eye coef s := rfl
    have hguard : K.laneAdaptGuard ≠ laneKey port.lane.val 7 := by
      have := port.lane.isLt
      unfold laneKey K.laneAdaptGuard
      omega
    rw [hexec, execEyeEstimate, State.on_eq]
    simp only [hoff, Bool.false_eq_true, if_false, Plant.laneState, Plant.getN_put_other (laneKey_ne (show 0x16 ≠ 7 by decide) _),
      Plant.getN_put_other (laneKey_ne (show 2 ≠ 7 by decide) _), Plant.getN_put_other (laneKey_ne (show 0x0C ≠ 7 by decide) _),
      Plant.getN_put_other (laneKey_ne (show 8 ≠ 7 by decide) _), Plant.getN_put_other hguard, hfix, htest, Nat.not_lt.2 heye,
      and_false, ne_eq, not_true_eq_false, or_false, false_or]
    rw [if_neg (show ¬ s.plant.getN port.part (laneKey port.lane.val 2) = 3 from hst)]
  case sync =>
    have hexec : exec (.prbsSync port) s = execPrbsSync port s := rfl
    rw [hexec, execPrbsSync, State.on_eq, if_pos htest]
  case loss =>
    have hexec : exec (.prbsSyncLoss port) s = execPrbsSyncLoss port s := rfl
    rw [hexec, execPrbsSyncLoss, State.on_eq]
    simp only [hsync, if_true]
  case errors =>
    have hexec : exec (.prbsSecond port errors) s = execPrbsSecond port errors s := rfl
    rw [hexec, execPrbsSecond, State.on_eq]
    simp only [hsync, if_true, if_neg herr]
  case clean =>
    have hexec : exec (.prbsSecond port 0) s = execPrbsSecond port 0 s := rfl
    rw [hexec, execPrbsSecond, State.on_eq]
    simp only [hsync, if_true]
    rfl
  case clear =>
    have hrow := isWriteOnly_prbsClear hlane
    simp only [isWriteOnly, Bool.and_eq_true, beq_iff_eq] at hrow
    obtain ⟨hsize, hwo⟩ := hrow
    refine congrArg Host.Outcome.next (State.rowWrite_service (n := 1) hsize h ?_ ?_)
    · rw [Plant.applyWrite_wo hwo, Plant.act_prbsClear]
      rfl
    · simp only [Plant.put_power, Plant.acceptsAt_soft h]
  case clearHost =>
    rcases isWriteOnly_prbsClear_cvc lane with hrow | hnone
    · simp only [isWriteOnly, Bool.and_eq_true, beq_iff_eq] at hrow
      obtain ⟨hsize, hwo⟩ := hrow
      refine congrArg Host.Outcome.next (State.hostWrite_act (n := 1) hsize hwo (by decide) v.isLt h (fun p => ?_) (fun p hp => ?_))
      · exact p.act_prbsClear ..
      · simp only [Plant.cPut_power, hp]
    · simp [Plant.accepts, hnone] at h

end Sys2Proof
end

section
/-! PROOF. Notices and plans along a string (08 R205–R216): a notice that is new is noted, passed on by a cell, and acts by the part that
hears it; a plan is latched as the PLANs held and the lanes lost give it. -/

namespace Sys2Proof.Machine

/-! ### Notices (08 R205, R206) -/

/-- A new notice of the kind, heard by a part: it is noted, a cell passes it on, and it acts. -/
theorem Plant.noticeTake_new {p : Plant} {port : Port} {os : Header} {kind : Nat} (hears : p.hearsOs port os 1 = true)
    (hkind : bits os.toNat 51 50 = kind) (hnew : p.noticeNew port.part port.lane.val os = true) (f : Plant → Plant) :
    p.noticeTake port os kind f = f (if port.part.kind = 2 then
      (p.noticeSeen port.part port.lane.val os).sendNotice port.part (otherLane port.lane.val) false os
      else p.noticeSeen port.part port.lane.val os) := by
  rw [Plant.noticeTake, Plant.osTake_hears hears, beq_iff_eq.2 hkind, if_pos rfl]
  dsimp only
  rw [if_pos hnew]

/-- What a cell's lane holds does not stop it from serving. -/
theorem Plant.serving_onLane (p : Plant) (q : Part) (l : Nat) (f : Lane → Lane) (c : CellId) :
    (p.onLane q l f).serving (.cell c) = p.serving (.cell c) := by
  have hhalted : (p.onLane q l f).halted (.cell c) = p.halted (.cell c) := rfl
  simp only [Plant.serving, Plant.onLane_up, hhalted, Plant.onLane_getN]

theorem Plant.serving_sendOs (p : Plant) (q : Part) (l : Nat) (always : Bool) (os : Header) (c : CellId) :
    (p.sendOs q l always os).serving (.cell c) = p.serving (.cell c) := by
  unfold Plant.sendOs
  split
  · exact Plant.serving_onLane ..
  · rfl

@[simp] theorem Plant.sendOs_cell (p : Plant) (q : Part) (l : Nat) (always : Bool) (os : Header) (c : CellId) :
    (p.sendOs q l always os).cell c = p.cell c := by
  unfold Plant.sendOs
  split <;> rfl

/-- Noting a notice and passing it on leave whether the cell serves. -/
theorem Plant.serving_notice (p : Plant) (c : CellId) (l m : Nat) (os : Header) :
    ((p.noticeSeen (.cell c) l os).sendNotice (.cell c) m false os).serving (.cell c) = p.serving (.cell c) := by
  rw [Plant.sendNotice, Plant.serving_sendOs, Plant.serving_sendOs, Plant.noticeSeen, Plant.serving_onLane]

@[simp] theorem Plant.onCell_lane (p : Plant) (c : CellId) (f : Cell → Cell) (q : Part) (l : Nat) : (p.onCell c f).lane q l = p.lane q l := rfl

/-! ### Plans (08 R209–R212) -/

/-- The normal split of n cells: each end takes half (08 R207). -/
def normalSplit (n : Nat) : PlanV :=
  ⟨(n + 1) / 2, (n + 1) / 2, false, (n + 1) / 2 - 1, if (n + 1) / 2 = n then 63 else (n + 1) / 2, 1⟩

/-- A part that holds no PLAN and knows no lost lane latches the normal split (08 R212). -/
theorem latchPlan_none {st : PlanSt} {n : Nat} (hrx : st.rx = []) (hown : st.own = []) (hlearned : st.learned = []) (hn : 0 < n)
    (kseq : Nat) (up : Nat → Bool) : latchPlan st kseq n up = { st with latched := some (normalSplit n) } := by
  have hhalf : ¬ (n + 1) / 2 = 0 := by omega
  simp [latchPlan, normalSplit, hrx, hown, hlearned, hhalf]

/-- A part that knows no lost lane latches a PLAN of the cycle that names none as it is (08 R209). -/
theorem latchPlan_plan {st : PlanSt} {r : PlanRx} {kseq : Nat}
    (hr : (st.rx.filter (fun x => decide ((kseq + 256 - x.seq) % 256 < 128))).head? = some r) (hbrk : r.brk = false)
    (hown : st.own = []) (hlearned : st.learned = []) (n : Nat) (up : Nat → Bool) :
    latchPlan st kseq n up = { st with
      rx := st.rx.map (fun x => { x with fresh := false }), latched := some ⟨r.a, r.b, false, r.lh, r.lt, r.form⟩ } := by
  simp [latchPlan, hr, hbrk, hown, hlearned]

/-- A part that knows no lost lane heals none. -/
theorem planBroken_intact (old : Option PlanV) (v : PlanV) (n : Nat) : planBroken old v n false = false := by
  cases old <;> rfl

/-- A cell's segment of a plan: 0 head, 1 tail, 2 neither (08 R207). -/
def segOf (v : PlanV) (pos : Nat) : Nat := if pos < v.a then 0 else if v.b ≤ pos then 1 else 2

/-- Whether a cell launches the head or the tail segment (08 R208). -/
def launchOf (v : PlanV) (pos : Nat) : Nat :=
  if v.lh = pos ∧ segOf v pos = 0 then 1 else if v.lt = pos ∧ segOf v pos = 1 then 2 else 0

theorem launchOf_eq (v : PlanV) (pos : Nat) :
    launchOf v pos = if v.lh = pos ∧ pos < v.a then 1 else if v.lt = pos ∧ v.a ≤ pos ∧ v.b ≤ pos then 2 else 0 := by
  unfold launchOf segOf
  by_cases ha : pos < v.a
  · simp [ha, Nat.not_le.2 ha]
  · by_cases hb : v.b ≤ pos
    · simp [ha, hb, Nat.not_lt.1 ha]
    · simp [ha, hb]

/-- A cell that holds its position latches a plan without a lost lane and shows its segment (08 R209). -/
theorem Plant.latchPlans_intact {p : Plant} {c : CellId} {v : PlanV} {st : PlanSt} (hpos : (p.cell c).posKnown = true)
    (hst : latchPlan (p.cell c).plan ((p.schedNow (.cell c)).k % 256) (p.c (K.stringCells + c.str.val))
      (fun j => p.laneUp (.cell c) (j - p.getN (.cell c) K.stringPos)) = st)
    (hv : st.latched = some v) (hlost : st.broken = false) :
    p.latchPlans (.cell c) =
      (((((p.onCell c (fun e => { e with plan := st })).put (.cell c) K.stringA v.a).put (.cell c) K.stringB v.b).put (.cell c) K.stringSeg
        (segOf v (p.getN (.cell c) K.stringPos) : Nat)).put (.cell c) K.stringLaunch (launchOf v (p.getN (.cell c) K.stringPos) : Nat)) := by
  unfold Plant.latchPlans
  simp only [hpos, Bool.not_true, Bool.false_eq_true, if_false, hst, hv, hlost, planBroken_intact]
  rfl

theorem segOf_normalSplit (n pos : Nat) : segOf (normalSplit n) pos = if pos < (n + 1) / 2 then 0 else 1 := by
  by_cases h : pos < (n + 1) / 2
  · simp [segOf, normalSplit, h]
  · simp [segOf, normalSplit, h, Nat.not_lt.1 h]

theorem launchOf_normalSplit {n pos : Nat} (hpos : pos < n) :
    launchOf (normalSplit n) pos = if pos + 1 = (n + 1) / 2 then 1 else if pos = (n + 1) / 2 then 2 else 0 := by
  rw [launchOf, segOf_normalSplit]
  by_cases h : pos < (n + 1) / 2
  · have hlh : (n + 1) / 2 - 1 = pos ↔ pos + 1 = (n + 1) / 2 := by omega
    simp [normalSplit, h, hlh, h.ne]
  · have hlt : (n + 1) / 2 ≠ n := by omega
    have hlh : pos + 1 ≠ (n + 1) / 2 := by omega
    simp [normalSplit, h, hlt, hlh, eq_comm]

/-- A port whose plan does not change sends it with the same PSEQ (08 R211). -/
theorem Plant.sendPlan_same {p : Plant} {h : Fin 8} {k : Nat} {v : PlanV} (hn : p.getN (.hub h) (K.stringCells + k) ≠ 0)
    (hv : v = hubPlan (p.hubPort h k).plan (p.hubPort h k).passed (p.getN (.hub h) (K.stringCells + k)) (stringForm (p.hub h).form))
    (hlast : (p.hubPort h k).last = v) :
    p.sendPlan h k =
      let e := p.hubPort h k
      let os := osPlan v (decide (0 < e.rstLeft)) (((p.schedNow (.hub h)).k + 1) % 256) e.pseq
      ((p.onPort h k (fun x => { x with
        pseq := e.pseq, last := v, rstLeft := x.rstLeft - 1,
        plan := { x.plan with rx := (planRx os [] :: x.plan.rx).take 3 } })).sendOs (.hub h) (2 * k) false os).sendOs (.hub h)
        (2 * k + 1) false os := by
  unfold Plant.sendPlan
  simp only [if_neg hn, ← hv, hlast, and_self, decide_true, Bool.not_true, Bool.false_eq_true, if_false]

end Sys2Proof.Machine

namespace Sys2Proof

open Sys2Proof.Machine

/-- Settles O20: a new notice by the part that hears it, and the notices that a cell makes of its own. -/
theorem noticesComplete : Obligations.NoticesComplete := by
  unfold Obligations.NoticesComplete
  refine ⟨fun port c os s hport hears hkind hnew hserves => ?breakCell, fun port h os s hport hlane hears hkind hnew => ?breakHub,
    fun port h os s hport hlane hears hkind hnew => ?breakCvc, fun port h os s hport hlane hears hkind hnew => ?mendCvc,
    fun port h os s hport hlane hears hkind hnew => ?pass, fun port h os s hport hlane hears hkind hnew => ?serve,
    fun port c s hport hup hown => ?mend, fun c s hdown => ?passDown, fun c s hup hrun => ?passRuns⟩
  case breakCell =>
    have hexec : exec (.noticeBreak port os) s = execNoticeBreak port os s := rfl
    rw [hexec, execNoticeBreak, State.on_eq]
    dsimp only
    rw [Plant.noticeTake_new hears hkind (by rwa [hport]), hport]
    simp only [Part.kind, if_true, Plant.noticeActs, Plant.serving_notice, hserves]
    rfl
  case breakHub =>
    have hexec : exec (.noticeBreak port os) s = execNoticeBreak port os s := rfl
    rw [hexec, execNoticeBreak, State.on_eq]
    dsimp only
    rw [Plant.noticeTake_new hears hkind (by rwa [hport]), hport]
    simp only [Part.kind, show ¬ (1 : Nat) = 2 by decide, if_false, hlane, if_true, Plant.onPlan]
  case breakCvc =>
    have hexec : exec (.noticeBreak port os) s = execNoticeBreak port os s := rfl
    have hhub : port.lane.val / 2 < 8 := hlane ▸ h.isLt
    have hh : (⟨port.lane.val / 2, hhub⟩ : Fin 8) = h := Fin.ext hlane
    rw [hexec, execNoticeBreak, State.on_eq]
    dsimp only
    rw [Plant.noticeTake_new hears hkind (by rwa [hport]), hport]
    simp only [Part.kind, show ¬ (0 : Nat) = 2 by decide, if_false]
    rw [dif_pos hhub, hh]
  case mendCvc =>
    have hexec : exec (.noticeMend port os) s = execNoticeMend port os s := rfl
    have hhub : port.lane.val / 2 < 8 := hlane ▸ h.isLt
    have hh : (⟨port.lane.val / 2, hhub⟩ : Fin 8) = h := Fin.ext hlane
    rw [hexec, execNoticeMend, State.on_eq]
    dsimp only
    rw [Plant.noticeTake_new hears hkind (by rwa [hport]), hport]
    simp only [Part.kind, show ¬ (0 : Nat) = 2 by decide, if_false]
    rw [dif_pos hhub, hh]
  case pass =>
    have hexec : exec (.noticePass port os) s = execNoticePass port os s := rfl
    rw [hexec, execNoticePass, State.on_eq]
    rw [Plant.noticeTake_new hears hkind (by rwa [hport]), hport]
    simp only [Part.kind, show ¬ (1 : Nat) = 2 by decide, if_false, hlane, if_true]
  case serve =>
    have hexec : exec (.noticeServe port os) s = execNoticeServe port os s := rfl
    rw [hexec, execNoticeServe, State.on_eq]
    rw [Plant.noticeTake_new hears hkind (by rwa [hport]), hport]
    simp only [Part.kind, show ¬ (1 : Nat) = 2 by decide, if_false, hlane, if_true]
  case mend =>
    have hexec : exec (.mendCountReached port) s = execMendCountReached port s := rfl
    rw [hexec, execMendCountReached, State.on_eq]
    dsimp only
    rw [hport, if_pos ⟨hup, hown, rfl⟩]
    simp [Plant.sendMend, Plant.nextNotice, Plant.onPlan, Plant.stringLane]
  case passDown =>
    have hexec : exec (.passThroughEntry c) s = execPassThroughEntry c s := rfl
    have hstops : ¬ (s.plant.up (.cell c) = true ∧ (!(s.plant.cell c).halted) = true) := by
      rintro ⟨hup, hrun⟩
      rcases hdown with h | h <;> simp_all
    rw [hexec, execPassThroughEntry, State.on_eq, if_neg hstops]
    simp [Plant.passNotice, Plant.nextNotice]
  case passRuns =>
    have hexec : exec (.passThroughEntry c) s = execPassThroughEntry c s := rfl
    rw [hexec, execPassThroughEntry, State.on_eq, if_pos ⟨hup, by rw [hrun]; rfl⟩]

/-- Settles O21: what each part latches and sends, by the PLANs that it holds. -/
theorem plansComplete : Obligations.PlansComplete := by
  unfold Obligations.PlansComplete
  refine ⟨fun port c os s hport hears hserves => ?plan, fun h s hup htime => ?hub, ?normal, ?planned, fun h s hup => ?send,
    fun p h k v hn hv hlast => Plant.sendPlan_same hn hv hlast⟩
  case plan =>
    have hexec : exec (.plan port os) s = execPlan port os s := rfl
    rw [hexec, execPlan, State.on_eq]
    dsimp only
    rw [Plant.osTake_hears hears, if_pos rfl, hport]
    simp only [Plant.serving_sendOs, hserves, if_true, Plant.sendOs_cell]
  case hub =>
    have hexec : exec (.planLatch (.hub h)) s = execPlanLatch (.hub h) s := rfl
    rw [hexec, execPlanLatch, State.onUp_up _ hup, if_pos (by omega)]
    rfl
  case normal =>
    intro c s n pos hup htime hpos hrx hown hlearned hn hp hlt
    have hexec : exec (.planLatch (.cell c)) s = execPlanLatch (.cell c) s := rfl
    subst hp
    rw [hexec, execPlanLatch, State.onUp_up _ hup, if_pos (by omega),
      Plant.latchPlans_intact hpos (latchPlan_none hrx hown hlearned (by omega) _ _) rfl (by simp [PlanSt.broken, hown, hlearned]), ← hn,
      segOf_normalSplit, launchOf_normalSplit hlt, Plant.onCell_congr (g := fun e => { e with plan := { e.plan with
        latched := some (normalSplit n) } }) rfl]
    push_cast
    rfl
  case planned =>
    intro c s r pos hup htime hpos hr hbrk hown hlearned hp
    have hexec : exec (.planLatch (.cell c)) s = execPlanLatch (.cell c) s := rfl
    subst hp
    rw [hexec, execPlanLatch, State.onUp_up _ hup, if_pos (by omega),
      Plant.latchPlans_intact hpos (latchPlan_plan hr hbrk hown hlearned _ _) rfl (by simp [PlanSt.broken, hown, hlearned]),
      segOf, launchOf_eq, Plant.onCell_congr (g := fun e => { e with plan := { e.plan with
        rx := e.plan.rx.map (fun x => { x with fresh := false }), latched := some ⟨r.a, r.b, false, r.lh, r.lt, r.form⟩ } }) rfl]
    push_cast
    rfl
  case send =>
    have hexec : exec (.planSend h) s = execPlanSend h s := rfl
    rw [hexec, execPlanSend, State.onUp_up _ hup]

end Sys2Proof
end

section
/-! PROOF. Frames at cells and hubs (08 R213–R218; 09 R230–R241): a frame that a part hears is handled by its TYPE (`Plant.receive_hears`),
and each clause is the branch of that handling that its premises take. -/

namespace Sys2Proof.Machine

/-! ### COMMAND at a cell (09 R233, R234) -/

/-- An arrival epoch that is the latched one leaves the latch. -/
theorem Plant.takeEpoch_same {p : Plant} {c : CellId} {e : Nat} (h : p.getN (.cell c) K.redAepochLatched = e) (h0 : e ≠ 0) :
    p.takeEpoch c e = (true, p) := by
  have hnewer : epochNewer e e = false := by simp [epochNewer]
  simp [Plant.takeEpoch, h, h0, hnewer]

theorem Plant.noteMargin_cell (p : Plant) (c d : CellId) (k : Nat) : (p.noteMargin c k).cell d = p.cell d := by
  unfold Plant.noteMargin
  dsimp only
  split <;> rfl

theorem Plant.noteMargin_margin (p : Plant) (c : CellId) (k j : Nat) : (p.noteMargin c k).margin c j = p.margin c j := by
  unfold Plant.noteMargin
  dsimp only
  split
  · simp [Plant.margin, Plant.now256, Plant.nowU]
  · rfl

/-- A COMMAND of the epoch latched, for an apply instant that has no command yet, is filed (09 R234). -/
theorem Plant.cellCommand_files {p : Plant} {c : CellId} {l k b : Nat} {f : Frame} (hlocked : p.locked (.cell c) = true)
    (htgen : (p.cell c).hasTgen = true) (hepoch : p.getN (.cell c) K.redAepochLatched = bits f.hdr.toNat 39 24)
    (hnonzero : bits f.hdr.toNat 39 24 ≠ 0) (hseq : p.seqCycle c (bits f.hdr.toNat 47 40) = some k) (hmargin : 60 * 256 ≤ p.margin c k)
    (hnew : (p.cell c).filed.find? (fun g => g.k == k) = none) :
    p.cellCommand c l f b = (p.noteMargin c k).onCell c (fun e => { e with filed := e.filed ++
      [{ k := k, cmd := slotCmd b k, epoch := bits f.hdr.toNat 39 24, stale := false }] }) := by
  unfold Plant.cellCommand
  simp only [hlocked, htgen, Bool.not_true, Bool.false_eq_true, or_self, if_false, Plant.takeEpoch_same hepoch hnonzero, hseq,
    Plant.noteMargin_margin, Int.not_lt.2 hmargin, Plant.fileCmd, Plant.noteMargin_cell, hnew]

/-- A good COMMAND with a valid slot of the generation latched for a serving cell acts and goes on (08 R208). -/
theorem Plant.commandAtCell_own {p : Plant} {c : CellId} {l i : Nat} {f : Frame} {b : Block} (hserves : p.serving (.cell c) = true)
    (hseq : (p.seqCycle c (bits f.hdr.toNat 47 40)).isNone = false) (hpos : (p.cell c).posKnown = true)
    (hslot : slotIndex (bitOf f.hdr.toNat 50) (bits f.hdr.toNat 15 10) (bits f.hdr.toNat 9 4) (p.getN (.cell c) K.stringPos) = some i)
    (hb : f.data[i]? = some b) (hvalid : slotValid b.toNat (bits f.hdr.toNat 47 40) = true) (hgen : p.superseded c f = false)
    (hlast : lastPos (bitOf f.hdr.toNat 50) (bits f.hdr.toNat 15 10) (bits f.hdr.toNat 9 4) ≠ (p.getN (.cell c) K.stringPos : Int)) :
    p.commandAtCell c l f true = (p.cellCommand c l f b.toNat).cellForward c l f := by
  unfold Plant.commandAtCell
  simp only [hserves, hseq, hpos, hslot, hb, hvalid, hgen, hlast, Option.bind_some, if_true, Bool.not_true, Bool.false_eq_true, and_false,
    if_false, Bool.and_false]

/-- A new TRIP at a cell that is not FIRED holds its outputs low (09 R241). -/
theorem Plant.tripAtCell_new {p y : Plant} {c : CellId} {tseq : Nat}
    (hy : y = ((p.put (.cell c) K.tamTgenLatched tseq).onCell c (fun e => { e with tripRx := true })).capEvent c 5)
    (hnew : (y.cell c).tripSeen ≠ some tseq) (hfired : y.fired c = false) :
    p.tripAtCell c tseq = ((y.put (.cell c) K.swBench 0).onCell c (fun e => { e with
      tripSeen := some tseq, tripHold := true, filed := e.filed.map (fun g => { g with stale := true }) })).holdLow c 0 := by
  unfold Plant.tripAtCell
  simp only [← hy, if_neg hnew, Plant.fired_onCell, Plant.fired_put (show K.bypStatus ≠ K.swBench by decide), hfired, Bool.false_eq_true,
    if_false]

/-- The count of ABORT blocks leaves every lane's state. -/
theorem Plant.laneUp_aborts (p : Plant) (q r : Part) (m l n : Nat) : (p.bump q (tamKey m 7) n).laneUp r l = p.laneUp r l := by
  have hkey : laneKey l 2 ≠ tamKey m 7 := by
    unfold laneKey tamKey
    omega
  simp only [Plant.laneUp, Plant.laneState, Plant.getN_bump_other hkey]

end Sys2Proof.Machine

namespace Sys2Proof

open Sys2Proof.Machine

/-- Settles O22, each frame by the branch that its premises take. -/
theorem cellFramesComplete : Obligations.CellFramesComplete := by
  unfold Obligations.CellFramesComplete
  refine ⟨?command, ?collect, ?trip, fun c s pos hserves hlaunch hpos hplan => ?head, fun c s pos v b hserves hlaunch hpos hplan hb => ?headForm,
    fun c s pos n v b hserves hlaunch hpos hn hplan hb => ?tail, fun port c s hport hlane hup => ?abort⟩
  case command =>
    intro port c f s x i k b hport hears hgood hx hserves hlocked htgen hpos hslot hb hvalid hlast hgen hepoch hnonzero hseq hmargin hnew
    have hexec : exec (.command port f) s = execCommand port f s := rfl
    have hsuper : x.superseded c f = false := by
      simp [Plant.superseded, hgen]
    rw [hexec, execCommand, State.on_eq]
    dsimp only
    rw [Plant.receive_hears hears (by decide), ← hx, hgood, hport]
    simp only [decide_true]
    rw [Plant.commandAtCell_own hserves (by rw [hseq]; rfl) hpos hslot hb hvalid hsuper hlast,
      Plant.cellCommand_files hlocked htgen hepoch hnonzero hseq hmargin hnew]
  case collect =>
    intro port c f s x i hport hears hx hserves hpos hcycle hslot
    have hexec : exec (.collect port f) s = execCollect port f s := rfl
    have hseq : ¬ (x.knowsCycle (.cell c) = true ∧ bits f.hdr.toNat 47 40 ≠ (x.schedNow (.cell c)).k % 256) :=
      fun h => h.2 (hcycle h.1)
    rw [hexec, execCollect, State.on_eq]
    dsimp only
    rw [Plant.receive_hears hears (by decide), ← hx, hport]
    simp only [Plant.collectAtCell, hserves, Bool.not_true, Bool.false_eq_true, if_false, if_neg hseq, hpos, if_true, hslot]
  case trip =>
    intro port c f s x y hport hears hgood hx hserves hy hnew hfired
    have hexec : exec (.trip port f) s = execTrip port f s := rfl
    rw [hexec, execTrip, State.on_eq]
    dsimp only
    rw [Plant.receive_hears hears (by decide), hgood, hport]
    simp only [decide_true]
    rw [← hx, if_pos ⟨trivial, hserves⟩, Plant.tripAtCell_new hy hnew hfired]
  case head =>
    have hexec : exec (.collectLaunch c) s = execCollectLaunch c s := rfl
    subst hpos
    rw [hexec, execCollectLaunch, State.on_eq]
    simp [hserves, hlaunch, hplan]
  case headForm =>
    have hexec : exec (.collectLaunch c) s = execCollectLaunch c s := rfl
    subst hpos hb
    rw [hexec, execCollectLaunch, State.on_eq]
    simp [hserves, hlaunch, hplan]
  case tail =>
    have hexec : exec (.collectLaunch c) s = execCollectLaunch c s := rfl
    subst hpos hb hn
    rw [hexec, execCollectLaunch, State.on_eq]
    simp [hserves, hlaunch, hplan]
  case abort =>
    have hexec : exec (.abortBlock port) s = execAbortBlock port s := rfl
    rw [hexec, execAbortBlock, State.on_eq, hport]
    simp [hup, hlane, Plant.laneUp_aborts, Plant.abortOnward]

/-- Settles O23, each frame by the branch that its premises take. -/
theorem hubFramesComplete : Obligations.HubFramesComplete := by
  unfold Obligations.HubFramesComplete
  refine ⟨?command, fun port h f s x hport hlane hears hx hcycle hform => ?collect, fun port h f s x hport hlane hears hgood hx htakes => ?trip,
    fun h lane s hup heven hform hbegun => ?emptyHead, fun h lane s hup hodd hform hbegun => ?emptyTail,
    fun port h s hport hlane heven hlaneUp hup hbegun => ?abort⟩
  case command =>
    intro port h f s x v hport hlane hears hx htakes hwindow hstring hstrings hplan hcut hfirst hlast
    have hexec : exec (.command port f) s = execCommand port f s := rfl
    have hmin : min v.a f.data.length = v.a := Nat.min_eq_left hlast.le
    rw [hexec, execCommand, State.on_eq]
    dsimp only
    rw [Plant.receive_hears hears (by decide), ← hx, hport]
    simp only [Nat.not_lt.2 hlane, if_false, htakes, hwindow, if_true]
    have hout : ¬ (bits f.hdr.toNat 23 16 / 24 ≠ h.val ∨ 192 ≤ bits f.hdr.toNat 23 16) := by omega
    unfold Plant.hubCommand
    simp only [if_neg hout, hplan, ← hcut, hmin, max_self, lt_self_iff_false, if_false, hfirst.ne', hlast.ne]
  case collect =>
    have hexec : exec (.collect port f) s = execCollect port f s := rfl
    have hseq : ¬ (x.knowsCycle (.hub h) = true ∧ bits f.hdr.toNat 47 40 ≠ (x.schedNow (.hub h)).k % 256) :=
      fun h => h.2 (hcycle h.1)
    rw [hexec, execCollect, State.on_eq]
    dsimp only
    rw [Plant.receive_hears hears (by decide), ← hx, hport]
    simp only [Nat.not_le.2 hlane, if_false, if_neg hseq]
    unfold Plant.hubCollect
    have hfull : ¬ (x.hub h).form = 3 := by omega
    simp only [hfull, false_and, if_false, Nat.not_le.2 hform]
  case trip =>
    have hexec : exec (.trip port f) s = execTrip port f s := rfl
    rw [hexec, execTrip, State.on_eq]
    dsimp only
    rw [Plant.receive_hears hears (by decide), hgood, hport]
    simp only [Nat.not_lt.2 hlane, if_false, Plant.tripAtHub, decide_true, if_true]
    rw [← hx, if_pos htakes]
  case emptyHead =>
    have hexec : exec (.emptyFrameEnd h lane) s = execEmptyFrameEnd h lane s := rfl
    rw [hexec, execEmptyFrameEnd, State.onUp_up _ hup]
    simp [heven, hbegun, Nat.not_le.2 hform]
  case emptyTail =>
    have hexec : exec (.emptyFrameEnd h lane) s = execEmptyFrameEnd h lane s := rfl
    rw [hexec, execEmptyFrameEnd, State.onUp_up _ hup]
    simp [hodd, hbegun, Nat.not_le.2 hform]
  case abort =>
    have hexec : exec (.abortBlock port) s = execAbortBlock port s := rfl
    rw [hexec, execAbortBlock, State.on_eq, hport]
    have hport' : (s.plant.bump (.hub h) (tamKey port.lane.val 7) 1).hubPort h (port.lane.val / 2) = s.plant.hubPort h (port.lane.val / 2) := rfl
    simp [hup, hlaneUp, Nat.not_le.2 hlane, Plant.cutEnd, heven, hport', hbegun]

end Sys2Proof
end

section
/-! PROOF. Landing and the arbiter (09 R240, R251, R254, R255). -/

namespace Sys2Proof.Machine

/-! ### slot.switch_at (09 R251) -/

/-- The key of switch_at of a table. -/
def switchAtKey (t : Nat) : Nat := (0x3A10 + t) * 256 + 0x22

theorem slotSwitchAt_key : K.slotSwitchAt = switchAtKey 0 := by decide

theorem isWriteOnly_switchAt_cvc : ∀ t : Fin 4, (tablesOf 0).contains t.val = true → isWriteOnly 0 (switchAtKey t.val) 4 = true := by decide

theorem isWriteOnly_switchAt_hub : ∀ t : Fin 4, (tablesOf 1).contains t.val = true → isWriteOnly 1 (switchAtKey t.val) 4 = true := by decide

theorem isWriteOnly_switchAt_cell : ∀ t : Fin 4, (tablesOf 2).contains t.val = true → isWriteOnly 2 (switchAtKey t.val) 4 = true := by decide

/-- A part holds switch_at of each of its tables. -/
theorem isWriteOnly_switchAt {q : Part} {t : Fin 4} (h : (tablesOf q.kind).contains t.val = true) :
    isWriteOnly q.kind (switchAtKey t.val) 4 = true := by
  cases q with
  | cvc => exact isWriteOnly_switchAt_cvc t h
  | hub a => exact isWriteOnly_switchAt_hub t h
  | cell c => exact isWriteOnly_switchAt_cell t h

theorem Plant.act_switchAt (p : Plant) (q : Part) (rid v : Nat) (t : Fin 4) :
    p.act q rid (switchAtKey t.val) v = (0, p.switchAt q t.val v) := by
  have ht := t.isLt
  have hi : switchAtKey t.val / 256 = 0x3A10 + t.val := by unfold switchAtKey; omega
  have hother : ∀ k, 0x400000 ≤ k → switchAtKey t.val ≠ k := by
    intro k hk
    unfold switchAtKey
    omega
  simp only [Plant.act]
  rw [if_neg (hother _ (by decide)), if_neg (hother _ (by decide)), if_neg (hother _ (by decide)), if_neg (hother _ (by decide)),
    if_neg (hother _ (by decide)), if_neg (hother _ (by decide)), hi, if_neg (by omega), if_pos (by omega), Nat.add_sub_cancel_left]

theorem Plant.switchAt_power (p : Plant) (q : Part) (t v : Nat) (r : Part) : ((p.switchAt q t v).node r).power = (p.node r).power := by
  rw [Plant.switchAt, Plant.node_onNode]
  split
  · next h => rw [h]; exact Plant.put_power ..
  · exact Plant.put_power ..

/-- A service WRITE of switch_at of a table. -/
theorem State.rowWrite_switchAt {s : State} {q : Part} {t : Fin 4} {v : BitVec 32} (htable : (tablesOf q.kind).contains t.val = true)
    (h : s.plant.acceptsAt q (switchAtKey t.val) (beBytes 4 v.toNat) = true) :
    s.rowWrite (.service q) (switchAtKey t.val) v.toNat = { s with plant := s.plant.switchAt q t.val v.toNat } := by
  have hrow := isWriteOnly_switchAt htable
  simp only [isWriteOnly, Bool.and_eq_true, beq_iff_eq] at hrow
  obtain ⟨hsize, hwo⟩ := hrow
  have hv : v.toNat < 256 ^ 4 := by have := v.isLt; omega
  refine State.rowWrite_service hsize h ?_ ?_
  · rw [Plant.applyWrite_wo hwo, rawVal_beBytes (by decide) hv, Plant.act_switchAt]
  · rw [Plant.switchAt_power, Plant.acceptsAt_soft h]

/-- An owner's write of switch_at of the CVC's one table. -/
theorem State.hostWrite_switchAt {s : State} {r : Req} {v : BitVec 32}
    (h : s.plant.accepts r (switchAtKey 0) (beBytes 4 v.toNat) = true) :
    s.hostWrite r (switchAtKey 0) v.toNat = { s with
      plant := s.plant.answered r (switchAtKey 0) (beBytes 4 v.toNat) (fun p => p.switchAt .cvc 0 v.toNat) } := by
  have hrow : isWriteOnly 0 (switchAtKey 0) 4 = true := by decide
  simp only [isWriteOnly, Bool.and_eq_true, beq_iff_eq] at hrow
  obtain ⟨hsize, hwo⟩ := hrow
  have hv : v.toNat < 256 ^ 4 := by have := v.isLt; omega
  refine State.hostWrite_act hsize hwo (by decide) hv h (fun p => p.act_switchAt .cvc _ _ 0) (fun p hp => ?_)
  rw [Plant.switchAt_power, hp]

/-- A frame that the CVC hears on one of its lanes names the lane. -/
theorem Port.eq_cvc {port : Port} {n : Nat} {lane : Fin n} (hpart : port.part = .cvc) (hlane : port.lane.val = lane.val) (hn : n ≤ 52) :
    (⟨.cvc, lane.castLE hn⟩ : Port) = port := by
  cases port with
  | mk q l =>
    cases hpart
    exact congrArg (Port.mk .cvc) (Fin.ext hlane.symm)

end Sys2Proof.Machine

namespace Sys2Proof

open Sys2Proof.Machine

/-- Settles O24: landing and the arbiter by their branches, and switch_at as a write of a table's command object. -/
theorem laneTrafficCompletes : Obligations.LaneTrafficCompletes := by
  unfold Obligations.LaneTrafficCompletes
  refine ⟨?land, fun port f s x hup hx hgrant hwaits hagain => ?grant, fun port t f s htrip hsends hty => ?preempt,
    fun q t v s htable h => ?switchAt,
    fun r v s h => ?switchAtHost⟩
  case land =>
    intro lane f s port x k hpart hlane hup hears hgood hx hcycle hstring hnonempty
    have hexec : exec (.collectLand lane f) s = execCollectLand lane f s := rfl
    rw [hexec, execCollectLand, State.onUp_up _ hup]
    dsimp only
    rw [Port.eq_cvc hpart hlane, Plant.receive_hears hears (by decide), ← hx, hgood]
    simp [hcycle, Nat.not_le.2 hstring, hnonempty]
  case grant =>
    have hexec : exec (.arbiterGrant port) s = execArbiterGrant port s := rfl
    rw [hexec, execArbiterGrant, State.on_eq]
    dsimp only
    rw [Plant.onLane_laneUp, hup, Bool.not_true, if_neg Bool.false_ne_true, ← hx, hgrant]
    simp only [hwaits, hagain, ne_eq, reduceCtorEq, not_false_eq_true, or_true, and_self, if_true]
  case preempt =>
    have hexec : exec (.tripPreempt port) s = execTripPreempt port s := rfl
    rw [hexec, execTripPreempt, State.on_eq]
    simp only [htrip, hsends, if_neg hty]
  case switchAt => exact congrArg _ (State.rowWrite_switchAt htable h)
  case switchAtHost =>
    have hexec : exec (.slotSwitchAt (.host r) 0 v) s = .next (s.hostWrite r K.slotSwitchAt v.toNat) := rfl
    rw [slotSwitchAt_key] at h hexec ⊢
    rw [hexec, State.hostWrite_switchAt h]
    rfl

end Sys2Proof
end

section
/-! PROOF. A service request at a cell whose other bank is due (09 R243, R251). Before it serves the request the cell puts the bank in force that
has been due since its last boundary, so that the state after a READ is not the one that the frame and its answer alone give. -/

namespace Sys2Proof.Machine

/-- The first cell of the first string. -/
def firstCell : CellId := ⟨0, 0⟩

/-- `slot.pending` of a cell's table (09 R251). -/
def cellBankPending : Nat := (0x3A10 + 3) * 256 + 0x23

/-- The first cell runs, its first lane is in L0, it knows its position, and a switch of its table named the present cycle. -/
def bankDue : State := { State.reset with
  plant := (((State.reset.plant.onNode (.cell firstCell) (fun n => { n with
    power := { n.power with core := true, held := false, rails := true } })).put (.cell firstCell) (laneKey 0 2) 2).onCell firstCell
      (fun e => { e with posKnown := true })).put (.cell firstCell) cellBankPending 1 }

/-- A READ of `nrg.state` of that cell, on its first lane. -/
def readsLedger : Frame := svcRequest 0 1 4096 K.nrgState 0 []

/-- What `slot.pending` of the first cell shows after a command. -/
def bankPendingAfter : Host.Outcome State Fault Refusal → Option Nat
  | .next s => some (s.plant.getN (.cell firstCell) cellBankPending)
  | _ => none

set_option maxRecDepth 20000 in
/-- The READ puts the bank in force. -/
theorem bankPendingAfter_read : bankPendingAfter (exec (.serviceRead ⟨.cell firstCell, 0⟩ readsLedger) bankDue) = some 0 := by decide

set_option maxRecDepth 20000 in
/-- Sending a frame leaves every scalar object but the count of dropped frames. -/
theorem bankPendingAfter_send (l : Nat) (f : Frame) :
    ((bankDue.plant.heard ⟨.cell firstCell, 0⟩ readsLedger).send (.cell firstCell) l f).getN (.cell firstCell) cellBankPending = 1 := by
  have hheard : (bankDue.plant.heard ⟨.cell firstCell, 0⟩ readsLedger).getN (.cell firstCell) cellBankPending = 1 := by decide
  unfold Plant.send
  split_ifs
  · exact hheard
  · have hkey : cellBankPending ≠ tamKey l 0x0A := by
      unfold cellBankPending tamKey
      omega
    rw [Plant.getN_bump_other hkey, hheard]
  · rw [Plant.onLane_getN, hheard]

end Sys2Proof.Machine

namespace Sys2Proof

open Sys2Proof.Machine

set_option maxRecDepth 20000 in
/-- Refutes O25: a cell whose other bank is due puts it in force as it serves a READ, which the statement's state does not show. -/
theorem not_serviceFramesComplete : ¬ Obligations.ServiceFramesComplete := by
  unfold Obligations.ServiceFramesComplete
  rintro ⟨hread, -⟩
  have hrow : rowOf 2 (svcKey readsLedger) = rowOf 2 K.nrgState := by decide
  obtain ⟨row, hsome⟩ : ∃ row, rowOf 2 K.nrgState = some row := Option.isSome_iff_exists.1 (by decide)
  have hplain : (rowOf 2 K.nrgState).all (fun r => !r.isBlob) = true := by decide
  have hexec := hread ⟨.cell firstCell, 0⟩ firstCell readsLedger bankDue _ row rfl (by decide) (by decide) rfl (by decide) (by decide) (by decide)
    (by decide) (by decide) (by decide) (by decide) (hrow.trans hsome) (by simpa [hsome] using hplain) (by decide)
  have hafter := bankPendingAfter_read
  rw [hexec, bankPendingAfter, bankPendingAfter_send] at hafter
  exact absurd hafter (by decide)

end Sys2Proof
end

section
/-! PROOF. The CVC's side of service frames and discovery (09 R244; 16 R448, R449). -/

namespace Sys2Proof.Machine

@[simp] theorem Plant.strInfo_onStr (p : Plant) (n : Nat) (f : StrInfo → StrInfo) : (p.onStr n f).strInfo n = f (p.strInfo n) :=
  Tab.get_upd_self ..

/-- The end of a pass of a head end counts it, and goes on by whether the string is discovered (16 R448). -/
theorem exec_discoveryPassEnd_head {str : StringNo} {s : State} (hup : s.plant.up .cvc = true) {x : Plant}
    (hx : x = s.plant.onStr str.val (fun i => { i with headPasses := min (i.headPasses + 1) 0xFFFF })) :
    exec (.discoveryPassEnd str 0) s = .next { s with
      plant := if (s.plant.strInfo str.val).found then (x.matchPass str.val 0).noteSilent str.val 0 else x.matchWhole str.val } := by
  have hexec : exec (.discoveryPassEnd str 0) s = execDiscoveryPassEnd str 0 s := rfl
  subst hx
  rw [hexec, execDiscoveryPassEnd, State.onUp_up _ hup]
  simp

theorem exec_discoveryPassEnd_tail {str : StringNo} {s : State} (hup : s.plant.up .cvc = true) {x : Plant}
    (hx : x = s.plant.onStr str.val (fun i => { i with tailPasses := min (i.tailPasses + 1) 0xFFFF })) :
    exec (.discoveryPassEnd str 1) s = .next { s with
      plant := if (s.plant.strInfo str.val).found then (x.matchPass str.val 1).noteSilent str.val 1 else x.matchWhole str.val } := by
  have hexec : exec (.discoveryPassEnd str 1) s = execDiscoveryPassEnd str 1 s := rfl
  subst hx
  rw [hexec, execDiscoveryPassEnd, State.onUp_up _ hup]
  simp

/-- A response that the CVC hears completes what it asked (09 R244). -/
theorem exec_serviceResponse {lane : Fin 18} {f : Frame} {s : State} {port : Port} (hpart : port.part = .cvc)
    (hlane : port.lane.val = lane.val) (hup : s.plant.up .cvc = true) (hears : s.plant.hears port f 5 = true) (hgood : chkState f = .good) :
    exec (.serviceResponse lane f) s = .next { s with plant := (s.plant.heard port f).responseAtCvc f true } := by
  have hexec : exec (.serviceResponse lane f) s = execServiceResponse lane f s := rfl
  rw [hexec, execServiceResponse, State.onUp_up _ hup, Port.eq_cvc hpart hlane, Plant.receive_hears hears (by decide), hgood]
  simp

end Sys2Proof.Machine

namespace Sys2Proof

open Sys2Proof.Machine

/-- Settles O26, each command by the branch that its premises take. -/
theorem cvcServiceCompletes : Obligations.CvcServiceCompletes := by
  unfold Obligations.CvcServiceCompletes
  refine ⟨?answer, ?response, fun tag s r port rid seq inc msg hup hout hwhat => ?timeout, fun s hup hstrap hboot => ?pass,
    fun str s hup hfound => ?headFound, fun str s hup hfound => ?tailFound, fun str s hup hfound => ?head, fun str s hup hfound => ?tail⟩
  case answer =>
    intro lane f s port hpart hlane hup hears hgood hup' hresponse hop hstring hlength hhead
    rw [exec_serviceResponse hpart hlane hup hears hgood]
    simp [Plant.responseAtCvc, hresponse, hup', hop, Plant.takeAnswer, Nat.not_le.2 hstring, hlength, hhead, answerOf]
  case response =>
    intro lane f s port x r hpart hlane hup hears hgood hx hup' hresponse hop hout hsent
    rw [exec_serviceResponse hpart hlane hup hears hgood, ← hx]
    simp [Plant.responseAtCvc, hresponse, hup', hop, Plant.svcArrive, hout, hsent]
  case timeout =>
    have hexec : exec (.serviceTimeout tag) s = execServiceTimeout tag s := rfl
    rw [hexec, execServiceTimeout, State.onUp_up _ hup]
    simp only [hout, Plant.svcEnd, hwhat]
  case pass =>
    have hexec : exec .discoveryPass s = execDiscoveryPass s := rfl
    rw [hexec, execDiscoveryPass, State.onUp_up _ hup]
    simp only [hstrap, hboot, Bool.false_eq_true, or_self, if_false, List.foldl_cons, List.foldl_nil]
  case headFound => rw [exec_discoveryPassEnd_head hup rfl, if_pos hfound]
  case tailFound => rw [exec_discoveryPassEnd_tail hup rfl, if_pos hfound]
  case head => rw [exec_discoveryPassEnd_head hup rfl, hfound, if_neg Bool.false_ne_true]
  case tail => rw [exec_discoveryPassEnd_tail hup rfl, hfound, if_neg Bool.false_ne_true]

end Sys2Proof
end

section
/-! PROOF. Time frames, link delays and ring closure (10 R268–R281). -/

namespace Sys2Proof.Machine

/-- A good SYNC that a cell hears (10 R272). -/
theorem exec_sync_cell {port : Port} {c : CellId} {f : Frame} {tap : Fin 64} {s : State} {x : Plant} (hpart : port.part = .cell c)
    (hears : s.plant.hears port f 4 = true) (hgood : chkState f = .good) (hkind : timeKind f = 0) (hx : x = s.plant.heard port f) :
    exec (.sync port f tap) s = .next { s with plant := x.syncAtCell c port.lane.val f (x.arrival (.cell c) tap) true } := by
  have hexec : exec (.sync port f tap) s = execSync port f tap s := rfl
  rw [hexec, execSync, State.on_eq, Plant.receive_hears hears (by decide), ← hx, hpart]
  simp [hgood, hkind]

/-- A good SYNC_UP that a hub hears (10 R273). -/
theorem exec_syncUp_hub {port : Port} {h : Fin 8} {f : Frame} {tap : Fin 64} {s : State} {x : Plant} (hpart : port.part = .hub h)
    (hears : s.plant.hears port f 4 = true) (hgood : chkState f = .good) (hkind : timeKind f = 1) (hx : x = s.plant.heard port f) :
    exec (.syncUp port f tap) s = .next { s with plant := x.syncAtHub h port.lane.val f (x.arrival (.hub h) tap) true } := by
  have hexec : exec (.syncUp port f tap) s = execSyncUp port f tap s := rfl
  rw [hexec, execSyncUp, State.on_eq, Plant.receive_hears hears (by decide), ← hx, hpart]
  simp [hgood, hkind]

theorem Part.kind_ne_zero {q : Part} (h : q ≠ .cvc) : q.kind ≠ 0 := by
  cases q with
  | cvc => exact absurd rfl h
  | hub h => exact Nat.one_ne_zero
  | cell c => exact OfNat.ofNat_ne_zero 2

/-- A locked part whose frame is in its window raises no violation. -/
theorem Plant.not_out_of_window {p : Plant} {q : Part} {n : Nat} (h : p.locked q = true → p.timeInWindow q n = true) :
    ¬ (p.locked q = true ∧ p.timeInWindow q n = false) := by
  rintro ⟨hlocked, hout⟩
  exact absurd (h hlocked) (by simp [hout])

end Sys2Proof.Machine

namespace Sys2Proof

open Sys2Proof.Machine

/-- Settles O27, each command by the branch that its premises take. -/
theorem timeFramesComplete : Obligations.TimeFramesComplete := by
  unfold Obligations.TimeFramesComplete
  refine ⟨?sync, ?first, ?second, fun s sc hup hsc hvalid => ?sendCvc, fun h s sc own hup hsc hvalid hlocked hown => ?sendHub,
    fun q s h l f rx hup hheld => ?held, fun q s hq hup hstate hheld => ?missed, fun q s hq hup hstate hrun => ?expire,
    fun q s hq hup => ?wrap⟩
  case sync =>
    intro port c f tap s x y rx hpart hears hgood hkind hx hserves hwindow hcal hfwd hrx hy hprimary hnew
    rw [exec_sync_cell hpart hears hgood hkind hx, Plant.syncAtCell]
    simp [hserves, Plant.not_out_of_window hwindow, hcal, hfwd, ← hy, hprimary, hnew, hrx]
  case first =>
    intro port h f tap s x hpart hlane heven hears hgood hkind hx hallegiance hwindow hcal hnew
    rw [exec_syncUp_hub hpart hears hgood hkind hx, Plant.syncAtHub]
    simp [Nat.not_lt.2 hlane, hallegiance, Plant.not_out_of_window hwindow, heven, hcal, hnew, Plant.useSyncUp]
  case second =>
    intro port h f tap s x hpart hlane hodd hears hgood hkind hx hallegiance hwindow hcal hnew hleadUp hleadCal hbad
    rw [exec_syncUp_hub hpart hears hgood hkind hx, Plant.syncAtHub]
    have hlead : port.lane.val / 2 * 2 = port.lane.val - 1 := by omega
    simp [Nat.not_lt.2 hlane, hallegiance, Plant.not_out_of_window hwindow, hodd, hcal, hnew, hlead, hleadUp, hleadCal, hbad]
  case sendCvc =>
    have hexec : exec (.syncSend .cvc) s = execSyncSend .cvc s := rfl
    rw [hexec, execSyncSend, State.onUp_up _ hup]
    simp only [← hsc, hvalid, Bool.not_true, Bool.false_eq_true, if_false]
  case sendHub =>
    have hexec : exec (.syncSend (.hub h)) s = execSyncSend (.hub h) s := rfl
    rw [hexec, execSyncSend, State.onUp_up _ hup]
    simp only [← hsc, hvalid, hlocked, ← hown, Bool.not_true, Bool.false_eq_true, if_false]
  case held =>
    have hexec : exec (.timeFrameMissed q) s = execTimeFrameMissed q s := rfl
    rw [hexec, execTimeFrameMissed, State.onUp_up _ hup]
    simp only [hheld]
  case missed =>
    have hexec : exec (.timeFrameMissed q) s = execTimeFrameMissed q s := rfl
    rw [hexec, execTimeFrameMissed, State.onUp_up _ hup]
    simp [hheld, hstate, Part.kind_ne_zero hq, Plant.cycleMissed]
  case expire =>
    have hexec : exec (.holdoverExpire q) s = execHoldoverExpire q s := rfl
    rw [hexec, execHoldoverExpire, State.onUp_up _ hup, if_pos ⟨Part.kind_ne_zero hq, hstate, hrun⟩]
  case wrap =>
    have hexec : exec (.counterWrap q) s = execCounterWrap q s := rfl
    rw [hexec, execCounterWrap, State.onUp_up _ hup, if_neg (Part.kind_ne_zero hq)]

/-- Settles O28, each command by the branch that its premises take. -/
theorem linkTimingCompletes : Obligations.LinkTimingCompletes := by
  unfold Obligations.LinkTimingCompletes
  refine ⟨fun port s hup hlane hservice => ?send, fun port f tap s x t2 hup hears hgood hkind hx ht2 => ?request,
    fun port f tap s x y hup hears hgood hkind hx hout hy => ?response, ?closure, fun str s hup hlost => ?broken⟩
  case send =>
    have hexec : exec (.delayReqSend port) s = execDelayReqSend port s := rfl
    have hcarries : ¬ (port.part.kind = 0 ∧ s.plant.serviceOnly port.lane.val = true) := by
      rintro ⟨hkind, honly⟩
      by_cases hpart : port.part = .cvc
      · simp [hservice hpart] at honly
      · exact Part.kind_ne_zero hpart hkind
    rw [hexec, execDelayReqSend, State.onUp_up _ hup]
    simp [hlane, hcarries]
  case request =>
    have hexec : exec (.delayReq port f tap) s = execDelayReq port f tap s := rfl
    rw [hexec, execDelayReq, State.onUp_up _ hup, Plant.receive_hears hears (by decide), ← hx]
    simp [hgood, hkind, ht2]
  case response =>
    have hexec : exec (.delayResp port f tap) s = execDelayResp port f tap s := rfl
    rw [hexec, execDelayResp, State.onUp_up _ hup, Plant.receive_hears hears (by decide), ← hx]
    subst hy
    simp [hgood, hkind, hout]
  case closure =>
    intro str s n a b hup hn hcells hlost ha hb hupA hupB hvalA hvalB
    have hexec : exec (.closureRead str) s = execClosureRead str s := rfl
    rw [hexec, execClosureRead, State.onUp_up _ hup]
    simp [← hn, hcells, hlost, ha, hb, hupA, hupB, hvalA, hvalB]
  case broken =>
    have hexec : exec (.closureRead str) s = execClosureRead str s := rfl
    rw [hexec, execClosureRead, State.onUp_up _ hup]
    simp [hlost]

end Sys2Proof
end

section
/-! PROOF. The precision time protocol and the calendar (10 R284–R288). -/

namespace Sys2Proof.Machine

theorem Plant.c_cPut_other {p : Plant} {key k : Nat} {v : Int} (h : k ≠ key) : (p.cPut key v).c k = p.c k := by
  rw [Plant.c_cPut, if_neg h]

theorem Plant.conv_cPut {p : Plant} {key : Nat} {v : Int} (h : K.convState ≠ key) : (p.cPut key v).conv = p.conv := by
  simp [Plant.conv, Plant.c_cPut_other h]

theorem Plant.get_cPut_other {p : Plant} {key k : Nat} {v : Int} (h : k ≠ key) : (p.cPut key v).get .cvc k = p.get .cvc k :=
  Plant.get_put_other h p .cvc .cvc v

@[simp] theorem Plant.cPut_sched {p : Plant} {q : Part} {key : Nat} {v : Int} :
    ((p.cPut key v).node q).sched = (p.node q).sched := Plant.put_sched ..

@[simp] theorem Plant.cPut_clock {p : Plant} {q : Part} {key : Nat} {v : Int} :
    ((p.cPut key v).node q).clock = (p.node q).clock := Plant.put_clock ..

/-- What the CVC notes of every offset from the master before it disciplines anything (10 R286). -/
def Plant.noteOffset (p : Plant) (off : Int) : Plant :=
  ((p.cPut K.timePtpOffset (clampI (-2147483648) 2147483647 off)).cPut K.timePtpState 9).onCvc (fun v =>
    { v with ptp := { v.ptp with waitFup := false, offsetSeen := true } })

theorem Plant.c_noteOffset {p : Plant} {off : Int} {k : Nat} (h : k ≠ K.timePtpOffset) (h' : k ≠ K.timePtpState) :
    (p.noteOffset off).c k = p.c k := by
  rw [Plant.noteOffset, Plant.onCvc_c, Plant.c_cPut_other h', Plant.c_cPut_other h]

theorem Plant.conv_noteOffset (p : Plant) (off : Int) : (p.noteOffset off).conv = p.conv := by
  rw [Plant.conv, Plant.c_noteOffset (by decide) (by decide), Plant.noteOffset, Plant.onCvc_up, Plant.cPut_up, Plant.cPut_up, Plant.conv]

/-- Where PTP is not the time source, an offset is noted and no more. -/
theorem Plant.ptpApply_noted {p : Plant} {off : Int} (h : p.c K.timeSource ≠ 1) : p.ptpApply off = p.noteOffset off := by
  have hsource : (p.noteOffset off).c K.timeSource ≠ 1 := by rwa [Plant.c_noteOffset (by decide) (by decide)]
  rw [Plant.ptpApply, ← Plant.noteOffset, if_pos (.inl hsource)]

/-- Where PTP is the time source of a CVC past STARTING, a small offset slews the clock and a great one sets the calendar. -/
theorem Plant.ptpApply_disciplines {p x : Plant} {off : Int} (hsource : p.c K.timeSource = 1) (hrole : p.c K.redRole ≠ 2)
    (hconv : 2 ≤ p.conv) (hx : x = (p.noteOffset off).cPut K.timeState 2) :
    p.ptpApply off = if off.natAbs ≤ x.c K.timePtpStepThr then
        let r := servoClock (x.node .cvc).clock x.tick (-off * 256) (x.c K.timeCvcSlew * 256 / 1000) x.tc
        let y := (x.onNode .cvc (fun n => { n with clock := r.1 })).cPut K.timeRate (ratePpb r.1.rho)
        if r.2 then (y.bump .cvc K.timeSlewLim 1).raise .cvc 85 0 else y
      else x.onCvc (fun v => { v with ptp := { v.ptp with calDue := true, calK := x.get .cvc K.timeCalOffset - off } }) := by
  have hserves : ¬ ((p.noteOffset off).c K.timeSource ≠ 1 ∨ (p.noteOffset off).c K.redRole = 2) := by
    rw [Plant.c_noteOffset (by decide) (by decide), Plant.c_noteOffset (by decide) (by decide)]
    simp [hsource, hrole]
  have hstarted : ¬ (x.conv = 1 ∧ (!(x.node .cvc).sched.valid) = true) := by
    rw [hx, Plant.conv_cPut (by decide), Plant.conv_noteOffset]
    omega
  rw [Plant.ptpApply, ← Plant.noteOffset, if_neg hserves, ← hx, if_neg hstarted]

/-- A one-step Sync that the CVC hears (10 R284). -/
theorem exec_ptpSync_oneStep {port : HostPort} {offset : BitVec 64} {s : State} (hup : s.plant.up .cvc = true)
    (hears : s.plant.ptpHears port = true) :
    exec (.ptpSync port offset false) s = .next { s with plant := s.plant.ptpApply offset.toInt } := by
  have hexec : exec (.ptpSync port offset false) s = execPtpSync port offset false s := rfl
  rw [hexec, execPtpSync, State.onUp_up _ hup]
  simp [hears]

end Sys2Proof.Machine

namespace Sys2Proof

open Sys2Proof.Machine

/-- Settles O29, each command by the branch that its premises take, and CAL_APPLY by the write of the owner that it is. -/
theorem ptpCompletes : Obligations.PtpCompletes := by
  unfold Obligations.PtpCompletes
  refine ⟨?announce, fun port offset s hup hears hsource => ?noted, ?slewed, ?set, fun port offset s hup hears => ?twoStep,
    fun port offset s hup hears hwait hsource => ?followUp, fun port id seq s hup hport => ?pdelay, fun port s hup => ?ignored,
    fun s hup hsource hstate hfirst hbackup => ?timeout, fun r s h => ?apply⟩
  case announce =>
    intro port m s hup hdomain hport hactive hbest hutc hsource
    have hexec : exec (.ptpAnnounce port m) s = execPtpAnnounce port m s := rfl
    have hinUse : s.plant.ptpPort = port.val := by rw [Plant.ptpPort, if_pos hactive, hport]
    rw [hexec, execPtpAnnounce, State.onUp_up _ hup]
    simp [hdomain, hport, hinUse, hbest, hutc, Plant.c_cPut_other (k := K.timeSource) (key := K.timePtpState) (by decide),
      Plant.c_cPut_other (k := K.timeSource) (key := K.timePtpGm) (by decide),
      Plant.c_cPut_other (k := K.timeSource) (key := K.timePtpActive) (by decide), hsource]
  case noted => rw [exec_ptpSync_oneStep hup hears, Plant.ptpApply_noted hsource, Plant.noteOffset]
  case slewed =>
    intro port offset s x hup hears hsource hrole hconv hsmall hslew hx
    rw [exec_ptpSync_oneStep hup hears, Plant.ptpApply_disciplines hsource hrole hconv hx]
    have hthreshold : x.c K.timePtpStepThr = s.plant.c K.timePtpStepThr := by
      rw [hx, Plant.c_cPut_other (by decide), ← Plant.noteOffset, Plant.c_noteOffset (by decide) (by decide)]
    have hlimit : x.c K.timeCvcSlew = s.plant.c K.timeCvcSlew := by
      rw [hx, Plant.c_cPut_other (by decide), ← Plant.noteOffset, Plant.c_noteOffset (by decide) (by decide)]
    have hclock : (x.node .cvc).clock = (s.plant.node .cvc).clock := by simp [hx]
    have htick : x.tick = s.plant.tick := by simp [hx]
    have htc : x.tc = s.plant.tc := by simp [hx, Plant.tc]
    rw [hthreshold, if_pos hsmall, hlimit, hclock, htick, htc]
    simp only [hslew, Bool.false_eq_true, if_false]
  case set =>
    intro port offset s hup hears hsource hrole hconv hgreat
    rw [exec_ptpSync_oneStep hup hears, Plant.ptpApply_disciplines hsource hrole hconv rfl, Plant.c_cPut_other (by decide),
      Plant.c_noteOffset (by decide) (by decide), if_neg (Nat.not_le.2 hgreat), Plant.get_cPut_other (by decide), Plant.noteOffset,
      Plant.onCvc_get, Plant.get_cPut_other (by decide), Plant.get_cPut_other (by decide)]
  case twoStep =>
    have hexec : exec (.ptpSync port offset true) s = execPtpSync port offset true s := rfl
    rw [hexec, execPtpSync, State.onUp_up _ hup]
    simp [hears]
  case followUp =>
    have hexec : exec (.ptpFollowUp port offset) s = execPtpFollowUp port offset s := rfl
    rw [hexec, execPtpFollowUp, State.onUp_up _ hup, if_pos ⟨hears, hwait⟩, Plant.ptpApply_noted hsource, Plant.noteOffset]
  case pdelay =>
    have hexec : exec (.pdelayReq port id seq) s = execPdelayReq port id seq s := rfl
    rw [hexec, execPdelayReq, State.onUp_up _ hup, if_pos hport]
  case ignored =>
    have hexec : exec (.ptpManagement port) s = execPtpManagement port s := rfl
    rw [hexec, execPtpManagement, State.onUp_up _ hup]
  case timeout =>
    have hexec : exec .announceTimeout s = execAnnounceTimeout s := rfl
    have hinUse : ∀ f : Cvc → Cvc, (s.plant.onCvc f).ptpPort = s.plant.c K.timePtpPort := fun _ => hfirst
    rw [hexec, execAnnounceTimeout, State.onUp_up _ hup]
    simp [hinUse, hbackup, Plant.c_cPut_other (k := K.timeSource) (key := K.timePtpActive) (by decide),
      Plant.c_cPut_other (k := K.timeSource) (key := K.timePtpState) (by decide), hsource,
      Plant.c_cPut_other (k := K.timeState) (key := K.timePtpActive) (by decide),
      Plant.c_cPut_other (k := K.timeState) (key := K.timePtpState) (by decide), hstate]
  case apply => exact congrArg _ (State.hostWrite_command (by decide) (by decide) (by decide) h (fun _ => rfl) (fun _ => rfl))

end Sys2Proof
end

section
/-! PROOF. The Rind's channels (11 R293–R317). -/

namespace Sys2Proof.Machine

/-- A channel that is off or starting evaluates nothing, and forgets what it had found. -/
theorem Plant.evalChan_off {p : Plant} {ch k : Nat} (h : p.chRuns ch = false) :
    p.evalChan ch k = (none, p.onChan ch (fun c =>
      { c with iArm := [], iPrev := [], wArm := [], hi := [], lo := [], dirRun := [], powRun := [] })) := by
  rw [Plant.evalChan, if_pos (.inl (by rw [h, Bool.not_false]))]

/-- Two channels that do not both run are not compared (R299). -/
theorem Plant.crossCompare_off {p : Plant} (h : p.chRuns 0 = false) : p.crossCompare = p := by
  rw [Plant.crossCompare, if_pos (.inl (by rw [h, Bool.false_and, Bool.not_false]))]

/-- RIND_EVALUATION by what the channels find. -/
theorem exec_rindEvaluation {s : State} {ca cb : Option Nat} {x y : Plant} (hup : s.plant.up .cvc = true)
    (ha : s.plant.evalChan 0 s.plant.k = (ca, x)) (hb : x.evalChan 1 x.k = (cb, y)) :
    exec .rindEvaluation s = .next { s with
      plant := (match ca, cb with
        | some c, some _ => y.crossCompare.trip 3 c 96
        | some c, none => y.crossCompare.rindTrip 0 c
        | none, some c => y.crossCompare.rindTrip 1 c
        | none, none => y.crossCompare).mirrorRefresh } := by
  have hexec : exec .rindEvaluation s = execRindEvaluation s := rfl
  rw [hexec, execRindEvaluation, State.onUp_up _ hup]
  cases ca <;> cases cb <;> simp only [ha, hb]

end Sys2Proof.Machine

namespace Sys2Proof

open Sys2Proof.Machine

/-- Settles O30, each command by the branch that its premises take. -/
theorem rindCompletes : Obligations.RindCompletes := by
  unfold Obligations.RindCompletes
  refine ⟨fun s hup ha hb => ?idle, ?none, fun s a b x y hup ha hb => ?both, fun s a x y hup ha hb => ?first, fun s b x y hup ha hb => ?second,
    ?filter, fun ch s hup htrip => ?crosslink, fun ch s hup hruns => ?heartbeat, fun s hup => ?clock,
    fun ch s hup hstate => ?readback, fun ch s hup hstate hconv hclear => ?clear, ?hold, fun s hup hconv => ?degraded,
    fun ch crc s hup hruns hcrc => ?scan, fun input s hup hrole => ?modulator⟩
  case idle =>
    rw [exec_rindEvaluation hup (Plant.evalChan_off ha) (Plant.evalChan_off hb)]
    dsimp only
    rw [Plant.crossCompare_off]
    exact ha
  case none =>
    intro s ca cb x y hup ha hb hca hcb
    subst hca hcb
    rw [exec_rindEvaluation hup ha hb]
  case both => rw [exec_rindEvaluation hup ha hb]
  case first => rw [exec_rindEvaluation hup ha hb]
  case second => rw [exec_rindEvaluation hup ha hb]
  case filter =>
    intro input code s hup hrole hstate hhigh hlow
    have hexec : exec (.safetyFilterOutput input code false) s = execSafetyFilterOutput input code false s := rfl
    have hin : ¬ (s.plant.inRole (input.val / 8) (input.val % 8) = 0 ∨ s.plant.chState (input.val / 8) = 0) := by omega
    have hcurrent : ¬ (s.plant.inRole (input.val / 8) (input.val % 8) = 1 ∨ s.plant.inRole (input.val / 8) (input.val % 8) = 2) := by
      omega
    rw [hexec, execSafetyFilterOutput, State.onUp_up _ hup]
    dsimp only
    rw [if_neg hin, if_neg (by simp [hhigh, hlow] : ¬ (false = true ∨ code.toInt = puOne ∨ code.toInt = -puOne)),
      if_neg (fun h => hcurrent h.1)]
  case crosslink =>
    have hexec : exec (.crosslinkTrip ch) s = execCrosslinkTrip ch s := rfl
    rw [hexec, execCrosslinkTrip, State.onUp_up _ hup, if_pos htrip]
  case heartbeat =>
    have hexec : exec (.heartbeatLoss ch) s = execHeartbeatLoss ch s := rfl
    rw [hexec, execHeartbeatLoss, State.onUp_up _ hup, hruns]
    rfl
  case clock =>
    have hexec : exec (.clockCompare true 0) s = execClockCompare true 0 s := rfl
    rw [hexec, execClockCompare, State.onUp_up _ hup]
    rfl
  case readback =>
    have hexec : exec (.readbackMismatch ch) s = execReadbackMismatch ch s := rfl
    rw [hexec, execReadbackMismatch, State.onUp_up _ hup, if_neg hstate]
  case clear =>
    have hexec : exec (.faultClearTimeout ch) s = execFaultClearTimeout ch s := rfl
    rw [hexec, execFaultClearTimeout, State.onUp_up _ hup, if_pos ⟨hstate, hconv, hclear⟩]
  case hold =>
    intro ch s hup hconv hstate hbreach hother hboth
    have hexec : exec (.tripHoldExpire ch) s = execTripHoldExpire ch s := rfl
    rw [hexec, execTripHoldExpire, State.onUp_up _ hup]
    simp [hconv, hstate, hbreach, hother, hboth]
  case degraded =>
    have hexec : exec .degradedTimeout s = execDegradedTimeout s := rfl
    rw [hexec, execDegradedTimeout, State.onUp_up _ hup, if_pos hconv]
  case scan =>
    have hexec : exec (.parameterStoreScan ch crc) s = execParameterStoreScan ch crc s := rfl
    rw [hexec, execParameterStoreScan, State.onUp_up _ hup, if_pos ⟨hruns, hcrc⟩]
  case modulator =>
    have hexec : exec (.modulatorClockLost input) s = execModulatorClockLost input s := rfl
    rw [hexec, execModulatorClockLost, State.onUp_up _ hup, if_pos hrole]

end Sys2Proof
end

section
/-! PROOF. Command objects that a write acts on, of any part, and of which the act depends on what the request leaves. -/

namespace Sys2Proof.Machine

/-- A service write of a write-only number that a part holds: it acts. -/
theorem State.rowWrite_writeOnly {s : State} {q : Part} {key n v : Nat} {x : Nat × Plant} (hrow : isWriteOnly q.kind key n = true)
    (hn : n ≤ 8) (hv : v < 256 ^ n) (h : s.plant.acceptsAt q key (beBytes n v) = true) (ha : s.plant.act q 0 key v = x)
    (hs : (x.2.node q).power = (s.plant.node q).power) :
    s.rowWrite (.service q) key v = { s with plant := x.2 } := by
  simp only [isWriteOnly, Bool.and_eq_true, beq_iff_eq] at hrow
  obtain ⟨hsize, hwo⟩ := hrow
  refine State.rowWrite_service (n := n) hsize h ?_ ?_
  · rw [Plant.applyWrite_wo hwo, rawVal_beBytes hn hv, ha]
  · rw [hs, Plant.acceptsAt_soft h]

/-- An owner's write of a write-only number: it acts on what the request leaves, and is answered. -/
theorem State.hostWrite_writeOnly {s : State} {r : Req} {key n v : Nat} {x y : Plant} (hrow : isWriteOnly 0 key n = true)
    (hn : n ≤ 8) (hv : v < 256 ^ n) (h : s.plant.accepts r key (beBytes n v) = true) (hx : x = s.plant.taken r (writeReq key (beBytes n v)))
    (ha : x.act .cvc r.rid.toNat key v = (0, y)) (hs : (y.node .cvc).power = (x.node .cvc).power) :
    s.hostWrite r key v = { s with plant := y.answer (echoOf r (writeReq key (beBytes n v))) 0 false (writeBody key 0) } := by
  simp only [isWriteOnly, Bool.and_eq_true, beq_iff_eq] at hrow
  obtain ⟨hsize, hwo⟩ := hrow
  have happly : x.applyWrite .cvc r.rid.toNat key (beBytes n v) = (0, y) := by
    rw [Plant.applyWrite_wo (q := .cvc) hwo, rawVal_beBytes hn hv, ha]
  have hwrite : x.writeNow (echoOf r (writeReq key (beBytes n v))) key (beBytes n v) =
      y.answer (echoOf r (writeReq key (beBytes n v))) 0 false (writeBody key 0) := by
    rw [Plant.writeNow, show (echoOf r (writeReq key (beBytes n v))).rid = r.rid.toNat from rfl, happly]
    rfl
  rw [State.hostWrite_accepts hsize h, ← hx, hwrite, State.softAfter_none]
  simp only [Plant.answer_soft, hs]
  rw [hx, Plant.accepts_soft h]

end Sys2Proof.Machine
end

section
/-! PROOF. Safety images and check units (11 R314–R320). -/

namespace Sys2Proof.Machine

/-- A valid image is armed with a challenge (11 R315). -/
theorem Plant.imageArmed_valid {p : Plant} {rid v : Nat} (hcrc : crc32c (imageBody p.safetyImage) = v)
    (hheld : le32 p.safetyImage 0x10 = v) (hok : p.safetyContentOk p.safetyImage = true) :
    p.imageArmed rid v = ((p.free.2.cPut K.rindImageStatus 2).cPut K.rindImageChallenge (p.free.1 % 65536 : Nat)).onRind (fun r =>
      { r with armedBy := rid }) := by
  simp [Plant.imageArmed, hcrc, hheld, hok]

/-- The right token of the armer commits the image at the next boundary (11 R316). -/
theorem Plant.imageCommitted_right {p : Plant} {rid v : Nat} (harmer : p.cvc.rind.armedBy = rid)
    (hv : v = (p.c K.rindImageChallenge) ^^^ (le32 p.safetyImage 8 % 65536)) :
    p.imageCommitted rid v = (0, p.onRind (fun r => { r with commitDue := true })) := by
  subst hv
  simp [Plant.imageCommitted, harmer]

theorem Plant.getN_unitDone (p : Plant) (q : Part) (u key : Nat) :
    (p.onNode q (fun n => { n with ckDone := u :: n.ckDone.filter (· != u) })).getN q key = p.getN q key := by
  simp only [Plant.getN, Plant.get, Plant.node_onNode_self]

/-- A scan whose value is as expected shows it and counts it (11 R319). -/
theorem Plant.scanDone_expected {p : Plant} {q : Part} {u v : Nat} (hv : v = p.getN q ((0x5A00 + u) * 256 + 4)) :
    p.scanDone q u v = (p.put q ((0x5A00 + u) * 256 + 5) v).put q ((0x5A00 + u) * 256 + 6)
      (((p.getN q ((0x5A00 + u) * 256 + 6) + 1) % 2 ^ 32 : Nat) : Int) := by
  rw [Plant.scanDone]
  dsimp only
  rw [Plant.getN_put_other (by omega), Plant.getN_put_other (by omega), if_neg (not_not.2 hv)]

end Sys2Proof.Machine

namespace Sys2Proof

open Sys2Proof.Machine

/-- Settles O31: the owner's requests by the write of an object that each is, the rest by the branch that the premises take. -/
theorem safetyImageCompletes : Obligations.SafetyImageCompletes := by
  unfold Obligations.SafetyImageCompletes
  refine ⟨fun r bytes s h => ?stage, fun r v s x h hx hcrc hheld hok => ?arm, fun r v s x h hx harmer hv => ?commit,
    fun s hup hstatus hdue => ?timeout, fun q u result s v hup hscans hv hexpected => ?scan, fun u s hup hon => ?stallCvc,
    fun c s hup hon => ?stallCell⟩
  case stage =>
    refine congrArg Host.Outcome.next (State.hostBytes_answered (by decide) h ?_ ?_)
    · rw [Plant.applyWrite_bytes (by decide)]
      rfl
    · exact fun p hp => by simpa [Plant.onRind] using hp
  case arm =>
    have hv : v.toNat < 256 ^ 4 := by have := v.isLt; omega
    refine congrArg Host.Outcome.next (State.hostWrite_writeOnly (by decide) (by decide) hv h hx ?_ ?_)
    · exact congrArg (Prod.mk 0) (Plant.imageArmed_valid hcrc hheld hok)
    · simp [Plant.onRind]
  case commit =>
    refine congrArg Host.Outcome.next (State.hostWrite_writeOnly (n := 2) (by decide) (by decide) v.isLt h hx ?_ ?_)
    · exact Plant.imageCommitted_right harmer hv
    · rfl
  case timeout =>
    have hexec : exec .commitTimeout s = execCommitTimeout s := rfl
    rw [hexec, execCommitTimeout, State.onUp_up _ hup]
    simp [hstatus, hdue]
  case scan =>
    have hexec : exec (.checkScanDone q u result) s = execCheckScanDone q u result s := rfl
    rw [hexec, execCheckScanDone, State.onUp_up _ hup]
    simp only [hscans, Bool.not_true, Bool.false_eq_true, if_false, ← hv]
    rw [Plant.scanDone_expected, Plant.getN_unitDone]
    rw [Plant.getN_unitDone]
    exact hexpected
  case stallCvc =>
    have hexec : exec (.checkStall .cvc u) s = execCheckStall .cvc u s := rfl
    rw [hexec, execCheckStall, State.onUp_up _ hup]
    simp [hon, Part.kind]
  case stallCell =>
    have hexec : exec (.checkStall (.cell c) 0) s = execCheckStall (.cell c) 0 s := rfl
    rw [hexec, execCheckStall, State.onUp_up _ hup]
    simp [hon, Part.kind]

end Sys2Proof
end

section
/-! PROOF. Faults and the Cave (12 R337–R352). -/

namespace Sys2Proof.Machine

theorem isWriteOnly_faultAck (q : Part) : isWriteOnly q.kind K.faultAck 2 = true := by
  cases q with
  | cvc => decide
  | hub h => exact (by decide : isWriteOnly 1 K.faultAck 2 = true)
  | cell c => exact (by decide : isWriteOnly 2 K.faultAck 2 = true)

theorem isWriteOnly_caveClear (q : Part) : isWriteOnly q.kind K.caveClear 4 = true := by
  cases q with
  | cvc => decide
  | hub h => exact (by decide : isWriteOnly 1 K.caveClear 4 = true)
  | cell c => exact (by decide : isWriteOnly 2 K.caveClear 4 = true)

theorem Plant.ack_power (p : Plant) (q r : Part) (v : Nat) : ((p.ack q v).node r).power = (p.node r).power :=
  ((Plant.Quiet.refl p).ack v).power r

/-- A record that fails is counted, and raises the source of its part. -/
theorem Plant.caveFail_raises (p : Plant) (q : Part) :
    p.caveFail q = (p.bump q K.caveLost 1).raise q (if q.kind = 0 then 126 else if q.kind = 1 then 6 else 8) 0 := by
  cases q <;> rfl

/-- CAVE_WRITE of the oldest waiting record, at a part whose ledger lets it. -/
theorem exec_caveWrite {q : Part} {ok : Bool} {s : State} {r : CaveRec} {rest : List CaveRec} (hup : s.plant.up q = true)
    (hclearing : (s.plant.node q).cave.clearing = false) (hqueue : (s.plant.node q).cave.queue = r :: rest)
    (hledger : q.kind = 2 → s.plant.getN q K.nrgState = 2) :
    exec (.caveWrite q ok) s = .next { s with
      plant :=
        let x := (s.plant.onNode q (fun m => { m with cave := { m.cave with queue := rest } })).caveStore q r ok
        (if ok then x else x.caveFail q).releaseRecords q } := by
  have hexec : exec (.caveWrite q ok) s = execCaveWrite q ok s := rfl
  rw [hexec, execCaveWrite, State.onUp_up _ hup, if_neg (fun h => h.2 (hledger h.1)), Plant.caveWriteOne]
  simp only [hclearing, hqueue, Bool.false_eq_true, if_false]

end Sys2Proof.Machine

namespace Sys2Proof

open Sys2Proof.Machine

/-- Settles O32: the writes by the command object that each is, the rest by the branch that the premises take. -/
theorem faultsComplete : Obligations.FaultsComplete := by
  unfold Obligations.FaultsComplete
  refine ⟨fun src s hup hpending hdue => ?grace, fun q src s hup hpending hsev => ?note, fun q v s h => ?ackService,
    fun r v s h => ?ackHost, fun r v s h => ?emergency, fun s hup => ?poll, fun p h hserves hlocked => ?pollOne⟩
  case grace =>
    have hexec : exec (.graceExpire src) s = execGraceExpire src s := rfl
    rw [hexec, execGraceExpire, State.onUp_up _ hup, Plant.graceEnds, if_pos ⟨hpending, hdue⟩]
  case note =>
    have hexec : exec (.noteExpire q src) s = execNoteExpire q src s := rfl
    rw [hexec, execNoteExpire, State.onUp_up _ hup, if_pos ⟨hpending, hsev⟩]
  case ackService =>
    exact congrArg Host.Outcome.next
      (State.rowWrite_writeOnly (isWriteOnly_faultAck q) (by decide) (v.isLt : v.toNat < 256 ^ 2) h rfl (Plant.ack_power ..))
  case ackHost =>
    exact congrArg Host.Outcome.next (State.hostWrite_writeOnly (n := 2) (isWriteOnly_faultAck .cvc) (by decide) v.isLt h rfl rfl
      (Plant.ack_power ..))
  case emergency =>
    exact congrArg Host.Outcome.next
      (State.hostWrite_command (n := 2) (by decide) (by decide) v.isLt h (fun _ => rfl) (fun p => Plant.cPut_power ..))
  case poll =>
    have hexec : exec .hubPoll s = execHubPoll s := rfl
    rw [hexec, execHubPoll, State.onUp_up _ hup]
  case pollOne => simp only [Plant.pollHub, hserves, hlocked, if_true, Bool.false_eq_true, if_false]

/-- Settles O33: the clears by the command object that each is, the rest by the branch that the premises take. -/
theorem caveCompletes : Obligations.CaveCompletes := by
  unfold Obligations.CaveCompletes
  refine ⟨fun q s r rest hup hclearing hqueue hledger => ?good, fun q s r rest hup hclearing hqueue hledger => ?failed,
    fun q v s h => ?clearService, fun r v s h => ?clearHost, fun q s hup hclearing => ?cleared, fun q s r hq hup hfound => ?read⟩
  case good => exact exec_caveWrite hup hclearing hqueue hledger
  case failed => 
    rw [exec_caveWrite hup hclearing hqueue hledger, ← Plant.caveFail_raises]
    rfl
  case clearService =>
    have hv : v.toNat < 256 ^ 4 := by have := v.isLt; omega
    have hact : s.plant.act q 0 K.caveClear v.toNat = (0, s.plant.caveClear q (if q.kind = 0 then 0 else 0)) := rfl
    rw [ite_self] at hact
    refine congrArg Host.Outcome.next (State.rowWrite_writeOnly (isWriteOnly_caveClear q) (by decide) hv h hact ?_)
    simp [Plant.caveClear]
  case clearHost =>
    have hv : v.toNat < 256 ^ 4 := by have := v.isLt; omega
    refine congrArg Host.Outcome.next (State.hostWrite_writeOnly (isWriteOnly_caveClear .cvc) (by decide) hv h rfl rfl ?_)
    simp
  case cleared =>
    have hexec : exec (.caveClearDone q) s = execCaveClearDone q s := rfl
    rw [hexec, execCaveClearDone, State.onUp_up _ hup]
    simp only [hclearing, Bool.not_true, Bool.false_eq_true, if_false]
  case read =>
    have hexec : exec (.caveRecRead (.service q)) s = execCaveRecRead (.service q) s := rfl
    rw [hexec, execCaveRecRead, State.onUp_up _ hup, if_neg hq, Plant.caveRead]
    simp only [hfound]

end Sys2Proof
end

section
/-! PROOF. Acquisition (13 R357–R371): requests, the sequencer and the samples. -/

namespace Sys2Proof.Machine

/-- An owner's write of acq.ctrl (13 R365, R367). -/
theorem State.hostWrite_acqCtrl {s : State} {r : Req} {v : Nat} (hv : v < 256) (h : s.plant.accepts r K.acqCtrl (beBytes 1 v) = true)
    (hs : ∀ p : Plant, ((p.acqCtrl v).node .cvc).power = (p.node .cvc).power) :
    s.hostWrite r K.acqCtrl v = { s with plant := s.plant.answered r K.acqCtrl (beBytes 1 v) (fun p => p.acqCtrl v) } :=
  State.hostWrite_command (by decide) (by decide) hv h (fun _ => rfl) hs

/-- SEQUENCER_STEP of a CVC that runs and has no stop due, by what it comes to. -/
theorem exec_sequencerStep_begins {s : State} (hup : s.plant.up .cvc = true) (hstop : s.plant.cvc.acq.stopDue = false)
    (hstate : s.plant.c K.acqState = 2) (hbegin : s.plant.cvc.acq.beginDue = true) :
    exec .sequencerStep s = .next { s.acqBegin s.plant.cvc.acq.bank with
      plant := (s.acqBegin s.plant.cvc.acq.bank).plant.acqOld } := by
  have hexec : exec .sequencerStep s = execSequencerStep s := rfl
  simp [hexec, execSequencerStep, hup, hstop, hstate, hbegin]

theorem exec_sequencerStep_runs {s : State} (hup : s.plant.up .cvc = true) (hstop : s.plant.cvc.acq.stopDue = false)
    (hstate : s.plant.c K.acqState = 2) (hbegin : s.plant.cvc.acq.beginDue = false) (hclosing : s.plant.cvc.acq.closing = false) :
    exec .sequencerStep s = .next { s with plant := s.plant.acqRun.acqOld } := by
  have hexec : exec .sequencerStep s = execSequencerStep s := rfl
  simp [hexec, execSequencerStep, hup, hstop, hstate, hbegin, hclosing]

/-- A step of the sequencer before the delay of its state has passed counts. -/
theorem Plant.acqRun_waits {p : Plant} {n : Nat} (hforce : p.cvc.acq.forceDue = false) (hn : n = p.cvc.acq.steps + 1)
    (hdelay : n ≤ p.c (K.acqStDelay + p.c K.acqSeqState)) :
    p.acqRun = p.onAcq (fun a => { a with steps := n, forceDue := false }) := by
  simp [Plant.acqRun, ← hn, Nat.not_lt.2 hdelay, hforce]

/-- A step of the sequencer with a condition ready goes where the first says (13 R370). -/
theorem Plant.acqRun_goes {p x : Plant} {n i : Nat} {rest : List Nat} (hforce : p.cvc.acq.forceDue = false)
    (hn : n = p.cvc.acq.steps + 1) (hdelay : p.c (K.acqStDelay + p.c K.acqSeqState) < n) (hready : p.acqReady.1 = i :: rest)
    (hx : x = p.acqReady.2.onAcq (fun a => { a with steps := n, forceDue := false })) :
    p.acqRun = (x.onAcq (fun a => { a with
        coinc := a.coinc ||| (rest.filter (fun j => x.acqGoto j != x.acqGoto i)).foldl (fun m j => m ||| 2 ^ j) 0,
        flags := a.flags ||| (if p.c (K.acqStTimeout + p.c K.acqSeqState) ≠ 0 ∧ p.c (K.acqStTimeout + p.c K.acqSeqState) ≤ n then 0x10
          else 0) })).acqGo (x.acqGoto i) i 0 := by
  rw [Plant.acqRun]
  simp only [← hn, hdelay, if_true, hready, ← hx, hforce, Bool.false_eq_true, false_and, if_false]

/-- A cycle's record takes samples only while acquisition is armed. -/
theorem Plant.acqOn_of_records {p : Plant} (h : p.acqRecords = true) : p.acqOn = true := by
  simp only [Plant.acqRecords, Bool.and_eq_true] at h
  obtain ⟨⟨hstate, _⟩, _⟩ := h
  simp only [Plant.acqOn, Bool.or_assoc, hstate, Bool.or_true]

/-- A sample of a record whose channel has not reached its trigger goes into the ring. -/
theorem State.acqSample_pre {s : State} {ch : Nat} {x time : Int} {c : AcqCh} (hrecords : s.plant.acqRecords = true)
    (hc : c = (s.plant.acqCh ch).seen (some x)) (hleft : c.left = none) :
    s.acqSample ch (some x) time = { s with
      plant := s.plant.onAcqCh ch (fun _ => { c with
        total := c.total + 1, t0 := if c.total = 0 then time else c.t0, period := s.plant.acqPeriod ch, left := none }),
      mem := memWrite s.mem (s.plant.acqRing (s.plant.acqChans.takeWhile (· != ch)).length +
        c.total % max 1 (s.plant.c K.acqDepth) * 4) 4 (acqWord (some x)) } := by
  simp only [State.acqSample, Plant.acqOn_of_records hrecords, hrecords, ← hc, hleft, Bool.not_true, Bool.false_eq_true, if_false,
    or_self, reduceCtorEq, Option.map_none]

/-- RECORD_CLOSE of a record whose every channel has stopped (13 R366, R368). -/
theorem exec_recordClose_full {s : State} {x : Plant} (hup : s.plant.up .cvc = true) (hrecords : s.plant.acqRecords = true)
    (hstate : s.plant.c K.acqState = 3) (hstopped : s.plant.acqStopped = true)
    (hx : x = ((s.plant.cPut K.acqRecord s.plant.cvc.acq.recno).cPut K.acqBank s.plant.cvc.acq.bank).onAcq (fun a => { a with
      closing := false, ign := 0, ignFirst := 0 })) :
    exec .recordClose s = .next { s with
      plant := if x.c K.acqMode = 1 then
          ((x.onAcq (fun a => if x.cvc.acq.bank = 0 then { a with heldA := true } else { a with heldB := true })).cPut
            K.acqState 1).acqEnter 0
        else x.cPut K.acqState 4,
      mem := memPut s.mem (acqBase s.plant.cvc.acq.bank) (s.plant.acqHeader true) } := by
  have hexec : exec .recordClose s = execRecordClose s := rfl
  rw [hexec, execRecordClose]
  dsimp only
  rw [if_pos (.inl ⟨hup, hrecords, hstate, hstopped⟩), ← hx, State.acqHeaderOut]

/-- Closing a record leaves the mode and the bank. -/
theorem Plant.acqMode_closed (p : Plant) (a b : Int) (f : AcqSt → AcqSt) :
    (((p.cPut K.acqRecord a).cPut K.acqBank b).onAcq f).c K.acqMode = p.c K.acqMode := by
  rw [Plant.onAcq, Plant.onCvc_c, Plant.c_cPut_other (by decide), Plant.c_cPut_other (by decide)]

end Sys2Proof.Machine

namespace Sys2Proof

open Sys2Proof.Machine

/-- Settles O34: each is the write of acq.ctrl with its value. -/
theorem acquisitionControlCompletes : Obligations.AcquisitionControlCompletes := by
  unfold Obligations.AcquisitionControlCompletes
  refine ⟨fun r s h => ?arm, fun r s h => ?stop, fun r s h => ?force, fun r s h => ?release⟩
  case arm => exact congrArg Host.Outcome.next (State.hostWrite_acqCtrl (by decide) h (fun p => by simp [Plant.acqCtrl, Plant.onAcq]))
  case stop =>
    refine congrArg Host.Outcome.next (State.hostWrite_acqCtrl (by decide) h (fun p => ?_))
    by_cases hon : p.acqOn = true <;> simp [Plant.acqCtrl, Plant.onAcq, hon]
  case force =>
    refine congrArg Host.Outcome.next (State.hostWrite_acqCtrl (by decide) h (fun p => ?_))
    by_cases hwaits : p.c K.acqState = 1 ∨ p.c K.acqState = 2 <;> simp [Plant.acqCtrl, Plant.onAcq, hwaits]
  case release =>
    refine congrArg Host.Outcome.next (State.hostWrite_acqCtrl (by decide) h (fun p => ?_))
    by_cases hmode : p.c K.acqMode = 1 <;> simp [Plant.acqCtrl, Plant.onAcq, hmode]

/-- Settles O35, each command by the branch that its premises take. -/
theorem sequencerCompletes : Obligations.SequencerCompletes := by
  unfold Obligations.SequencerCompletes
  refine ⟨fun s hup hstop hstate hbegin => exec_sequencerStep_begins hup hstop hstate hbegin, ?waits, ?goes, ?timeout,
    fun edge s hup hpin => ?pinIn, fun s hup => ?pinOut⟩
  case waits =>
    intro s n hup hstop hstate hbegin hclosing hforce hn hdelay
    rw [exec_sequencerStep_runs hup hstop hstate hbegin hclosing, Plant.acqRun_waits hforce hn hdelay]
  case goes =>
    intro s n i rest hup hstop hstate hbegin hclosing hforce hn hdelay hready
    rw [exec_sequencerStep_runs hup hstop hstate hbegin hclosing, Plant.acqRun_goes hforce hn hdelay hready rfl, Plant.acqGo]
  case timeout =>
    intro s hup hstate hbegin hclosing hset hpassed
    have hexec : exec .sequencerTimeout s = execSequencerTimeout s := rfl
    rw [hexec, execSequencerTimeout, State.onUp_up _ hup]
    rw [if_pos ⟨.inr ⟨hstate, by simp [hbegin], by simp [hclosing]⟩, hset, hpassed⟩, Plant.acqGo]
  case pinIn =>
    have hexec : exec (.acqTrigIn edge) s = execAcqTrigIn edge s := rfl
    rw [hexec, execAcqTrigIn, State.onUp_up _ hup, if_neg (by simp [hpin])]
  case pinOut =>
    have hexec : exec .acqTrigOutEnd s = execAcqTrigOutEnd s := rfl
    rw [hexec, execAcqTrigOutEnd, State.onUp_up _ hup]

/-- Settles O36, each command by the branch that its premises take. -/
theorem acquisitionSamplesComplete : Obligations.AcquisitionSamplesComplete := by
  unfold Obligations.AcquisitionSamplesComplete
  refine ⟨fun ch code stuck s hup => ?output, fun ch val s c hup hkind hrecords hc hleft => ?sample, fun s hup hdue => ?objects,
    fun s hup hrecords hstate hstopped hmode => ?close, fun s hup hrecords hstate hstopped hmode hbank => ?next⟩
  case output =>
    have hexec : exec (.controlBitstreamOutput ch code stuck) s = execControlBitstreamOutput ch code stuck s := rfl
    rw [hexec, execControlBitstreamOutput, State.onUp_up _ hup]
  case sample =>
    have hexec : exec (.captureSample ch val) s = execCaptureSample ch val s := rfl
    rw [hexec, execCaptureSample]
    rw [if_pos ⟨hup, hkind⟩, State.acqSample_pre hrecords hc hleft]
  case objects =>
    have hexec : exec .objectSample s = execObjectSample s := rfl
    rw [hexec, execObjectSample]
    rw [if_neg (by simp [hup, hdue])]
  case close =>
    rw [exec_recordClose_full hup hrecords hstate hstopped rfl, Plant.acqMode_closed, hmode]
    rfl
  case next =>
    rw [exec_recordClose_full hup hrecords hstate hstopped rfl, Plant.acqMode_closed, hmode, hbank]
    simp [Plant.onAcq, hbank]

end Sys2Proof
end

section
/-! PROOF. The redundant pair (14 R380–R390). -/

namespace Sys2Proof

open Sys2Proof.Machine

/-- Settles O37, each command by the branch that its premises take. -/
theorem pairCompletes : Obligations.PairCompletes := by
  unfold Obligations.PairCompletes
  refine ⟨?atHub, ?atCvc, fun s hup hstrap hpaired => ?send, fun h s hup => ?relay, fun path s hup hpaired hlost hother => ?lost,
    fun s hup hpaired hactive hsilence => ?silence, fun h s hup hsilence hheard => ?allegiance, fun h s hup hleft => ?overlap,
    fun s hup hpaired hdue => ?takeover⟩
  case atHub =>
    intro port h f s x hpart hlane hup hears hgood hx hwindow hidle
    have hexec : exec (.idle port f) s = execIdle port f s := rfl
    rw [hexec, execIdle, State.onUp_up _ (hpart ▸ hup), Plant.receive_hears hears (by decide), ← hx, hpart]
    simp [hwindow, hgood, hlane, hidle, Plant.idleAtHub]
  case atCvc =>
    intro port f s x hpart hlane hup hears hgood hx hwindow hidle
    have hexec : exec (.idle port f) s = execIdle port f s := rfl
    rw [hexec, execIdle, State.onUp_up _ (hpart ▸ hup), Plant.receive_hears hears (by decide), ← hx, hpart]
    simp [hwindow, hgood, hlane, hidle]
  case send =>
    have hexec : exec .idleSend s = execIdleSend s := rfl
    have hpaired' : ∀ f, (s.plant.onRed f).paired = false := fun _ => hpaired
    rw [hexec, execIdleSend, State.onUp_up _ hup, hstrap]
    simp only [Bool.false_eq_true, if_false, hpaired', Bool.false_and, List.append_nil]
    rfl
  case relay =>
    have hexec : exec (.relayIdleSend h) s = execRelayIdleSend h s := rfl
    rw [hexec, execRelayIdleSend, State.onUp_up _ hup]
    rfl
  case lost =>
    have hexec : exec (.pathLost path) s = execPathLost path s := rfl
    rw [hexec, execPathLost, State.onUp_up _ hup, if_pos ⟨hpaired, hlost, hother⟩]
  case silence =>
    have hexec : exec .peerSilence s = execPeerSilence s := rfl
    rw [hexec, execPeerSilence, State.onUp_up _ hup, if_pos ⟨hpaired, hactive, hsilence⟩]
  case allegiance =>
    have hexec : exec (.allegianceChange h) s = execAllegianceChange h s := rfl
    rw [hexec, execAllegianceChange, State.onUp_up _ hup]
    simp only [hsilence, hheard, and_self, if_true]
  case overlap =>
    have hexec : exec (.overlapEnd h) s = execOverlapEnd h s := rfl
    rw [hexec, execOverlapEnd, State.onUp_up _ hup, if_pos hleft]
  case takeover =>
    have hexec : exec .takeover s = execTakeover s := rfl
    rw [hexec, execTakeover, State.onUp_up _ hup, if_neg (by simp [hpaired, hdue])]

end Sys2Proof
end

section
/-! PROOF. Host ports (15 R405, R406). -/

namespace Sys2Proof

open Sys2Proof.Machine

/-- Settles O38, each command by the branch that its premises take. -/
theorem hostPortsComplete : Obligations.HostPortsComplete := by
  unfold Obligations.HostPortsComplete
  refine ⟨fun port s hup hon hwas => ?linkUp, fun port s hup hon hwas => ?linkDown, fun s hup hnone => ?noLink, ?datagram,
    fun port target vlan s hup hport hvlan htarget haddress => ?arp,
    fun port target vlan data s hup hport hvlan htarget haddress hlength => ?echo⟩
  case linkUp =>
    have hexec : exec (.hostLinkChange port true) s = execHostLinkChange port true s := rfl
    rw [hexec, execHostLinkChange, State.onUp_up _ hup]
    simp [hon, hwas]
  case linkDown =>
    have hexec : exec (.hostLinkChange port false) s = execHostLinkChange port false s := rfl
    rw [hexec, execHostLinkChange, State.onUp_up _ hup]
    simp [hon, hwas]
  case noLink =>
    have hexec : exec .noLinkTimeout s = execNoLinkTimeout s := rfl
    have hdown : ¬ (rangeFrom 0 5).any s.plant.portUp = true := by
      simp [rangeFrom, hnone]
    rw [hexec, execNoLinkTimeout, State.onUp_up _ hup, if_neg hdown]
  case datagram =>
    intro port sport src bytes s f hup hserves hroom hmsg hf
    have hexec : exec (.hostDatagram port f) s = execHostDatagram port f s := rfl
    have hport : s.plant.portUp port.val = true := by
      simp only [Plant.portServes, Bool.and_eq_true] at hserves
      exact hserves.1.1
    have hqueue : ∀ key n, ((s.plant.bump .cvc key n).portSt port.val).queue.length < 32 := fun _ _ => hroom
    have hsome := Option.isSome_iff_ne_none.1 hmsg
    subst hf
    rw [hexec, execHostDatagram, State.onUp_up _ hup]
    simp [hport, hserves, Nat.not_le.2 (hqueue _ _), hsome]
  case arp =>
    have hexec : exec (.arpRequest port target vlan) s = execArpRequest port target vlan s := rfl
    rw [hexec, execArpRequest, State.onUp_up _ hup]
    simp only [hport, Bool.not_true, Bool.false_eq_true, if_false, hvlan, haddress, htarget, ne_eq, not_false_eq_true, and_self, if_true]
  case echo =>
    have hexec : exec (.icmpEcho port target vlan data) s = execIcmpEcho port target vlan data s := rfl
    rw [hexec, execIcmpEcho, State.onUp_up _ hup]
    simp only [hport, Bool.not_true, Bool.false_eq_true, if_false, hvlan, haddress, htarget, ne_eq, not_false_eq_true, hlength, and_self,
      if_true]

end Sys2Proof
end

section
/-! PROOF. Requests that read (15 R402–R409). -/

namespace Sys2Proof.Machine

/-- A request that is admitted is carried out; nothing that leaves the CVC's power alone makes a soft reset due. -/
theorem exec_admitted {i : Instr} {r : Req} {m : Msg} {s t : State} (hi : exec i s = .next (s.serve r m)) (h : s.plant.admits r m = true)
    (ht : ({ s with plant := s.plant.taken r m } : State).perform (echoOf r m) m = t)
    (hs : (t.plant.node .cvc).power = ((s.plant.taken r m).node .cvc).power) : exec i s = .next t := by
  rw [hi, State.serve_admits h, ht, State.softAfter_none (by rw [hs, Plant.admits_soft h])]

theorem partOf_own {r : Req} (h : r.node = 0) : partOf r.node.toNat = some .cvc := by
  rw [h]
  rfl

/-- A READ of the CVC's own object is carried out as one. -/
theorem State.perform_readOwn {s : State} {r : Req} {m : Msg} {key off maxLen : Nat} (h : r.node = 0) (hm : m = .read key off maxLen) :
    s.perform (echoOf r m) m = s.readOwn (echoOf r m) key off maxLen := by
  have hpart : partOf (echoOf r m).node = some .cvc := partOf_own h
  subst hm
  simp [State.perform, hpart]

theorem State.readValue_plain {s : State} {row : ObjRow} {key : Nat} (hblob : row.isBlob = false) (hs : key ≠ K.timeCalS)
    (hns : key ≠ K.timeCalNs) : s.readValue .cvc row key = (encodeVal row.ty (s.plant.view .cvc key), s) := by
  have hty : row.ty ≠ .string := by
    rintro hstring
    simp [ObjRow.isBlob, hstring] at hblob
  simp [State.readValue, hty, hs, hns]

theorem State.readDomain_plain {s : State} {q : Part} {key off n : Nat} (h : key ≠ K.caveRec) :
    s.readDomain q key off n = (s.blobPart q key off n, s) := by
  rw [State.readDomain, if_neg h]

theorem Plant.caveRead_power (p : Plant) (q r : Part) : (((p.caveRead q).2).node r).power = (p.node r).power := by
  unfold Plant.caveRead
  dsimp only
  split
  · exact Plant.put_power ..
  · rfl

theorem State.readDomain_power (s : State) (q r : Part) (key off n : Nat) :
    ((s.readDomain q key off n).2.plant.node r).power = (s.plant.node r).power := by
  unfold State.readDomain
  split
  · exact Plant.caveRead_power ..
  · rfl

theorem State.readValue_power (s : State) (q r : Part) (row : ObjRow) (key : Nat) :
    ((s.readValue q row key).2.plant.node r).power = (s.plant.node r).power := by
  unfold State.readValue
  dsimp only
  split
  · rfl
  · split
    · rfl
    · split <;> rfl

theorem State.ownItem_power (s : State) (r : Part) (key : Nat) : ((s.ownItem key).2.plant.node r).power = (s.plant.node r).power := by
  unfold State.ownItem
  split
  · rfl
  · split
    · rfl
    · split
      · exact State.readDomain_power ..
      · exact State.readValue_power ..

theorem State.ownItems_power (l : List Nat) (r : Part) : ∀ (s : State) (n : Nat),
    ((s.ownItems l n).2.plant.node r).power = (s.plant.node r).power := by
  induction l with
  | nil => exact fun _ _ => rfl
  | cons k t ih =>
    intro s n
    simp only [State.ownItems]
    split
    · rfl
    · rw [ih, State.ownItem_power]

end Sys2Proof.Machine

namespace Sys2Proof

open Sys2Proof.Machine

/-- Settles O39: each request is admitted, and is carried out by the branch that the object takes. -/
theorem readsComplete : Obligations.ReadsComplete := by
  unfold Obligations.ReadsComplete
  refine ⟨?number, ?domain, fun r s m x hnode hm h hx => ?calendar, ?descriptor, ?block⟩
  case number =>
    intro r idx sub off maxLen s key m row x hnode hkey hm h hx hread hrow hblob hs hns
    have hty : row.ty ≠ .domain := by
      rintro hdomain
      simp [ObjRow.isBlob, hdomain] at hblob
    refine exec_admitted (m := m) (by rw [hm, hkey]; rfl) h ?_ ?_
    · rw [State.perform_readOwn hnode hm, State.readOwn]
      simp only [hread, hrow, hty, State.readValue_plain hblob hs hns, ne_eq, not_true_eq_false, if_false, ← hx]
    · rw [Plant.answer_soft, hx]
  case domain =>
    intro r idx sub off maxLen s key m row x v hnode hkey hm h hx hread hrow hty hcave hv
    refine exec_admitted (m := m) (by rw [hm, hkey]; rfl) h ?_ ?_
    · rw [State.perform_readOwn hnode hm, State.readOwn]
      simp only [hread, hrow, hty, State.readDomain_plain hcave, ne_eq, not_true_eq_false, if_false, if_true, ← hx, ← hv]
      rw [hx]
    · rw [Plant.answer_soft, hx]
  case calendar =>
    refine exec_admitted (m := m) (by rw [hm]; rfl) h ?_ ?_
    · have hread : readStatus 0 K.timeCalS = 0 := by decide
      have hty : (rowOf 0 K.timeCalS).map (·.ty) = some .u64 := by decide
      obtain ⟨row, hrow, hrowTy⟩ := Option.map_eq_some_iff.1 hty
      rw [State.perform_readOwn hnode hm, State.readOwn]
      simp only [hread, hrow, hrowTy, State.readValue, ← hx, ne_eq, not_true_eq_false, if_false, and_self, if_true, reduceCtorEq]
    · rw [Plant.answer_soft, hx]
      rfl
  case descriptor =>
    intro r idx sub s key m q row hkey hm h hq hindex hrow
    refine exec_admitted (m := m) (by rw [hm, hkey]; rfl) h ?_ ?_
    · have hpart : partOf (echoOf r m).node = some q := hq
      subst hm
      simp [State.perform, hpart, Plant.descOfObj, hindex, hrow]
    · rw [Plant.answer_soft]
  case block =>
    intro r idx sub count off maxLen s key m row x y hnode hcount hkey hm h hx hindex hrow hty hy
    have hcave : key ≠ K.caveRec := by
      rintro rfl
      have hdomain : (rowOf 0 K.caveRec).map (·.ty) = some .domain := by decide
      rw [hrow] at hdomain
      exact hty (Option.some.inj hdomain)
    have hcount' : count.toNat ≠ 0 := fun hzero => hcount (BitVec.eq_of_toNat_eq hzero)
    refine exec_admitted (m := m) (by rw [hm, hkey]; rfl) h ?_ ?_
    · have hpart : partOf (echoOf r m).node = some .cvc := partOf_own hnode
      rw [← hx]
      subst hm
      simp [State.perform, hpart, hcount', State.blockOwn, hindex, hcave, hrow, hty, ← hy]
    · rw [Plant.answer_soft, hy, State.ownItems_power, hx]

end Sys2Proof
end

section
/-! PROOF. A write of an object that acts on others (10 R286; 15 R402). The time source that an owner writes shows in time.state at once, so that
the state after the write is not the one that the value alone gives. -/

namespace Sys2Proof.Machine

/-- The CVC runs in STOPPED, its first host port serves, and the requester 7 owns the station. -/
def ownerServed : State := { State.reset with
  plant := (((((State.reset.plant.onNode .cvc (fun n => { n with
    power := { n.power with core := true, held := false, rails := true } })).cPut (hpKey 0 1) 1).cPut (hpKey 0 8) 1).cPut (hpKey 0 3)
      0xC0A8640A).cPut K.gdpOwnerRid 7).cPut K.convState 2 }

/-- That requester's first request, on the first port. -/
def ownerRequest : Req := ⟨0, 1, 7, 1, 0⟩

/-- What `time.state` shows after a command. -/
def timeStateAfter : Host.Outcome State Fault Refusal → Option Nat
  | .next s => some (s.plant.c K.timeState)
  | _ => none

set_option maxRecDepth 20000 in
/-- Writing `time.source` = 1 shows that PTP is acquiring. -/
theorem timeStateAfter_write :
    timeStateAfter (exec (.write ownerRequest 0x1202 0x01 0x02 0 true [1]) ownerServed) = some 1 := by decide

set_option maxRecDepth 20000 in
/-- The value and the answer alone leave `time.state`. -/
theorem timeState_value_alone :
    (ownerServed.plant.answered ownerRequest K.timeSource [1] (fun p => p.put .cvc K.timeSource 1)).c K.timeState = 0 := by decide

end Sys2Proof.Machine

namespace Sys2Proof

open Sys2Proof.Machine

set_option maxRecDepth 20000 in
/-- Refutes O40: a WRITE of `time.source` changes `time.state` too, which the statement's state does not show. -/
theorem not_writesComplete : ¬ Obligations.WritesComplete := by
  unfold Obligations.WritesComplete
  rintro ⟨hwrite, -⟩
  obtain ⟨row, hrow⟩ : ∃ row, rowOf 0 K.timeSource = some row := Option.isSome_iff_exists.1 (by decide)
  have hplain : (rowOf 0 K.timeSource).all (fun r => r.ty == .u8 && !r.isBlob && r.acc == .rws) = true := by decide
  simp only [hrow, Option.all_some, Bool.and_eq_true, beq_iff_eq, Bool.not_eq_true'] at hplain
  obtain ⟨⟨hty, hblob⟩, hacc⟩ := hplain
  have hexec := hwrite ownerRequest 0x1202 0x01 0x02 [1] ownerServed K.timeSource row [1] rfl rfl hrow (by rw [hty]; rfl) hblob (.inr hacc)
    (by decide) (by decide) (by decide)
  have hafter := timeStateAfter_write
  rw [hexec, hty] at hafter
  have hvalue : decodeVal .u8 [1] = 1 := by decide
  rw [hvalue, timeStateAfter, timeState_value_alone] at hafter
  exact absurd hafter (by decide)

end Sys2Proof
end

section
/-! PROOF. Ownership, subscriptions and partial values (15 R402, R413–R421). -/

namespace Sys2Proof.Machine

theorem Plant.discardBatch_none {p : Plant} {cause : Nat} (h : p.batchOpen = false) : p.discardBatch cause = p := by
  simp [Plant.discardBatch, h]

theorem Byte.toNat_ne_zero {b : Byte} (h : b ≠ 0) : b.toNat ≠ 0 := fun hzero => h (BitVec.eq_of_toNat_eq hzero)

/-- A subscription to a number passes its checks with a mode in its range (15 R420). -/
theorem Plant.subscribe_checked {mode period : Nat} {row : ObjRow} (hty : row.ty ≠ .domain)
    (hmode : mode ≤ 1 ∨ (mode ≤ 3 ∧ 10 ≤ period ∧ period ≤ 60000)) :
    firstStatus [0, must (row.ty != .domain) 0x0301,
      must (decide (mode ≤ 3) && (decide (mode < 2) || decide (10 ≤ period ∧ period ≤ 60000))) 0x0302] = 0 := by
  have hrange : (decide (mode ≤ 3) && (decide (mode < 2) || decide (10 ≤ period ∧ period ≤ 60000))) = true := by
    simp only [Bool.and_eq_true, Bool.or_eq_true, decide_eq_true_eq]
    omega
  rw [hrange, bne_iff_ne.2 hty]
  rfl

/-- CLAIM of a requester that does not own the station, which is free or owned with a lower priority (15 R413). -/
theorem Plant.claim_free {p : Plant} {e : Echo} {prio : Nat} (hprio : prio ≠ 0) (hother : p.owner ≠ e.rid)
    (hfree : p.owner = 0 ∨ p.c K.gdpOwnerPrio < prio) (hbatch : p.batchOpen = false) :
    p.claim e prio = (p.setOwner e.rid prio e.port).newLease.answer e 0 false (p.setOwner e.rid prio e.port).newLease.ownerBody := by
  have hgiven : ¬ (p.owner ≠ 0 ∧ prio ≤ p.c K.gdpOwnerPrio) := by omega
  rw [Plant.claim, if_neg hprio, if_neg hother, if_neg hgiven, Plant.discardBatch_none hbatch]

/-- CLAIM of the owner takes the new priority. -/
theorem Plant.claim_owner {p : Plant} {e : Echo} {prio : Nat} (hprio : prio ≠ 0) (howner : p.owner = e.rid) :
    p.claim e prio = (p.cPut K.gdpOwnerPrio prio).newLease.answer e 0 false (p.cPut K.gdpOwnerPrio prio).newLease.ownerBody := by
  rw [Plant.claim, if_neg hprio, if_pos howner]

theorem Plant.renew_timely {p : Plant} {e : Echo} (howner : p.owner = e.rid) (htime : p.tick < p.cvc.gdp.leaseEnd) :
    p.renew e = p.newLease.answer e 0 false p.newLease.ownerBody := by
  rw [Plant.renew, if_neg (by omega)]

/-- SUBSCRIBE to an object with room for it (15 R420). -/
theorem Plant.subscribe_new {p : Plant} {e : Echo} {key mode period id : Nat} {row : ObjRow} {others : List Subscr}
    (hread : readStatus 0 key = 0) (hrow : rowOf 0 key = some row) (hty : row.ty ≠ .domain) (hmode : mode ≠ 0)
    (hrange : mode ≤ 1 ∨ (mode ≤ 3 ∧ 10 ≤ period ∧ period ≤ 60000))
    (hothers : others = p.cvc.gdp.subs.filter (fun y => !(y.rid == e.rid && y.key == key))) (hroom : others.length < 64)
    (hmine : (others.filter (fun y => y.rid == e.rid)).length < 16) (hid : id = p.cvc.gdp.nextSub % 65535 + 1) :
    p.subscribe e key mode period = (p.onGdp (fun g => { g with
      subs := others ++ [{
                           id := id, rid := e.rid, port := e.port, key := key, mode := mode, period := period, last := [], sentTick := 0,
                           sentOnce := false }],
      nextSub := id })).answer e 0 false (beBytes 2 id ++ [0, 0]) := by
  have hfits : ¬ (64 ≤ others.length ∨ 16 ≤ (others.filter (fun y => y.rid == e.rid)).length) := by omega
  rw [Plant.subscribe]
  simp only [hread, hrow, Plant.subscribe_checked hty hrange, ne_eq, not_true_eq_false, if_false, hmode, ← hothers, hfits, ← hid]

/-- SUBSCRIBE with mode 0 cancels. -/
theorem Plant.subscribe_cancel {p : Plant} {e : Echo} {key period : Nat} {row : ObjRow} (hread : readStatus 0 key = 0)
    (hrow : rowOf 0 key = some row) (hty : row.ty ≠ .domain) :
    p.subscribe e key 0 period = (p.onGdp (fun g => { g with subs := g.subs.filter (fun y => !(y.rid == e.rid && y.key == key)) })).answer e
      0 false (beBytes 2 ((p.cvc.gdp.subs.find? (fun y => y.rid == e.rid && y.key == key)).map (·.id) |>.getD 0) ++ [0, 0]) := by
  rw [Plant.subscribe]
  simp only [hread, hrow, Plant.subscribe_checked (mode := 0) hty (.inl (Nat.zero_le 1)), ne_eq, not_true_eq_false, if_false, if_true]
  rfl

end Sys2Proof.Machine

namespace Sys2Proof

open Sys2Proof.Machine

/-- Settles O41: each request is admitted, and is carried out by the branch that its premises take. -/
theorem ownershipCompletes : Obligations.OwnershipCompletes := by
  unfold Obligations.OwnershipCompletes
  refine ⟨?claim, ?again, fun r s x y h hx howner htime hy => ?renew, fun s hup howner hbatch => ?expire⟩
  case claim =>
    intro r prio s m x y hm hprio h hx hother hfree hbatch hy
    subst hm
    have hclaim := Plant.claim_free (e := echoOf r (.claim prio.toNat)) (Byte.toNat_ne_zero hprio) hother hfree hbatch
    refine exec_admitted rfl h ?_ ?_
    · rw [← hx, hy]
      exact congrArg (fun p => { s with plant := p }) hclaim
    · rw [Plant.answer_soft, hy, Plant.newLease_power, Plant.setOwner_power, hx]
  case again =>
    intro r prio s m x y hm hprio h hx howner hy
    subst hm
    have hclaim := Plant.claim_owner (e := echoOf r (.claim prio.toNat)) (Byte.toNat_ne_zero hprio) howner
    refine exec_admitted rfl h ?_ ?_
    · rw [← hx, hy]
      exact congrArg (fun p => { s with plant := p }) hclaim
    · rw [Plant.answer_soft, hy, Plant.newLease_power, Plant.cPut_power, hx]
  case renew =>
    have hrenew := Plant.renew_timely (e := echoOf r .renew) howner htime
    refine exec_admitted rfl h ?_ ?_
    · rw [← hx, hy]
      exact congrArg (fun p => { s with plant := p }) hrenew
    · rw [Plant.answer_soft, hy, Plant.newLease_power, hx]
  case expire =>
    have hexec : exec .leaseExpire s = execLeaseExpire s := rfl
    rw [hexec, execLeaseExpire, State.onUp_up _ hup, Plant.endLease, if_neg howner, Plant.discardBatch_none hbatch]

/-- Settles O42: the requests are admitted and carried out, the rest by the branch that the premises take. -/
theorem subscriptionsComplete : Obligations.SubscriptionsComplete := by
  unfold Obligations.SubscriptionsComplete
  refine ⟨?subscribe, ?cancel, fun rid s hup => ?life, fun s due hup hdue => ?notify, fun subid s x hup hfound => ?periodic,
    fun s hup => ?domain⟩
  case subscribe =>
    intro r idx sub mode period s key m row x others id hkey hm h hx hread hrow hty hmode hothers hroom hmine hid
    have hmode' : mode.toNat ≠ 0 ∧ (mode.toNat ≤ 1 ∨ (mode.toNat ≤ 3 ∧ 10 ≤ period.toNat ∧ period.toNat ≤ 60000)) := by
      rcases hmode with rfl | ⟨rfl | rfl, hperiod⟩
      · exact ⟨by decide, .inl (by decide)⟩
      · exact ⟨by decide, .inr ⟨by decide, hperiod⟩⟩
      · exact ⟨by decide, .inr ⟨by decide, hperiod⟩⟩
    subst hm
    have hnew := Plant.subscribe_new (e := echoOf r (.subscribe key mode.toNat period.toNat)) hread hrow hty hmode'.1 hmode'.2 hothers hroom
      hmine hid
    refine exec_admitted (by rw [hkey]; rfl) h ?_ ?_
    · rw [← hx]
      exact congrArg (fun p => { s with plant := p }) hnew
    · rw [Plant.answer_soft, hx]
      rfl
  case cancel =>
    intro r idx sub period s key m row x hkey hm h hx hread hrow hty
    subst hm
    have hcancel := Plant.subscribe_cancel (p := x) (e := echoOf r (.subscribe key 0 period.toNat)) (period := period.toNat) hread hrow hty
    refine exec_admitted (by rw [hkey]; rfl) h ?_ ?_
    · rw [← hx]
      exact congrArg (fun p => { s with plant := p }) hcancel
    · rw [Plant.answer_soft, hx]
      rfl
  case life =>
    have hexec : exec (.subLifeExpire rid) s = execSubLifeExpire rid s := rfl
    rw [hexec, execSubLifeExpire, State.onUp_up _ hup]
  case notify =>
    have hexec : exec .notify s = execNotify s := rfl
    rw [hexec, execNotify, State.onUp_up _ hup]
    dsimp only
    rw [← hdue]
  case periodic =>
    have hexec : exec (.periodicNotify subid) s = execPeriodicNotify subid s := rfl
    rw [hexec, execPeriodicNotify, State.onUp_up _ hup]
    simp only [hfound]
  case domain =>
    have hexec : exec .domainTimeout s = execDomainTimeout s := rfl
    rw [hexec, execDomainTimeout, State.onUp_up _ hup]

end Sys2Proof
end

section
/-! PROOF. Resets of a part (16 R429–R436): what a reset leaves in the power record, the lanes and the queue of the Cave. -/

namespace Sys2Proof.Machine

@[simp] theorem Plant.sendAbort_power (p : Plant) (q r : Part) (l : Nat) : ((p.sendAbort q l).node r).power = (p.node r).power := by
  unfold Plant.sendAbort
  split
  · exact Plant.onLane_power ..
  · rfl

@[simp] theorem Plant.maskOwn_power (p : Plant) (c : CellId) (r : Part) : ((p.maskOwn c).node r).power = (p.node r).power := by
  simp only [Plant.maskOwn, List.foldl_cons, List.foldl_nil]
  split_ifs <;> simp [Plant.onLane_power]

@[simp] theorem Plant.tear_power (p : Plant) (q r : Part) (sc : Scope) : ((p.tear q sc).node r).power = (p.node r).power := by
  unfold Plant.tear
  dsimp only
  split_ifs
  · rw [Plant.node_onNode]
    split
    · subst_vars
      rfl
    · rfl
  · rfl
  · rfl

@[simp] theorem Plant.loseQueue_power (p : Plant) (q r : Part) : ((p.loseQueue q).node r).power = (p.node r).power := by
  unfold Plant.loseQueue
  dsimp only
  split
  · exact Plant.put_power ..
  · rfl

/-- What a reset makes of a part's power record (16 R437, R450). -/
def Power.down (w : Power) (sc : Scope) (cause : Nat) : Power :=
  { w with
    core := false, storing := false, softDue := false, fwWriting := false, snap := [], snapBlobs := [], imageDue := false,
    longFlag := if sc = .por then false else w.longFlag, causes := (if sc = .por then 0 else w.causes) ||| cause }

/-- A part that goes down has the power record of the reset and no record that waits; but in a cell outside a power-on reset it has lost its lanes. -/
theorem Plant.nodeDown_node (p : Plant) (q : Part) (sc : Scope) (cause : Nat) :
    ((p.nodeDown q sc cause).node q).power = (p.node q).power.down sc cause ∧ ((p.nodeDown q sc cause).node q).cave.queue = [] ∧
      (sc = .por → ((p.nodeDown q sc cause).node q).lanes = []) := by
  unfold Plant.nodeDown
  extract_lets p1 other p2
  have h1 : (p1.node q).power = (p.node q).power := by simp only [p1, Plant.loseQueue_power, Plant.tear_power]
  have h2 : (p2.node q).power = (p1.node q).power := by
    simp only [p2]
    split
    · exact Plant.put_power ..
    · rfl
  rw [Plant.node_onNode_self]
  refine ⟨?_, rfl, ?_⟩
  · rw [← h1, ← h2]
    rfl
  · rintro rfl
    simp

/-- The same of a part whose reset is carried out; no time passes, and a CVC keeps memory through a reset of the core alone. -/
theorem State.partDown_node (s : State) (q : Part) (sc : Scope) (cause : Nat) :
    ((s.partDown q sc cause).plant.node q).power = (s.plant.node q).power.down sc cause ∧
      ((s.partDown q sc cause).plant.node q).cave.queue = [] ∧ (sc = .por → ((s.partDown q sc cause).plant.node q).lanes = []) ∧
      (q = .cvc → sc ≠ .core → (s.partDown q sc cause).mem = []) := by
  cases q with
  | cvc =>
    obtain ⟨hpower, hqueue, hlanes⟩ := s.plant.nodeDown_node .cvc sc cause
    exact ⟨hpower, hqueue, hlanes, fun _ hsc => if_neg hsc⟩
  | hub h =>
    have hnode : (s.plant.hubDown h sc cause).node (.hub h) = (s.plant.nodeDown (.hub h) sc cause).node (.hub h) := by
      rw [Plant.hubDown, Plant.forgetHub_node _ h _ (by simp), Plant.onHub_node]
    simp only [State.partDown, hnode, reduceCtorEq, false_implies, and_true]
    exact s.plant.nodeDown_node (.hub h) sc cause
  | cell c =>
    obtain ⟨hpower, hqueue, hlanes⟩ := (s.plant.maskOwn c).nodeDown_node (.cell c) sc cause
    rw [Plant.maskOwn_power] at hpower
    simp only [State.partDown, Plant.cellDown, reduceCtorEq, false_implies, and_true]
    split
    · simp only [Plant.put, Plant.node_onNode_self, Plant.onCell_node]
      exact ⟨hpower, hqueue, hlanes⟩
    · simp only [Plant.onCell_node]
      exact ⟨hpower, hqueue, hlanes⟩

theorem isWriteOnly_rstSoft (q : Part) : isWriteOnly q.kind K.rstSoft 2 = true := by
  cases q with
  | cvc => decide
  | hub h => exact (by decide : isWriteOnly 1 K.rstSoft 2 = true)
  | cell c => exact (by decide : isWriteOnly 2 K.rstSoft 2 = true)

/-- A service write of a write-only number acts, and a soft reset that it makes due begins. -/
theorem State.rowWrite_acts {s : State} {q : Part} {key n v : Nat} (hrow : isWriteOnly q.kind key n = true) (hn : n ≤ 8)
    (hv : v < 256 ^ n) (h : s.plant.acceptsAt q key (beBytes n v) = true) :
    s.rowWrite (.service q) key v = State.softAfter { s with plant := (s.plant.act q 0 key v).2 } q := by
  simp only [isWriteOnly, Bool.and_eq_true, beq_iff_eq] at hrow
  obtain ⟨hsize, hwo⟩ := hrow
  obtain ⟨row, hrow', hlen⟩ := Option.map_eq_some_iff.1 hsize
  simp only [State.rowWrite, hrow', hlen]
  rw [State.svcWrite_accepts h, Plant.applyWrite_wo hwo, rawVal_beBytes hn hv]

/-- SOFT_RESET by service frame (16 R431). -/
theorem exec_softReset_service {s : State} {q : Part} {v : BitVec 16} (h : s.plant.acceptsAt q K.rstSoft (beBytes 2 v.toNat) = true) :
    exec (.softReset (.service q) v) s = .next (State.softAfter { s with
      plant := s.plant.onPower q (fun w => { w with softDue := true }) } q) :=
  congrArg Host.Outcome.next (State.rowWrite_acts (isWriteOnly_rstSoft q) (by decide) (v.isLt : v.toNat < 256 ^ 2) h)

@[simp] theorem Plant.onPower_power (p : Plant) (q : Part) (f : Power → Power) : ((p.onPower q f).node q).power = f (p.node q).power := by
  simp [Plant.onPower]

/-- The end of a hold of RESET_N. -/
theorem Plant.endHold_power (p : Plant) (q : Part) (b : Boot) :
    ((p.endHold q b).node q).power = { (p.node q).power with
      held := false, pins := b, heldMs := (p.tick - (p.node q).power.holdStart) / 400000 } := by
  simp [Plant.endHold]

end Sys2Proof.Machine

namespace Sys2Proof

open Sys2Proof.Machine

/-- Settles O43, each command by what its reset leaves and by the branch that its premises take. -/
theorem resetsComplete : Obligations.ResetsComplete := by
  unfold Obligations.ResetsComplete
  refine ⟨fun q s => ?powerOn, fun q s hheld => ?assert, fun h b s hheld hrails hcore => ?releaseHub, fun b s hheld hrails hcore => ?releaseCvc,
    fun c b s hheld => ?releaseCell, fun q s hheld => ?long, fun q s hup => ?watchdog, fun q v s h hstoring hwriting => ?soft,
    fun q v s h hstoring => ?softLater, fun r v s h => ?softHost, fun s hup hconv => ?both, fun by_ s hup hconv hsome hone => ?alone⟩
  case powerOn =>
    obtain ⟨hpower, hqueue, hlanes, hmem⟩ := s.partDown_node q .por (if (s.plant.node q).power.held then 3 else 1)
    refine ⟨_, rfl, ?_⟩
    simp only [Plant.onPower, Plant.node_onNode_self, hpower, hqueue, hlanes rfl, Power.down, if_true, Nat.zero_or, true_and]
    exact fun hcvc => hmem hcvc (by decide)
  case assert =>
    obtain ⟨hpower, hqueue, -, hmem⟩ := s.partDown_node q .pin 2
    have hexec : exec (.resetNAssert q) s = execResetNAssert q s := rfl
    refine ⟨{ s.partDown q .pin 2 with plant := (s.partDown q .pin 2).plant.holdReset q }, ?_, ?_⟩
    · rw [hexec, execResetNAssert, if_neg (by simp [hheld])]
    · simp only [Plant.holdReset, Plant.node_onNode_self, hpower, hqueue, Power.down, hheld, Bool.false_eq_true, if_false, reduceCtorEq, true_and,
        Plant.onNode_tick]
      exact fun hcvc => hmem hcvc (by decide)
  case releaseHub =>
    have hexec : exec (.resetNRelease (.hub h) b) s = execResetNRelease (.hub h) b s := rfl
    rw [hexec, execResetNRelease, hheld]
    simp only [Bool.not_true, Bool.false_eq_true, if_false, State.partStart]
    rw [if_neg (by simp [Plant.endHold_power, hrails, hcore]), Plant.endHold]
  case releaseCvc =>
    have hexec : exec (.resetNRelease .cvc b) s = execResetNRelease .cvc b s := rfl
    rw [hexec, execResetNRelease, hheld]
    simp only [Bool.not_true, Bool.false_eq_true, if_false, State.partStart]
    rw [if_neg (by simp [Plant.endHold_power, hrails, hcore]), Plant.endHold]
  case releaseCell =>
    have hexec : exec (.resetNRelease (.cell c) b) s = execResetNRelease (.cell c) b s := rfl
    rw [hexec, execResetNRelease, hheld]
    simp only [Bool.not_true, Bool.false_eq_true, if_false, State.partStart, Plant.onCell_node, Plant.endHold_power]
    rw [Plant.endHold]
  case long =>
    have hexec : exec (.longReset q) s = execLongReset q s := rfl
    rw [hexec, execLongReset, State.on_eq, if_pos hheld]
  case watchdog =>
    have hexec : exec (.watchdogExpire q) s = execWatchdogExpire q s := rfl
    rw [hexec, execWatchdogExpire, if_pos hup]
  case soft => rw [exec_softReset_service h, State.softAfter, Plant.onPower_power, if_pos (by simp [hstoring, hwriting])]
  case softLater => rw [exec_softReset_service h, State.softAfter, Plant.onPower_power, if_neg (by simp [hstoring])]
  case softHost =>
    have hrow := isWriteOnly_rstSoft .cvc
    simp only [isWriteOnly, Bool.and_eq_true, beq_iff_eq] at hrow
    obtain ⟨hsize, hwo⟩ := hrow
    refine congrArg Host.Outcome.next ((State.hostWrite_accepts hsize h).trans ?_)
    rw [Plant.writeNow, Plant.applyWrite_wo hwo, rawVal_beBytes (by decide) (v.isLt : v.toNat < 256 ^ 2)]
    rfl
  case both =>
    have hexec : exec (.rindRequestedReset 3) s = execRindRequestedReset 3 s := rfl
    rw [hexec, execRindRequestedReset, if_neg (by simp [hup, Nat.not_lt.2 hconv]), if_pos rfl]
  case alone =>
    have hexec : exec (.rindRequestedReset by_) s = execRindRequestedReset by_ s := rfl
    rw [hexec, execRindRequestedReset, if_neg (not_or.2 ⟨by simp [hup], not_or.2 ⟨Nat.not_lt.2 hconv, hsome⟩⟩), if_neg hone, State.on_eq]

end Sys2Proof
end

section
/-! PROOF. Start-up of the CVC (16 R445; 10 R286; 14 R381). -/

namespace Sys2Proof

open Sys2Proof.Machine

/-- Settles O44, each command by the branch that its premises take. -/
theorem startupCompletes : Obligations.StartupCompletes := by
  unfold Obligations.StartupCompletes
  refine ⟨fun s hup hconv hboot hvalid hhubs hdiscovery => ?complete, fun s hup hconv => ?hubWait, fun s hup hconv => ?ptpWait,
    fun s hup hpaired hid hconv hrole hheard => ?alone, fun s hup hpaired hid hconv hrole hheard => ?heard⟩
  case complete =>
    have hexec : exec .startupComplete s = execStartupComplete s := rfl
    rw [hexec, execStartupComplete, State.onUp_up _ hup, if_neg (by simp [hconv, hboot, hvalid, hhubs, hdiscovery])]
  case hubWait =>
    have hexec : exec .hubWaitExpire s = execHubWaitExpire s := rfl
    rw [hexec, execHubWaitExpire, State.onUp_up _ hup, if_pos hconv]
  case ptpWait =>
    have hexec : exec .ptpWaitExpire s = execPtpWaitExpire s := rfl
    rw [hexec, execPtpWaitExpire, State.onUp_up _ hup, if_pos hconv]
  case alone =>
    have hexec : exec .startWaitExpire s = execStartWaitExpire s := rfl
    rw [hexec, execStartWaitExpire, State.onUp_up _ hup]
    simp [hpaired, hid, hconv, hrole, hheard]
  case heard =>
    have hexec : exec .startWaitExpire s = execStartWaitExpire s := rfl
    rw [hexec, execStartWaitExpire, State.onUp_up _ hup]
    simp [hpaired, hid, hconv, hrole, hheard]

end Sys2Proof
end

section
/-! PROOF. Stores, dictionary images, firmware and keys (16 R431–R447). -/

namespace Sys2Proof.Machine

/-! ### Objects that every kind of part holds -/

/-- What holds of the three kinds of part holds of every part. -/
theorem Part.kind_cases {P : Nat → Prop} (hcvc : P 0) (hhub : P 1) (hcell : P 2) (q : Part) : P q.kind := by
  cases q with
  | cvc => exact hcvc
  | hub h => exact hhub
  | cell c => exact hcell

/-- The object holds bytes. -/
def isBytes (key kind : Nat) : Bool := (rowOf kind key).any (fun row => row.isBlob)

theorem isWriteOnly_storeSave (q : Part) : isWriteOnly q.kind K.storeSave 2 = true :=
  Part.kind_cases (P := fun kind => isWriteOnly kind K.storeSave 2 = true) (by decide) (by decide) (by decide) q

theorem isWriteOnly_storeRestore (q : Part) : isWriteOnly q.kind K.storeRestore 2 = true :=
  Part.kind_cases (P := fun kind => isWriteOnly kind K.storeRestore 2 = true) (by decide) (by decide) (by decide) q

theorem isWriteOnly_keyRevoke (q : Part) : isWriteOnly q.kind K.bootKeyRevoke 1 = true :=
  Part.kind_cases (P := fun kind => isWriteOnly kind K.bootKeyRevoke 1 = true) (by decide) (by decide) (by decide) q

theorem isBytes_storeImage (q : Part) : isBytes K.storeImage q.kind = true :=
  Part.kind_cases (P := fun kind => isBytes K.storeImage kind = true) (by decide) (by decide) (by decide) q

theorem isBytes_fwLoad (q : Part) : isBytes K.bootFwLoad q.kind = true :=
  Part.kind_cases (P := fun kind => isBytes K.bootFwLoad kind = true) (by decide) (by decide) (by decide) q

theorem isBytes_keyProg (q : Part) (slot : Fin 2) : isBytes (K.bootKeyProg + slot.val) q.kind = true := by
  have hrow : ∀ slot : Fin 2, isBytes (K.bootKeyProg + slot.val) 0 = true ∧ isBytes (K.bootKeyProg + slot.val) 1 = true ∧
      isBytes (K.bootKeyProg + slot.val) 2 = true := by decide
  obtain ⟨hcvc, hhub, hcell⟩ := hrow slot
  exact Part.kind_cases (P := fun kind => isBytes (K.bootKeyProg + slot.val) kind = true) hcvc hhub hcell q

/-! ### Writes that leave no soft reset due -/

/-- A service write of a write-only number that leaves what waits for the end of the request. -/
theorem State.rowWrite_quiet {s : State} {q : Part} {key n v : Nat} {p' : Plant} (hrow : isWriteOnly q.kind key n = true) (hn : n ≤ 8)
    (hv : v < 256 ^ n) (h : s.plant.acceptsAt q key (beBytes n v) = true) (ha : (s.plant.act q 0 key v).2 = p')
    (hs : (p'.node q).power.softDue = (s.plant.node q).power.softDue) : s.rowWrite (.service q) key v = { s with plant := p' } := by
  rw [State.rowWrite_acts hrow hn hv h, ha, State.softAfter_none (by rw [hs, Plant.acceptsAt_soft h])]

/-- An owner's write of a write-only number that leaves what waits for the end of the request. -/
theorem State.hostWrite_quiet {s : State} {r : Req} {key n v : Nat} {effect : Plant → Plant} (hrow : isWriteOnly 0 key n = true)
    (hn : n ≤ 8) (hv : v < 256 ^ n) (h : s.plant.accepts r key (beBytes n v) = true)
    (ha : ∀ p : Plant, p.act .cvc r.rid.toNat key v = (0, effect p))
    (hs : ∀ p : Plant, ((effect p).node .cvc).power.softDue = (p.node .cvc).power.softDue) :
    s.hostWrite r key v = { s with plant := s.plant.answered r key (beBytes n v) effect } := by
  simp only [isWriteOnly, Bool.and_eq_true, beq_iff_eq] at hrow
  exact State.hostWrite_act hrow.1 hrow.2 hn hv h ha (fun p hp => by rw [hs, hp])

/-- A service write of bytes. -/
theorem State.rowBytes_takes {s : State} {q : Part} {key : Nat} {bs : List Byte} {p' : Plant} (hrow : isBytes key q.kind = true)
    (h : s.plant.acceptsAt q key (bs.map BitVec.toNat) = true) (ha : s.plant.takeBytes q key (bs.map BitVec.toNat) = (0, p'))
    (hs : (p'.node q).power = (s.plant.node q).power) : s.rowBytes (.service q) key bs = { s with plant := p' } :=
  State.rowBytes_service h (by rw [Plant.applyWrite_bytes hrow, ha]) (by rw [hs, Plant.acceptsAt_soft h])

/-- An owner's write of bytes. -/
theorem State.hostBytes_takes {s : State} {r : Req} {key : Nat} {bs : List Byte} {effect : Plant → Plant}
    (hdomain : (rowOf 0 key).any (fun row => row.ty == .domain) = true) (hrow : isBytes key 0 = true)
    (h : s.plant.acceptsWhole r key (bs.map BitVec.toNat) = true)
    (ha : (s.plant.gathered r key (bs.map BitVec.toNat)).takeBytes .cvc key (bs.map BitVec.toNat) =
      (0, effect (s.plant.gathered r key (bs.map BitVec.toNat))))
    (hs : ∀ p : Plant, ((effect p).node .cvc).power = (p.node .cvc).power) :
    s.hostBytes r key bs = { s with plant := s.plant.answeredWhole r key (bs.map BitVec.toNat) effect } :=
  State.hostBytes_answered hdomain h (by rw [Plant.applyWrite_bytes (q := .cvc) hrow, ha]) (fun p hp => by rw [hs, hp])

/-! ### What they do -/

theorem Plant.takeBytes_storeImage {p : Plant} {q : Part} {bs : List Nat} (h : p.imageEntries q bs = 0) :
    p.takeBytes q K.storeImage bs = (0, p.putBlob q K.storeImage bs) := by
  rw [Plant.takeBytes, if_neg (by decide), if_pos rfl]
  simp only [h, if_true]

theorem Plant.takeBytes_fwLoad (p : Plant) (q : Part) (bs : List Nat) :
    p.takeBytes q K.bootFwLoad bs = (0, p.putBlob q K.bootFwLoad bs) := by
  rw [Plant.takeBytes, if_neg (by decide), if_neg (by decide), if_neg (fun h => absurd h.2 (by decide)),
    if_neg (fun h => absurd h.2 (by decide))]

theorem Plant.takeBytes_keyProg (p : Plant) (q : Part) (slot : Fin 2) (bs : List Nat) :
    p.takeBytes q (K.bootKeyProg + slot.val) bs = (0, p.programKey q slot.val bs) := by
  have hslot : K.bootKeyProg + slot.val = K.bootKeyProg ∨ K.bootKeyProg + slot.val = K.bootKeyProg + 1 := by omega
  rw [Plant.takeBytes, if_pos hslot, Nat.add_sub_cancel_left]

theorem Plant.programKey_power (p : Plant) (q : Part) (n : Nat) (hash : List Nat) :
    ((p.programKey q n hash).node q).power = (p.node q).power := by
  rw [Plant.programKey, Plant.put_power, Plant.putBlob_power]

theorem Plant.storeStart_soft (p : Plant) (q : Part) : ((p.storeStart q).node q).power.softDue = (p.node q).power.softDue := by
  simp [Plant.storeStart]

/-- store.save of a cell whose ledger grants the sequence (16 R441, 07 R177). -/
theorem Plant.storeSave_granted {p : Plant} {c : CellId} (h : p.grants c 5 = true) :
    p.storeSave (.cell c) = (0, (p.onCell c (fun e => { e with led := { e.led with holds := 5 :: e.led.holds } })).storeStart (.cell c)) := by
  simp only [Plant.storeSave, Plant.request_granted (by decide) h]
  rfl

theorem Plant.onNode_congr {p : Plant} {q : Part} {f g : Node → Node} (h : f (p.node q) = g (p.node q)) : p.onNode q f = p.onNode q g := by
  rw [Plant.onNode, h, Plant.onNode]

/-- The end of a good store sequence leaves what waits for the end of a request. -/
theorem Plant.storeEnd_soft {p : Plant} {q : Part} (h : (p.node q).power.softDue = false) : ((p.storeEnd q true).node q).power.softDue = false := by
  unfold Plant.storeEnd
  dsimp only
  split
  · exact h
  · cases q <;> simp [Plant.release, h]

/-- What a good store sequence leaves (16 R441). -/
theorem Plant.storeEnd_good {p : Plant} {q : Part} (h : (p.node q).power.storing = true) :
    p.storeEnd q true =
      let w := (p.node q).power
      let x := (match q with | .cell c => p.release c 5 | _ => p).onNode q (fun n =>
        { n with power := { n.power with storing := false, snap := [], snapBlobs := [] } })
      let x := x.onNode q (fun n => { n with
        stored := n.stored.foldl (fun t e => if rindHeld e.1 then Tab.ins e.1 e.2 t else t) w.snap,
        storedBlobs := w.snapBlobs,
        power := { n.power with restore := false } })
      ((x.put q K.storeStatus 2).bump q K.storeGen 1).bump q K.storeCount 1 := by
  unfold Plant.storeEnd
  dsimp only
  rw [if_neg (by simp [h])]
  cases q <;> rfl

end Sys2Proof.Machine

namespace Sys2Proof

open Sys2Proof.Machine

/-- Settles O45: the writes by the object that each is, the rest by the branch that the premises take. -/
theorem storesComplete : Obligations.StoresComplete := by
  unfold Obligations.StoresComplete
  refine ⟨fun h v s ha => ?saveHub, fun c v s ha hgrants => ?saveCell, fun q s hup hstoring hsoft => ?saved, fun q v s h => ?restore,
    fun q bytes s h hentries => ?image, fun q bytes s h => ?load, fun q slot hash s h => ?program, fun q v s h => ?revoke,
    fun r v s h => ?saveHost, fun r v s h => ?restoreHost, fun r bytes s h hentries => ?imageHost, fun r bytes s h => ?loadHost,
    fun r slot hash s h => ?programHost, fun r v s h => ?revokeHost, fun q s hup hwriting hsoft hslot => ?written, ?firmware,
    fun s hup hstaged hverified => ?package⟩
  case saveHub =>
    exact congrArg Host.Outcome.next (State.rowWrite_quiet (isWriteOnly_storeSave (.hub h)) (by decide) (v.isLt : v.toNat < 256 ^ 2) ha rfl
      (Plant.storeStart_soft ..))
  case saveCell =>
    have hact : s.plant.act (.cell c) 0 K.storeSave v.toNat = s.plant.storeSave (.cell c) := rfl
    rw [Plant.storeSave_granted hgrants] at hact
    refine congrArg Host.Outcome.next (State.rowWrite_quiet (isWriteOnly_storeSave (.cell c)) (by decide) (v.isLt : v.toNat < 256 ^ 2) ha
      (congrArg Prod.snd hact) ?_)
    rw [Plant.storeStart_soft, Plant.onCell_node]
  case saved =>
    have hexec : exec (.storeDone q true) s = execStoreDone q true s := rfl
    rw [hexec, execStoreDone, if_neg (by simp [hup, hstoring]), State.softAfter_none (Plant.storeEnd_soft hsoft)]
    exact congrArg (fun p => Host.Outcome.next { s with plant := p }) (Plant.storeEnd_good hstoring)
  case restore =>
    exact congrArg Host.Outcome.next (State.rowWrite_quiet (isWriteOnly_storeRestore q) (by decide) (v.isLt : v.toNat < 256 ^ 2) h rfl
      (by simp))
  case image =>
    exact congrArg Host.Outcome.next (State.rowBytes_takes (isBytes_storeImage q) h (Plant.takeBytes_storeImage hentries)
      (Plant.putBlob_power ..))
  case load =>
    exact congrArg Host.Outcome.next (State.rowBytes_takes (isBytes_fwLoad q) h (Plant.takeBytes_fwLoad ..) (Plant.putBlob_power ..))
  case program =>
    exact congrArg Host.Outcome.next (State.rowBytes_takes (isBytes_keyProg q slot) h (Plant.takeBytes_keyProg ..)
      (Plant.programKey_power ..))
  case revoke =>
    exact congrArg Host.Outcome.next (State.rowWrite_quiet (isWriteOnly_keyRevoke q) (by decide) (v.isLt : v.toNat < 256 ^ 1) h rfl
      (congrArg Power.softDue (Plant.put_power ..)))
  case saveHost =>
    exact congrArg Host.Outcome.next (State.hostWrite_quiet (isWriteOnly_storeSave .cvc) (by decide) (v.isLt : v.toNat < 256 ^ 2) h
      (fun _ => rfl) (fun p => Plant.storeStart_soft ..))
  case restoreHost =>
    exact congrArg Host.Outcome.next (State.hostWrite_quiet (isWriteOnly_storeRestore .cvc) (by decide) (v.isLt : v.toNat < 256 ^ 2) h
      (fun _ => rfl) (fun p => by simp))
  case imageHost =>
    exact congrArg Host.Outcome.next (State.hostBytes_takes (by decide) (isBytes_storeImage .cvc) h (Plant.takeBytes_storeImage hentries)
      (fun p => Plant.putBlob_power ..))
  case loadHost =>
    exact congrArg Host.Outcome.next (State.hostBytes_takes (by decide) (isBytes_fwLoad .cvc) h (Plant.takeBytes_fwLoad ..)
      (fun p => Plant.putBlob_power ..))
  case programHost =>
    have hdomain : ∀ slot : Fin 2, (rowOf 0 (K.bootKeyProg + slot.val)).any (fun row => row.ty == .domain) = true := by decide
    exact congrArg Host.Outcome.next (State.hostBytes_takes (hdomain slot) (isBytes_keyProg .cvc slot) h (Plant.takeBytes_keyProg ..)
      (fun p => Plant.programKey_power ..))
  case revokeHost =>
    exact congrArg Host.Outcome.next (State.hostWrite_quiet (isWriteOnly_keyRevoke .cvc) (by decide) (v.isLt : v.toNat < 256 ^ 1) h
      (fun _ => rfl) (fun p => congrArg Power.softDue (Plant.put_power ..)))
  case written =>
    have hexec : exec (.firmwareWriteDone q) s = execFirmwareWriteDone q s := rfl
    have hwritten : s.plant.firmwareWritten q = (s.plant.put q K.bootFwVer0 (s.plant.node q).power.fwVersion).onNode q (fun n =>
        { n with power := { n.power with fwWriting := false, fwNamed := 0, sigFw0 := some (s.plant.node q).power.sigNew } }) := by
      rw [Plant.firmwareWritten]
      simp only [Plant.otherVersion, hslot, Nat.one_ne_zero, if_false, Nat.sub_self, if_true, Nat.zero_ne_one]
      exact Plant.onNode_congr (by simp only [Plant.put_power])
    rw [hexec, execFirmwareWriteDone, if_neg (by simp [hup, hwriting]), hwritten, State.softAfter_none]
    simp [hsoft]
  case firmware =>
    intro q s image hup himage hsome hwhole hcrc hheader hkey hkeyOk
    have hexec : exec (.signatureVerified 0 q true) s = execSignatureVerified 0 q true s := rfl
    rw [hexec, execSignatureVerified, State.onUp_up _ hup]
    simp [Plant.firmwareVerified, ← himage, hsome, hwhole, hcrc, hheader, hkey, hkeyOk]
  case package =>
    have hexec : exec (.signatureVerified 1 .cvc false) s = execSignatureVerified 1 .cvc false s := rfl
    rw [hexec, execSignatureVerified, State.onUp_up _ hup]
    simp [Plant.packageVerified, hstaged, hverified, Plant.imageAccepted, Plant.verifyFailed]

end Sys2Proof
end

section
/-! PROOF. Supplies, temperature and clocks (17 R461–R467). -/

namespace Sys2Proof.Machine

/-! ### Rails that leave their range -/

theorem Plant.railOut_again {p : Plant} {q : Part} {r : Nat} (h : bitOf (p.getN q K.pwrRails) r = true) : p.railOut q r = p := by
  rw [Plant.railOut, if_pos h]

/-- A rail that newly leaves its range is shown and counted; a core-side rail of a part that runs raises its source. -/
theorem Plant.railOut_new {p : Plant} {q : Part} {r : Nat} (h : bitOf (p.getN q K.pwrRails) r = false) :
    p.railOut q r =
      let x := (p.put q K.pwrRails (setBit (p.getN q K.pwrRails) r true : Nat)).bump q K.pwrRailEvents 1
      if r ≤ 3 ∧ p.up q = true then x.raise q (railSource q.kind) 0 else x := by
  rw [Plant.railOut, if_neg (by simp [h])]
  dsimp only
  rw [Plant.bump_up, Plant.put_up]

theorem Plant.railOut_power (p : Plant) (q r : Part) (n : Nat) : ((p.railOut q n).node r).power = (p.node r).power := by
  cases h : bitOf (p.getN q K.pwrRails) n with
  | true => rw [Plant.railOut_again h]
  | false =>
    rw [Plant.railOut_new h]
    dsimp only
    have hx : Plant.Quiet p ((p.put q K.pwrRails (setBit (p.getN q K.pwrRails) n true : Nat)).bump q K.pwrRailEvents 1) :=
      ((Plant.Quiet.refl p).put ..).bump ..
    split
    · exact (hx.raise ..).power r
    · exact hx.power r

/-- RAIL_OUT_OF_RANGE above the threshold, of a rail that is not a channel's. -/
theorem exec_railOutOfRange_above {q : Part} {rail : Fin 8} {s : State} (hrail : hasRail q.kind rail.val = true) (h5 : rail.val ≠ 5)
    (h6 : rail.val ≠ 6) : exec (.railOutOfRange q rail false) s = .next { s with plant := s.plant.railOut q rail.val } := by
  have hexec : exec (.railOutOfRange q rail false) s = execRailOutOfRange q rail false s := rfl
  rw [hexec, execRailOutOfRange]
  simp [hrail, h5, h6]

/-- RAIL_OUT_OF_RANGE of the supply of a Rind channel. -/
theorem exec_railOutOfRange_channel {ch : Fin 2} {rail : Fin 8} {below : Bool} {s : State} (hrail : rail.val = 5 + ch.val) :
    exec (.railOutOfRange .cvc rail below) s = .next { s with
      plant := if below then ((s.plant.railOut .cvc rail.val).chSupply ch.val true).chOff ch.val
        else (s.plant.railOut .cvc rail.val).chFault ch.val 1 } := by
  have hexec : exec (.railOutOfRange .cvc rail below) s = execRailOutOfRange .cvc rail below s := rfl
  have hhas : hasRail Part.cvc.kind (5 + ch.val) = true := by
    have hchannel : ∀ ch : Fin 2, hasRail 0 (5 + ch.val) = true := by decide
    exact hchannel ch
  have hside : 5 + ch.val = 5 ∨ 5 + ch.val = 6 := by omega
  have hvin : ¬ (5 + ch.val = 7 ∧ below = true) := by omega
  rw [hexec, execRailOutOfRange]
  simp only [hrail, hhas, Bool.not_true, Bool.false_eq_true, if_false, hvin, hside, if_true, Nat.add_sub_cancel_left]

/-- A core-side rail below its threshold holds the part's core in reset (R461). -/
theorem State.coreSupplyLost_node (s : State) (q : Part) :
    ((s.coreSupplyLost q).plant.node q).power.core = false ∧
      ((s.coreSupplyLost q).plant.node q).power.causes = (s.plant.node q).power.causes ||| 1 ∧
      ((s.coreSupplyLost q).plant.node q).cave.queue = [] ∧ (q.kind ≠ 2 → ((s.coreSupplyLost q).plant.node q).power.rails = false) := by
  obtain ⟨hpower, hqueue, -, -⟩ := s.partDown_node q .pin 1
  cases q with
  | cell c =>
    simp only [State.coreSupplyLost, Plant.onCell_node, hpower, hqueue, Power.down, reduceCtorEq, if_false, true_and]
    exact fun h => absurd rfl h
  | cvc =>
    simp only [State.coreSupplyLost, Plant.onPower, Plant.node_onNode_self, hpower, hqueue, Power.down, reduceCtorEq, if_false, true_and,
      implies_true]
  | hub h =>
    simp only [State.coreSupplyLost, Plant.onPower, Plant.node_onNode_self, hpower, hqueue, Power.down, reduceCtorEq, if_false, true_and,
      implies_true]

/-- A part that loses its supplies is reset as at power-on, and waits for them. -/
theorem State.supplyLost_node (s : State) (q : Part) :
    ((s.supplyLost q).plant.node q).power.core = false ∧
      ((s.supplyLost q).plant.node q).power.causes = (if (s.plant.node q).power.held then 3 else 1) ∧
      ((s.supplyLost q).plant.node q).cave.queue = [] ∧ ((s.supplyLost q).plant.node q).power.rails = false := by
  obtain ⟨hpower, hqueue, -, -⟩ := s.partDown_node q .por (if (s.plant.node q).power.held then 3 else 1)
  simp only [State.supplyLost, Plant.onPower, Plant.node_onNode_self, hpower, hqueue, Power.down, if_true, Nat.zero_or, true_and]

/-! ### Rails that are back -/

/-- RAIL_IN_RANGE of a rail that is not a channel's, at a CVC or hub. -/
theorem exec_railInRange_main {q : Part} {rail : Fin 8} {s : State} {n : Nat} {p : Plant} (hrail : hasRail q.kind rail.val = true)
    (hmain : rail.val ≤ 4) (hq : q.kind ≠ 2) (hn : n = setBit (s.plant.getN q K.pwrRails) rail.val false)
    (hp : p = s.plant.put q K.pwrRails n) :
    exec (.railInRange q rail) s = .next (if n % 128 ≠ 0 then { s with plant := p }
      else State.partStart { s with plant := p.onPower q (fun w => { w with rails := true }) } q) := by
  have hexec : exec (.railInRange q rail) s = execRailInRange q rail s := rfl
  have hside : ¬ (rail.val = 5 ∨ rail.val = 6) := by omega
  have hshown : p.getN q K.pwrRails = n := by rw [hp, Plant.getN_put_self, Int.toNat_natCast]
  rw [hexec, execRailInRange, apply_ite Host.Outcome.next]
  simp only [hrail, Bool.not_true, Bool.false_eq_true, if_false, hside, hq, ← hn, ← hp, hshown]

/-- Showing the outputs of the channels leaves every other object. -/
theorem Plant.getN_showOut {p : Plant} {key : Nat} (h : key ≠ K.rindOut) : p.showOut.getN .cvc key = p.getN .cvc key := by
  rw [Plant.showOut, Plant.cPut, Plant.getN_put_other h]

/-- A channel whose stored image verifies starts HEALTHY. -/
theorem Plant.chStart_good {p : Plant} {ch : Nat}
    (himage : (if ch = 0 then (p.node .cvc).power.pins.imageA else (p.node .cvc).power.pins.imageB) = true) (hid : p.c K.rindImageId ≠ 0) :
    p.chStart ch = ((p.cPut (K.rindSaState + ch) 2).cPut (K.rindSaFault + ch) 0).showOut := by
  simp [Plant.chStart, himage, hid]

/-- RAIL_IN_RANGE of the supply of a channel that is off, while another rail is out. -/
theorem exec_railInRange_channel {ch : Fin 2} {rail : Fin 8} {s : State} {p : Plant} (hrail : rail.val = 5 + ch.val)
    (hp : p = (s.plant.put .cvc K.pwrRails (setBit (s.plant.getN .cvc K.pwrRails) rail.val false : Nat)).chSupply ch.val false)
    (hup : p.up .cvc = true) (hstate : p.chState ch.val = 0) (hmore : (p.chStart ch.val).getN .cvc K.pwrRails % 128 ≠ 0) :
    exec (.railInRange .cvc rail) s = .next { s with plant := p.chStart ch.val } := by
  have hexec : exec (.railInRange .cvc rail) s = execRailInRange .cvc rail s := rfl
  have hchannel : ∀ ch : Fin 2, hasRail 0 (5 + ch.val) = true := by decide
  have hhas : hasRail Part.cvc.kind (5 + ch.val) = true := hchannel ch
  have hside : 5 + ch.val = 5 ∨ 5 + ch.val = 6 := by omega
  have hkind : Part.cvc.kind ≠ 2 := by decide
  rw [hexec, execRailInRange]
  rw [hrail] at hp ⊢
  simp only [hhas, Bool.not_true, Bool.false_eq_true, if_false, hside, if_true, Nat.add_sub_cancel_left, ← hp, hup, hstate, and_self,
    hkind, hmore, ne_eq, not_false_eq_true]

/-- The rails that `pwr.rails` shows stand as a channel starts. -/
theorem Plant.getN_chStart {p : Plant} {ch : Fin 2}
    (himage : (if ch.val = 0 then (p.node .cvc).power.pins.imageA else (p.node .cvc).power.pins.imageB) = true)
    (hid : p.c K.rindImageId ≠ 0) : (p.chStart ch.val).getN .cvc K.pwrRails = p.getN .cvc K.pwrRails := by
  have hkeys : ∀ ch : Fin 2, K.pwrRails ≠ K.rindSaState + ch.val ∧ K.pwrRails ≠ K.rindSaFault + ch.val := by decide
  obtain ⟨hstate, hfault⟩ := hkeys ch
  rw [Plant.chStart_good himage hid, Plant.getN_showOut (by decide), Plant.cPut, Plant.getN_put_other hfault, Plant.cPut,
    Plant.getN_put_other hstate]

theorem Plant.getN_chSupply (p : Plant) (ch key : Nat) (low : Bool) : (p.chSupply ch low).getN .cvc key = p.getN .cvc key := by
  simp only [Plant.chSupply, Plant.getN, Plant.onPower_get]

/-! ### Temperature -/

/-- JUNCTION_TEMPERATURE by the warnings that it crosses. -/
theorem exec_junctionTemperature {q : Part} {tenths : BitVec 16} {s : State} {x : Plant} (hup : s.plant.up q = true)
    (hx : x = (s.plant.put q K.pwrTj tenths.toInt).raiseMax q K.pwrTjMax tenths.toInt) :
    exec (.junctionTemperature q tenths) s = .next { s with
      plant :=
        let y := if s.plant.get q K.pwrTj ≤ 1050 ∧ 1050 < tenths.toInt then x.raise q (if q.kind = 0 then 124 else 4) 0 else x
        if s.plant.get q K.pwrTj ≤ 1100 ∧ 1100 < tenths.toInt then y.raise q (if q.kind = 0 then 125 else 5) 0 else y } := by
  have hexec : exec (.junctionTemperature q tenths) s = execJunctionTemperature q tenths s := rfl
  rw [hexec, execJunctionTemperature, State.onUp_up _ hup]
  simp only [← hx, decide_eq_true_eq]
  cases q <;> rfl

end Sys2Proof.Machine

namespace Sys2Proof

open Sys2Proof.Machine

/-- Settles O46, each command by the branch that its premises take. -/
theorem suppliesComplete : Obligations.SuppliesComplete := by
  unfold Obligations.SuppliesComplete
  refine ⟨fun q rail below s hrail => ?none, fun q rail s hrail h5 h6 hout => ?again, fun q rail s hrail hcore hup hin => ?core,
    fun q rail s hrail h5 h6 hquiet hin => ?quiet, fun ch rail s hrail hin => ?channel, fun ch rail s hrail => ?channelLow,
    fun q rail s hrail hcore => ?coreLow, fun q rail s hrail hmain => ?mainLow, fun q rail s hrail => ?backNone, fun c rail s hrail => ?backCell,
    fun q rail s hrail hmain hq hmore => ?backMore, fun q rail s hrail hmain hq hlast => ?backLast, ?backChannel,
    fun q tenths s hup hcool => ?cool, fun q tenths s hup hhot => ?hot, fun q tenths s hup hwas hfirst hsecond => ?first,
    fun q tenths s hup hwas hwas' hsecond => ?second, fun q tenths s hup hwas hsecond => ?both, fun q s hup => ?clock⟩
  case none =>
    have hexec : exec (.railOutOfRange q rail below) s = execRailOutOfRange q rail below s := rfl
    rw [hexec, execRailOutOfRange]
    simp only [hrail, Bool.not_false, if_true]
  case again => rw [exec_railOutOfRange_above hrail h5 h6, Plant.railOut_again hout]
  case core =>
    rw [exec_railOutOfRange_above hrail (by omega) (by omega), Plant.railOut_new hin]
    dsimp only
    rw [if_pos ⟨hcore, hup⟩]
  case quiet =>
    rw [exec_railOutOfRange_above hrail h5 h6, Plant.railOut_new hin]
    dsimp only
    rw [if_neg]
    rintro ⟨hcore, hup⟩
    rcases hquiet with hrest | hdown
    · omega
    · simp [hup] at hdown
  case channel =>
    rw [exec_railOutOfRange_channel hrail, if_neg Bool.false_ne_true, Plant.railOut_new hin]
    dsimp only
    rw [if_neg (fun h => by omega)]
  case channelLow =>
    rw [exec_railOutOfRange_channel hrail]
    rfl
  case coreLow =>
    have hexec : exec (.railOutOfRange q rail true) s = execRailOutOfRange q rail true s := rfl
    refine ⟨({ s with plant := s.plant.railOut q rail.val } : State).coreSupplyLost q, ?_, ?_⟩
    · rw [hexec, execRailOutOfRange]
      simp only [hrail, Bool.not_true, Bool.false_eq_true, if_false]
      rw [if_neg (by omega), if_neg (by omega), if_neg (by omega)]
    · have hlost := ({ s with plant := s.plant.railOut q rail.val } : State).coreSupplyLost_node q
      rwa [Plant.railOut_power] at hlost
  case mainLow =>
    have hexec : exec (.railOutOfRange q rail true) s = execRailOutOfRange q rail true s := rfl
    rcases hmain with h4 | h7
    · refine ⟨({ s with plant := s.plant.railOut q 4 } : State).supplyLost q, ?_, ?_⟩
      · rw [hexec, execRailOutOfRange]
        rw [h4] at hrail ⊢
        simp [hrail]
      · have hlost := ({ s with plant := s.plant.railOut q 4 } : State).supplyLost_node q
        rwa [Plant.railOut_power] at hlost
    · refine ⟨({ s with plant := s.plant.put q K.pwrRails (setBit (s.plant.getN q K.pwrRails) 7 false : Nat) } : State).supplyLost q, ?_, ?_⟩
      · rw [hexec, execRailOutOfRange]
        rw [h7] at hrail ⊢
        simp [hrail]
      · have hlost := ({ s with plant := s.plant.put q K.pwrRails (setBit (s.plant.getN q K.pwrRails) 7 false : Nat) } : State).supplyLost_node q
        rwa [Plant.put_power] at hlost
  case backNone =>
    have hexec : exec (.railInRange q rail) s = execRailInRange q rail s := rfl
    rw [hexec, execRailInRange]
    simp only [hrail, Bool.not_false, if_true]
  case backCell =>
    have hexec : exec (.railInRange (.cell c) rail) s = execRailInRange (.cell c) rail s := rfl
    have hside : ∀ rail : Fin 8, hasRail 2 rail.val = true → ¬ (rail.val = 5 ∨ rail.val = 6) := by decide
    have hkind : (Part.cell c).kind = 2 := rfl
    rw [hexec, execRailInRange]
    simp only [hkind, hrail, Bool.not_true, Bool.false_eq_true, if_false, hside rail hrail, if_true]
  case backMore => rw [exec_railInRange_main hrail hmain hq rfl rfl, if_pos hmore]
  case backLast => rw [exec_railInRange_main hrail hmain hq rfl rfl, if_neg (not_not.2 hlast)]
  case backChannel =>
    intro ch rail s p hrail hup hstate hmore hp himage hid
    have hkeys : ∀ ch : Fin 2, K.rindSaState + ch.val ≠ K.pwrRails := by decide
    have hpSupply : p = (s.plant.put .cvc K.pwrRails (setBit (s.plant.getN .cvc K.pwrRails) rail.val false : Nat)).chSupply ch.val false := hp
    have hpUp : p.up .cvc = true := by
      rw [hp, Plant.up, Plant.onPower_power, Plant.put_power]
      exact hup
    have hpState : p.chState ch.val = 0 := by
      rw [Plant.chState, Plant.c, hpSupply, Plant.getN_chSupply, Plant.getN_put_other (hkeys ch)]
      exact hstate
    have hpImage : (if ch.val = 0 then (p.node .cvc).power.pins.imageA else (p.node .cvc).power.pins.imageB) = true := by
      rw [hp, Plant.onPower_power, Plant.put_power]
      exact himage
    have hpId : p.c K.rindImageId ≠ 0 := by
      rw [Plant.c, hpSupply, Plant.getN_chSupply, Plant.getN_put_other (by decide)]
      exact hid
    have hshown : (p.chStart ch.val).getN .cvc K.pwrRails = setBit (s.plant.getN .cvc K.pwrRails) rail.val false := by
      rw [Plant.getN_chStart hpImage hpId, hpSupply, Plant.getN_chSupply, Plant.getN_put_self, Int.toNat_natCast]
    rw [exec_railInRange_channel hrail hpSupply hpUp hpState (by rwa [hshown]), Plant.chStart_good hpImage hpId]
  case cool =>
    rw [exec_junctionTemperature hup rfl]
    dsimp only
    rw [if_neg (by omega), if_neg (by omega)]
  case hot =>
    rw [exec_junctionTemperature hup rfl]
    dsimp only
    rw [if_neg (by omega), if_neg (by omega)]
  case first =>
    rw [exec_junctionTemperature hup rfl]
    dsimp only
    rw [if_neg (fun h => by omega), if_pos ⟨hwas, hfirst⟩]
  case second =>
    rw [exec_junctionTemperature hup rfl]
    dsimp only
    rw [if_pos ⟨hwas', hsecond⟩, if_neg (fun h => by omega)]
  case both =>
    rw [exec_junctionTemperature hup rfl]
    dsimp only
    rw [if_pos ⟨by omega, hsecond⟩, if_pos ⟨hwas, by omega⟩]
  case clock =>
    have hexec : exec (.referenceClockLost q) s = execReferenceClockLost q s := rfl
    rw [hexec, execReferenceClockLost, State.onUp_up _ hup]
    cases q <;> rfl

end Sys2Proof
end

section
/-! PROOF. The state right after reset (16 R436, 05 R105). -/

namespace Sys2Proof

open Sys2Proof.Machine

/-- Settles O47: the reset state lists no part, so that each reads as one that nothing has happened to. -/
theorem resetState : Obligations.ResetState := by
  unfold Obligations.ResetState
  exact ⟨fun q key => rfl, fun q => ⟨rfl, rfl⟩, rfl, rfl⟩

end Sys2Proof
end
